-- ==== Sys2Proof/Word.lean ====
section
/-! DEFINITION. Words, bytes, the time word and the plainest arithmetic on them (R8, R9, R12, R159). -/

namespace Sys2Proof

/-- One byte. -/
abbrev Byte := BitVec 8
/-- A string of bytes, lowest address or earliest on the wire first (R9). -/
abbrev Bytes := List Byte
/-- A TW64 time word, in units of 2^-8 ns (R287). -/
abbrev TW64 := BitVec 64

/-- `cdiv(a, b)` of R120: the quotient rounded up. -/
def cdiv (a b : Nat) : Nat := (a + b - 1) / b

/-- `clamp(a, lo, hi)` of R159. -/
def clampInt (a lo hi : Int) : Int := if a < lo then lo else if hi < a then hi else a

/-- `asr(a, n)` of R159: the greatest integer not above `a / 2^n`. -/
def asr (a : Int) (n : Nat) : Int := Int.fdiv a ((2 ^ n : Nat) : Int)

/-- `rdiv(a, b)` of R159: `a / b` to nearest, ties upward. -/
def rdiv (a b : Int) : Int := Int.fdiv (2 * a + b) (2 * b)

/-- `absd(a, b)` of R159. -/
def absd (a b : Nat) : Nat := if a < b then b - a else a - b

/-- The two's-complement reading of the low `w` bits of `n`. -/
def signedOf (w n : Nat) : Int :=
  let v := n % 2 ^ w
  if 2 * v < 2 ^ w then (v : Int) else (v : Int) - (2 ^ w : Nat)

/-- The `w`-bit two's-complement pattern of `i`. -/
def patternOf (w : Nat) (i : Int) : Nat := (i % ((2 ^ w : Nat) : Int)).toNat

/-- The signed difference `(I64)(a - b)` by which R288 compares two time words. -/
def twDiff (a b : TW64) : Int := (a - b).toInt

/-- Bits [hi:lo] of `n` (R8). -/
def bitsOf (n hi lo : Nat) : Nat := n / 2 ^ lo % 2 ^ (hi + 1 - lo)

/-- Bit [i] of `n` (R8). -/
def bitOf (n i : Nat) : Bool := n / 2 ^ i % 2 == 1

/-- `n` with bit [i] put to `b`. -/
def putBit (n i : Nat) (b : Bool) : Nat :=
  if bitOf n i == b then n else if b then n + 2 ^ i else n - 2 ^ i

/-- The number of a Boolean: 1 for true. -/
def bn (b : Bool) : Nat := if b then 1 else 0

/-- The `k` little-endian bytes of `n` (R9). -/
def leBytes : Nat → Nat → Bytes
  | 0, _ => []
  | k + 1, n => BitVec.ofNat 8 n :: leBytes k (n / 256)

/-- The number that little-endian bytes hold (R9). -/
def leNat : Bytes → Nat
  | [] => 0
  | b :: bs => b.toNat + 256 * leNat bs

/-- The little-endian number in `k` bytes from offset `o`. -/
def leAt (b : Bytes) (o k : Nat) : Nat := leNat ((b.drop o).take k)

/-- `b` with the bytes from offset `o` replaced by `v`, never growing. -/
def putBytes (b : Bytes) (o : Nat) (v : Bytes) : Bytes :=
  (b.take o ++ v.take (b.length - o)) ++ b.drop (o + v.length)

/-- `k` zero bytes. -/
def zeros (k : Nat) : Bytes := List.replicate k 0

/-- The floor of the square root, by Newton's iteration from above on `fuel` steps. -/
def isqrtAux : Nat → Nat → Nat → Nat
  | 0, _, x => x
  | fuel + 1, n, x => let y := (x + n / x) / 2; if y < x then isqrtAux fuel n y else x

/-- The greatest `s` with `s^2 ≤ n` (R226, R243). -/
def isqrt (n : Nat) : Nat := if n = 0 then 0 else isqrtAux (n.log2 + 2) n (2 ^ (n.log2 / 2 + 1))

/-- A sparse table by number: pairs in rising order of key, holding no pair of the value that an
unlisted key reads as. -/
abbrev SMap (α : Type) := List (Nat × α)

/-- The value at key `k`; `d` where the table lists none. -/
def SMap.get {α : Type} (d : α) : SMap α → Nat → α
  | [], _ => d
  | (a, v) :: t, k => if k = a then v else SMap.get d t k

/-- Put `v` at key `k` in rising order, whatever `v` is. -/
def SMap.put {α : Type} (k : Nat) (v : α) : SMap α → SMap α
  | [] => [(k, v)]
  | (a, w) :: t => if k < a then (k, v) :: (a, w) :: t
                   else if k = a then (k, v) :: t else (a, w) :: SMap.put k v t

/-- Drop the key `k`. -/
def SMap.del {α : Type} (k : Nat) : SMap α → SMap α
  | [] => []
  | (a, w) :: t => if k = a then SMap.del k t else (a, w) :: SMap.del k t

/-- Set key `k` to `v`, keeping the table canonical for the unlisted value `d`. -/
def SMap.set {α : Type} [DecidableEq α] (d : α) (m : SMap α) (k : Nat) (v : α) : SMap α :=
  if v = d then SMap.del k m else SMap.put k v m

/-- The keys rise strictly. -/
def SMap.sorted {α : Type} : SMap α → Bool
  | [] => true
  | [_] => true
  | (a, _) :: (b, w) :: t => decide (a < b) && SMap.sorted ((b, w) :: t)

end Sys2Proof
end

