-- ==== Sys2Proof/Syntax.lean ====
section
/-! DEFINITION. The commands of the module: one constructor per row of spec/opcode_table.json, in its order.
A command that writes one particular dictionary entry names the access path (R435: 0 mailbox, 1 CAN FD,
2 fabric, 3 two-wire gateway, 4 the module itself) and, where the value is free, the bytes written.
An event at the contacts carries what the contacts show: bytes of a packet or frame, which parts lay in
damaged blocks (R40), and the TW64 instants that the spec stamps. -/

namespace Sys2Proof

/-- One command of the block (spec/opcode_table.json). -/
inductive Instr where
  /-- LANE_RECONFIGURE, R53: A change of QUAD_ROLE, QUAD_PORTS, LOOP_MODE or an equalisation entry takes every lane of the affected quad or lane to DOWN and restarts bring-up. -/
  | laneReconfigure (path : Nat) (index : Nat) (sub : Nat) (data : Bytes)
  /-- REF_SWITCHOVER, R24: The selected reference input becomes invalid while the other is valid, and the reference PLL switches over with phase build-out. -/
  | refSwitchover
  /-- REF_HOLDOVER, R25: Neither reference input is valid, so the reference PLL enters holdover and sets REF_HOLDOVER. -/
  | refHoldover
  /-- REF_VALID_RETURN, R25: A valid reference input returns and the PLL slews to it, reselecting a preferred input. -/
  | refValidReturn (a : Bool) (b : Bool)
  /-- QUAD_PLL_LOCK, R44: A quad PLL locks and its transmitters start sending idle blocks and alignment markers. -/
  | quadPllLock (q : Nat)
  /-- SIGNAL_ACQUIRED, R44: A lane receiver gains signal and clock recovery, and the lane enters SEEKING and starts a search pass. -/
  | signalAcquired (lane : Nat)
  /-- LOSS_OF_SIGNAL, R44: A lane has had no signal for 1 µs, goes to DOWN and abandons any search pass. -/
  | lossOfSignal (lane : Nat)
  /-- SEARCH_DWELL, R47: The search dwell of a SEEKING lane expires, and the Bench either declares the lane LOCKED or issues the next slip. -/
  | searchDwell (lane : Nat)
  /-- SEARCH_PASS_WAIT, R47: The 10 ms wait after a failed search pass expires and a new pass starts. -/
  | searchPassWait (lane : Nat)
  /-- SLIP, R48: A write of SLIP issues one bit slip in manual mode or is counted as without effect in automatic mode. -/
  | slip (path : Nat) (lane : Nat) (data : Bytes)
  /-- SEARCH_MODE, R48: A change of SEARCH_MODE from manual to Bench starts a new search pass at the current offset. -/
  | searchMode (path : Nat) (lane : Nat) (data : Bytes)
  /-- BLOCK_RECEIVE, R35: A received block is checked for lock validity and framing and added to the open packet or discarded. -/
  | blockReceive (lane : Nat) (header : Bool) (payload : Bytes)
  /-- BLK_LOCK_SET, R45: 64 consecutive valid block pairs set BLK_LOCK, taking a SEEKING lane to LOCKED. -/
  | blkLockSet (lane : Nat)
  /-- LOCK_LOST_TIMEOUT, R50: BLK_LOCK has stayed 0 for 10 µs on a LOCKED lane, which returns to SEEKING. -/
  | lockLostTimeout (lane : Nat)
  /-- ALIGN_LOSS, R50: An ALIGNED lane sees 10 µs of uncorrectable codewords or two consecutive bad or missing markers and returns to SEEKING. -/
  | alignLoss (lane : Nat)
  /-- CODEWORD_RECEIVE, R40: A Reed-Solomon codeword is decoded, corrected or marked uncorrectable, and its blocks are passed on. -/
  | codewordReceive (lane : Nat) (levels : List Nat)
  /-- ALIGNMENT_MARKER, R49: A received alignment marker is checked for CRC, spacing and identity toward codeword phase and port alignment. -/
  | alignmentMarker (lane : Nat) (header : Bool) (payload : Bytes)
  /-- EYE_MEASURE, R58: The eye-measurement interval of an ALIGNED lane expires and a measurement starts. -/
  | eyeMeasure (lane : Nat)
  /-- EYE_MEASURE_DONE, R58: An eye measurement completes and writes EYE_LAST and the Almanac. -/
  | eyeMeasureDone (lane : Nat) (up : Nat) (mid : Nat) (low : Nat) (width : Nat)
  /-- LOOP_FIFO_RECENTRE, R61: The far-end loop phase FIFO overruns or underruns and is re-centred, counting a lock loss. -/
  | loopFifoRecentre (lane : Nat)
  /-- LINK_SETTLE, R74: A port has been ALIGNED for LINK_SETTLE and goes to LINKED. -/
  | linkSettle (port : Nat)
  /-- LINK_OFFER_SEND, R74: The LINK_OFFER period expires on a LINKED or FAULTED port and a LINK_OFFER is sent. -/
  | linkOfferSend (port : Nat)
  /-- IDENTITY, R77: An IDENTITY packet is received and accepted, compared with the first, or made to fault the port. -/
  | identity (port : Nat) (bytes : Bytes) (hdrDamaged : Bool) (payDamaged : Bool) (t : TW64)
  /-- IDENTITY_TIMEOUT, R78: No accepted IDENTITY arrives within 100 ms of LINKED and the port goes to FAULTED with reason 1. -/
  | identityTimeout (port : Nat)
  /-- PIXEL_PACKET, R101: An upstream pixel packet or frame marker passes the policing checks and is written to the retention ring or discarded. -/
  | pixelPacket (port : Nat) (bytes : Bytes) (hdrDamaged : Bool) (payDamaged : Bool) (tFirst : TW64) (tLast : TW64)
  /-- SQUALL_CALM, R104: SQUALL_CALM passes with no refusal and the stream leaves squall. -/
  | squallCalm (stream : Nat)
  /-- STREAM_ABSENT, R104: No pixel packet arrives for SILENCE_LINES line periods and the stream is reported absent. -/
  | streamAbsent (stream : Nat)
  /-- REG_CMD_READ, R85: REG_CMD 1 starts a camera register read transaction. -/
  | regCmdRead (path : Nat) (port : Nat)
  /-- REG_CMD_WRITE, R85: REG_CMD 2 starts a camera register write transaction. -/
  | regCmdWrite (path : Nat) (port : Nat)
  /-- REG_CMD_SETTINGS_WRITE, R86: REG_CMD 3 starts a tagged settings write, assigning the next tag and creating a set slot. -/
  | regCmdSettingsWrite (path : Nat) (port : Nat)
  /-- REG_BUCKET_READY, R84: The register bucket of a port holds the charge of a waiting request, which is then sent. -/
  | regBucketReady (port : Nat)
  /-- REG_RESPONSE, R88: A REG_RESPONSE is received and matched to the outstanding transaction, ending it with its status and EXEC. -/
  | regResponse (port : Nat) (bytes : Bytes) (hdrDamaged : Bool) (payDamaged : Bool) (t : TW64)
  /-- REG_TIMEOUT, R81: REG_TIMEOUT expires without a response and the request is resent, or the transaction fails and the port faults. -/
  | regTimeout (port : Nat)
  /-- DOWNSTREAM_PACKET_SEND, R93: The downstream link becomes free and the highest-priority waiting packet is sent. -/
  | downstreamPacketSend (port : Nat) (t : TW64)
  /-- ACK, R90: An ACK to a trigger or beacon is received, its status counted or its stamps used for LINK_DELAY. -/
  | ack (port : Nat) (bytes : Bytes) (hdrDamaged : Bool) (payDamaged : Bool) (t : TW64)
  /-- TRIGGER_ACK_TIMEOUT, R92: No ACK arrives within 10 µs of a trigger, which is resent or counted as lost. -/
  | triggerAckTimeout (port : Nat) (tid : Nat)
  /-- BEACON_SEND, R95: The beacon period expires on a LINKED port and a BEACON is sent with T1. -/
  | beaconSend (port : Nat)
  /-- BEACON_ACK_TIMEOUT, R95: No ACK to a beacon arrives within 10 µs and a fresh beacon is sent or a miss counted. -/
  | beaconAckTimeout (port : Nat) (bid : Nat)
  /-- CAM_EVENT, R106: A CAM_EVENT is received, charged against the control bucket, counted and published. -/
  | camEvent (port : Nat) (bytes : Bytes) (hdrDamaged : Bool) (payDamaged : Bool) (t : TW64)
  /-- COMMIT, R111: CONTRACT_CMD 1 forecasts the staged contract values or a change. -/
  | commit (path : Nat) (stream : Nat)
  /-- START, R113: CONTRACT_CMD 2 makes the start checks and enables the VC or suspends the contract. -/
  | start (path : Nat) (stream : Nat)
  /-- STOP, R111: CONTRACT_CMD 3 clears VC_ENABLE and closes the open stripe as incomplete. -/
  | stop (path : Nat) (stream : Nat)
  /-- RELEASE, R111: CONTRACT_CMD 4 stops the stream and frees every resource the contract holds. -/
  | release (path : Nat) (stream : Nat)
  /-- DISCARD, R111: CONTRACT_CMD 5 copies the values in force back into the staging fields. -/
  | discard (path : Nat) (stream : Nat)
  /-- FORECAST_VERDICT, R120: The Forecast completes its admission computation and admits or refuses a contract or change. -/
  | forecastVerdict (stream : Nat)
  /-- PARTNER_VERDICT_ANSWER, R132: The partner's Forecast answer arrives and the pair verdict is given. -/
  | partnerVerdictAnswer (stream : Nat) (answer : Bool) (reason : Nat) (detail : Nat) (bound : Nat)
  /-- PARTNER_VERDICT_TIMEOUT, R132: The partner does not answer within 5 ms and the verdict is reason 0x51. -/
  | partnerVerdictTimeout (stream : Nat)
  /-- AUTO_RESUME, R110: A contract suspended with reason 1 or 3 resumes to RUNNING once its port and camera meet the start checks. -/
  | autoResume (stream : Nat)
  /-- REFORECAST, R131: A change of E, NET_RATE or route re-forecasts every admitted contract and retries suspended ones. -/
  | reforecast
  /-- LOOKAHEAD_TIMEOUT, R116: Stripe close plus Tlook passes before the lookahead lines arrive and the stripe is released short. -/
  | lookaheadTimeout (stream : Nat)
  /-- STRIPE_START, R141: A planer chooses the next released stripe by budget, key and stream number and starts it, with a kerf on a context change. -/
  | stripeStart (planer : Nat)
  /-- STRIPE_FINISH, R141: A planer finishes a stripe through the cutter and hands its outputs to the DMA engine. -/
  | stripeFinish (planer : Nat)
  /-- REPLAY_WINDOW, R144: A replay window begins and the planer runs a replay slice when a replay is pending. -/
  | replayWindow (planer : Nat)
  /-- REPLAY_SLICE_END, R144: A replay slice ends and the paused stripe resumes without a kerf. -/
  | replaySliceEnd (planer : Nat)
  /-- STRIPE_WATCHDOG, R155: A stripe runs longer than 4 × STRIPE_TIME and is aborted, with the cutter closing open objects. -/
  | stripeWatchdog (planer : Nat)
  /-- PLANER_CLOCK_GATE, R466: A planer with no placed context is clock-gated after 1 ms. -/
  | planerClockGate (planer : Nat)
  /-- PARAMS_APPLY, R149: A write of PARAMS_APPLY creates an untagged set slot or waits for a free slot. -/
  | paramsApply (path : Nat) (stream : Nat) (data : Bytes)
  /-- SET_SLOT_WAIT_END, R149: A set slot is freed and a waiting settings write, PARAMS_APPLY or entry to RUNNING proceeds. -/
  | setSlotWaitEnd (stream : Nat)
  /-- TBL_SIZE, R186: A write of TBL_SIZE allocates a zero-filled loading copy and sets TBL_STATE to loading. -/
  | tblSize (path : Nat) (data : Bytes)
  /-- TBL_DATA, R186: A write of TBL_DATA stores its bytes at TBL_OFFSET and advances it. -/
  | tblData (path : Nat) (data : Bytes)
  /-- TBL_CMD_SWAP, R186: TBL_CMD 1 checks the loading copy and makes the swap pending. -/
  | tblCmdSwap (path : Nat)
  /-- TBL_CMD_ABANDON, R186: TBL_CMD 2 frees the loading copy and returns TBL_STATE to idle. -/
  | tblCmdAbandon (path : Nat)
  /-- TABLE_ACTIVATE, R187: A swapped table becomes active at the first stripe or frame that opens after the swap, and the old copy is freed when unused. -/
  | tableActivate (profile : Nat) (kind : Nat)
  /-- BG_CMD, R219: A write of 1 to BG_CMD makes the cutter relearn the background model from the next stripe. -/
  | bgCmd (path : Nat) (stream : Nat) (data : Bytes)
  /-- POS_MODE, R239: A change of POS_MODE restarts the channel, its speed state and its divider. -/
  | posMode (path : Nat) (channel : Nat) (data : Bytes)
  /-- POS_SAMPLE, R241: A sin/cos sample updates phase, COUNT, direction, speed, divider and sequencer compares. -/
  | posSample (channel : Nat) (rawSin : Int) (rawCos : Int) (t : TW64)
  /-- AMP_DWELL_EXPIRY, R243: The amplitude has stayed outside or inside the window for AMP_DWELL samples and the window flags change. -/
  | ampDwellExpiry (channel : Nat)
  /-- SSI_POLL, R244: The SSI poll period expires and a new SSI frame is clocked. -/
  | ssiPoll (channel : Nat) (t : TW64)
  /-- SSI_FRAME, R245: An SSI frame completes and its word is accepted into COUNT or rejected. -/
  | ssiFrame (channel : Nat) (word : Nat) (t : TW64)
  /-- SSI_JUMP_RESYNC, R245: After three consecutive jump rejections the next word is taken as reference and POS_INVALID is set. -/
  | ssiJumpResync (channel : Nat) (word : Nat) (t : TW64)
  /-- SSI_LOST, R245: Ten consecutive rejected SSI frames set LOST. -/
  | ssiLost (channel : Nat)
  /-- POS_CMD, R246: A write of 1 to POS_CMD clears POS_INVALID. -/
  | posCmd (path : Nat) (channel : Nat) (data : Bytes)
  /-- GATE_END, R249: A frequency gate ends and SPEED is computed from the change of COUNT. -/
  | gateEnd (channel : Nat)
  /-- STANDSTILL, R251: COUNT has not changed for STILL_TIME and the channel reports standstill. -/
  | standstill (channel : Nat)
  /-- DIV_OUTPUT_STEP, R253: DIV_MIN_GAP has passed with backlog Q non-zero and the divider outputs one quadrature step. -/
  | divOutputStep (channel : Nat)
  /-- MG_CMD_ARM, R254: MG_CMD 1 arms a sequencer and applies the behind policy to its first target. -/
  | mgCmdArm (path : Nat) (sequencer : Nat)
  /-- MG_CMD_DISARM, R254: MG_CMD 2 disarms a sequencer, sending a STOP trigger in mode 5. -/
  | mgCmdDisarm (path : Nat) (sequencer : Nat)
  /-- MG_TIME_TARGET, R256: TW64 reaches a sequencer's time target or send instant and its enabled outputs are produced. -/
  | mgTimeTarget (sequencer : Nat)
  /-- MG_PULSE_END, R257: A sequencer pulse reaches its end time and the pin returns to inactive. -/
  | mgPulseEnd (sequencer : Nat)
  /-- MG_TARGET_WRITE, R259: A target written to an ARMED or RUNNING sequencer replaces its next target at the next evaluation. -/
  | mgTargetWrite (path : Nat) (sequencer : Nat) (sub : Nat) (data : Bytes)
  /-- MG_COUNT_WRITE, R259: A write of MG_COUNT at or below the targets passed ends the train at DONE. -/
  | mgCountWrite (path : Nat) (sequencer : Nat) (data : Bytes)
  /-- DECISION, R267: A decision record arrives from a decision ring and is clamped, tested and scheduled or discarded. -/
  | decision (ring : Nat) (bytes : Bytes) (ta : TW64)
  /-- VALVE_UPDATE, R275: A valve port's update comes due, its image is formed under the guard, shifted out and latched at U. -/
  | valveUpdate (valvePort : Nat) (returned : List Bool)
  /-- VP_ENABLE, R281: A change of VP_ENABLE starts the port's grid or drops its pulses and sends an all-off frame. -/
  | vpEnable (path : Nat) (valvePort : Nat) (data : Bytes)
  /-- TIME_CHANGE_APPLY, R289: The anchor tick of a pending time change is reached and the new offset and rate are installed. -/
  | timeChangeApply
  /-- TIME_CMD_INSTALL, R290: TIME_CMD 1 installs NEXT_RATE and NEXT_STEP at NEXT_ANCHOR. -/
  | timeCmdInstall (path : Nat)
  /-- TIME_CMD_SET, R290: TIME_CMD 2 sets the time at NEXT_ANCHOR to TIME_SET. -/
  | timeCmdSet (path : Nat)
  /-- ERA_INCREMENT, R287: TW64 wraps forward and the era increments. -/
  | eraIncrement
  /-- SYNC_PERIOD, R292: The SYNC_PERIOD expires and the node sends ANNOUNCE on its ports and SYNC to each child. -/
  | syncPeriod
  /-- ANNOUNCE, R294: An ANNOUNCE is received and the grandmaster and parent port are chosen again. -/
  | announce (port : Nat) (bytes : Bytes) (t : TW64)
  /-- ANNOUNCE_AGEOUT, R294: A grandmaster not announced for 3 SYNC_PERIOD is dropped from the candidates. -/
  | announceAgeout (eui : Nat)
  /-- SYNC, R292: A SYNC from the parent is received and stamped t2. -/
  | sync (port : Nat) (bytes : Bytes) (t2 : TW64)
  /-- FOLLOW_UP, R292: A FOLLOW_UP carrying t1 is received and the child sends DELAY_REQ. -/
  | followUp (port : Nat) (bytes : Bytes) (t3 : TW64)
  /-- DELAY_REQ, R292: A DELAY_REQ from a child is received, stamped t4 and answered with DELAY_RESP. -/
  | delayReq (port : Nat) (bytes : Bytes) (t4 : TW64)
  /-- DELAY_RESP, R293: A DELAY_RESP completes the exchange and the child runs its servo. -/
  | delayResp (port : Nat) (bytes : Bytes)
  /-- SYNC_EXCHANGE_TIMEOUT, R292: An exchange is incomplete 200 µs after t1 and is discarded as a sync miss. -/
  | syncExchangeTimeout (port : Nat)
  /-- PARENT_TIMEOUT, R294: The parent sends no complete exchange for 3 SYNC_PERIOD and the node chooses again or enters holdover. -/
  | parentTimeout
  /-- PPS_IN_EDGE, R296: An active PPS_IN edge is stamped, judged for validity and fed to the servo. -/
  | ppsInEdge (rising : Bool) (t : TW64)
  /-- PPS_IN_GAP, R296: No PPS_IN edge arrives within the tolerance and PPS_IN becomes invalid. -/
  | ppsInGap
  /-- PPS_OUT_RISE, R297: A whole second of TW64 plus PPS_OUT_OFFSET is reached and PPS_OUT rises. -/
  | ppsOutRise
  /-- PPS_OUT_FALL, R297: PPS_OUT_WIDTH has passed and PPS_OUT falls. -/
  | ppsOutFall
  /-- PTM_DIALOG, R298: PTM_PERIOD expires and a PTM dialog starts. -/
  | ptmDialog
  /-- PTM_DIALOG_DONE, R298: A PTM dialog ends, storing the time pair and running the servo or counting a failure. -/
  | ptmDialogDone (ok : Bool) (hostTime : Nat) (t : TW64)
  /-- SW_PUBLISH, R302: A write of SW_PUBLISH publishes a software event on a channel. -/
  | swPublish (path : Nat) (data : Bytes)
  /-- DIN_EDGE, R302: A discrete input level passes its filter and an edge event is published. -/
  | dinEdge (pin : Nat) (rising : Bool) (t : TW64)
  /-- RELAY_PUBLISH, R305: A relay task's TASK_DELAY expires and the event is republished on its target channel. -/
  | relayPublish (task : Nat)
  /-- TASK_PULSE_END, R305: A PULSE task's pulse reaches TASK_DELAY and the pin is released. -/
  | taskPulseEnd (task : Nat)
  /-- HOLDOFF_END, R309: A task's holdoff ends and it activates once with the latest deferred event. -/
  | holdoffEnd (task : Nat)
  /-- PIN_GEN_WINDOW_END, R311: PIN_GEN_WINDOW passes after a pulse and its generation mark closes. -/
  | pinGenWindowEnd (pin : Nat)
  /-- TASK_CONFIG_WRITE, R310: A write of a task's kind, parameter, enable or slot is stored and checked for a relay cycle. -/
  | taskConfigWrite (path : Nat) (task : Nat) (sub : Nat) (data : Bytes)
  /-- LINK_CHANGE, R314: The host link trains or changes rate, width or Max_Payload_Size and E is computed again. -/
  | linkChange (rate : Nat) (width : Nat) (flit : Bool) (mps : Nat) (errors : Nat)
  /-- DATA_LINK_DOWN, R334: The host data link goes down and the module acts as for an FLR. -/
  | dataLinkDown
  /-- BME_CLEAR, R328: Bus Master Enable goes to 0 and the module stops requests, discards writes and holds channels. -/
  | bmeClear
  /-- BME_SET, R329: Bus Master Enable is set and held channels resume, or the enable is queued behind a drain. -/
  | bmeSet
  /-- DRAIN_END, R328: No request remains and every outstanding read has ended, so the drain ends and a queued enable takes effect. -/
  | drainEnd
  /-- FUNCTION_LEVEL_RESET, R332: A Function Level Reset stops requests, quarantines tags and returns the function to reset values. -/
  | functionLevelReset
  /-- FLR_COMPLETE, R332: The FLR completes and queued configuration writes take effect. -/
  | flrComplete
  /-- D3HOT_ENTRY, R333: The function is placed in D3hot and the effects of a Bus Master Enable clear apply. -/
  | d3hotEntry
  /-- D0_RETURN, R333: The function returns to D0, keeping every register, or the return is queued behind a drain. -/
  | d0Return
  /-- MSIX_ENABLE_WRITE, R323: A change of MSI-X Enable or Function Mask sends or clears pending messages. -/
  | msixEnableWrite (enable : Bool) (functionMask : Bool)
  /-- MSIX_PENDING_SEND, R323: The masking conditions of a pending vector end and its message is sent. -/
  | msixPendingSend (vector : Nat)
  /-- INT_CAUSE, R320: A W1C write of INT_CAUSE clears the bits written as 1. -/
  | intCause (value : Nat)
  /-- TW64_LO, R320: A read of TW64_LO returns TW64 [31:0] and latches the upper half into TW64_HI. -/
  | tw64Lo
  /-- HEAD_LO, R325: A read of HEAD_LO returns the ring head and latches its upper half into HEAD_HI. -/
  | headLo (stream : Nat)
  /-- APERTURE_HI, R324: A write of APERTURE_HI installs the new look-back aperture base. -/
  | apertureHi (value : Nat)
  /-- APERTURE_READ, R324: A BAR2 read returns HBM bytes at the aperture base plus offset. -/
  | apertureRead (offset : Nat) (length : Nat)
  /-- APERTURE_WRITE, R324: A BAR2 write is discarded and counted. -/
  | apertureWrite (poisoned : Bool) (offset : Nat) (length : Nat)
  /-- BAR0_INVALID_ACCESS, R319: A BAR0 access of the wrong size or alignment is completed with Completer Abort or discarded.
  With `cfg` the access is one of the configuration space. A read of an allowed size and alignment returns what the register holds. -/
  | bar0InvalidAccess (cfg : Bool) (write : Bool) (offset : Nat) (length : Nat)
  /-- BAR0_REGISTER_WRITE, R17: A write of a BAR0 register that has no row of its own stores its value under its access code.
  With `cfg` the register is one of the configuration space. -/
  | bar0RegisterWrite (cfg : Bool) (poisoned : Bool) (offset : Nat) (data : Bytes)
  /-- COMPLETION, R330: A completion arrives and delivers a read's data, is thrown away, or is discarded as late. -/
  | completion (tag : Nat) (status : Nat) (data : Bytes)
  /-- COMPLETION_TIMEOUT, R330: A read receives no completion within the timeout and its tag is quarantined. -/
  | completionTimeout (tag : Nat)
  /-- TAG_QUARANTINE_END, R330: A tag's quarantine ends and it is freed for a waiting read. -/
  | tagQuarantineEnd (tag : Nat)
  /-- DOORBELL, R345: A write of DOORBELL sets the doorbell flag, starts an IDLE or PARKED channel, or sets SW_INDEX. -/
  | doorbell (channel : Nat) (value : Nat)
  /-- SW_INDEX, R346: A write of SW_INDEX releases or provides ring slots of a Class C channel. -/
  | swIndex (channel : Nat) (value : Nat)
  /-- CH_CMD_START, R341: CH_CMD 1 starts an IDLE channel as a DOORBELL write does. -/
  | chCmdStart (path : Nat) (channel : Nat)
  /-- CH_CMD_STOP, R341: CH_CMD 2 takes a running channel to DRAINING or a HELD channel to IDLE. -/
  | chCmdStop (path : Nat) (channel : Nat)
  /-- CH_CMD_RELEASE, R341: CH_CMD 3 takes a running channel to DRAINING or a HELD or PARKED channel to IDLE. -/
  | chCmdRelease (path : Nat) (channel : Nat)
  /-- RING_ENTRY_FETCH, R348: Entries become available on a from-host ring and the engine reads them in index order. -/
  | ringEntryFetch (channel : Nat)
  /-- UNIT_ISSUE, R347: A ready unit finds descriptor or ring room and limiter credit and its writes are issued. -/
  | unitIssue (channel : Nat)
  /-- SPACE_WAIT, R349: A waiting unit reaches SPACE_WAIT at the head of its channel queue and is dropped. -/
  | spaceWait (channel : Nat)
  /-- VENEER_POST, R350: Every pre-veneer unit of a stripe has been issued or dropped and the veneer is written; `stall` is the longest
  time in ns for which the host has withheld posted-write credits since the close (R124 cause 1). -/
  | veneerPost (stream : Nat) (t : TW64) (stall : Nat)
  /-- TRAILER_VENEER, R354: The last late record or tile of a stripe is written or dropped and a trailer veneer is written. -/
  | trailerVeneer (stream : Nat) (t : TW64)
  /-- PROBE_COMPLETE, R360: A probe read completes and its channel is parked on failure or the next probe issued. -/
  | probeComplete (status : Nat) (data : Bytes)
  /-- PROBE_TIMEOUT, R360: A probe gets no completion within PROBE_TIMEOUT and its channel is parked. -/
  | probeTimeout
  /-- DRAIN_TIMEOUT, R363: DRAIN_TIMEOUT passes at a power-down and remaining staged units are aborted. -/
  | drainTimeout
  /-- HELLO_SEND, R371: HELLO_PERIOD expires and each fabric port from ALIGNED onward sends a HELLO. -/
  | helloSend (port : Nat)
  /-- HELLO, R371: A HELLO is received and the port's link state and election inputs are updated. -/
  | hello (port : Nat) (bytes : Bytes) (t : TW64)
  /-- HELLO_TIMEOUT, R371: No valid HELLO arrives for 3 HELLO_PERIOD and the port returns to ALIGNED. -/
  | helloTimeout (port : Nat)
  /-- HELLO_FAULT_TIMEOUT, R371: No valid HELLO arrives within 100 ms of ALIGNED and the port goes to FAULTED with reason 1. -/
  | helloFaultTimeout (port : Nat)
  /-- CREDIT, R377: A CREDIT frame is received and the freed counts update the sender's credits. -/
  | credit (port : Nat) (bytes : Bytes)
  /-- CREDIT_SEND, R377: Units are freed or 10 µs passes and a CREDIT frame is sent. -/
  | creditSend (port : Nat)
  /-- CREDIT_STARVED, R377: Frames of a class wait 1 ms for credits and are discarded. -/
  | creditStarved (port : Nat) (tc : Nat)
  /-- CREDIT_STARVE_FAULT, R377: The credit wait lasts 3 ms and the port faults with reason 4. -/
  | creditStarveFault (port : Nat) (tc : Nat)
  /-- FABRIC_FRAME_SEND, R376: A waiting frame obtains credits and priority and is sent on a fabric port. -/
  | fabricFrameSend (port : Nat)
  /-- FABRIC_FRAME, R387: A received fabric frame passes the checks and is consumed or forwarded along its route. -/
  | fabricFrame (port : Nat) (bytes : Bytes) (damaged : Bool) (t : TW64)
  /-- LINK_REPORT, R372: A LINK_REPORT is received and forwarded toward the root or added to the root's view. -/
  | linkReport (port : Nat) (bytes : Bytes)
  /-- MAP_WALK, R372: The root's view is unchanged for FAB_SETTLE and the root builds and sends the map. -/
  | mapWalk
  /-- MAP, R372: A MAP frame is received, forwarded and, when the epoch is complete, installed. -/
  | map (port : Nat) (bytes : Bytes)
  /-- EVENT, R384: An EVENT frame is received and published as an imported event or refused. -/
  | event (port : Nat) (bytes : Bytes) (t : TW64)
  /-- LINE, R382: A LINE frame of a remote stream is received and written to the retention ring. -/
  | line (port : Nat) (bytes : Bytes) (tLast : TW64)
  /-- SET_NOTICE, R383: A SET_NOTICE is received and a set slot is created or bound as for a local port. -/
  | setNotice (port : Nat) (bytes : Bytes)
  /-- RESERVE, R380: A RESERVE reaches the source node, which checks its port and lanes and installs a tentative entry. -/
  | reserve (port : Nat) (bytes : Bytes)
  /-- RESERVE_HOP, R380: A RESERVE_HOP reaches a node on the route, which holds or refuses the TC2 reservation. -/
  | reserveHop (port : Nat) (bytes : Bytes)
  /-- RESERVE_ANSWER, R380: A RESERVE_ANSWER reaches the processing node and feeds the verdict. -/
  | reserveAnswer (port : Nat) (bytes : Bytes)
  /-- RESERVE_ANSWER_TIMEOUT, R380: No RESERVE_ANSWER arrives within 1 ms and the route check fails with reason 0x12. -/
  | reserveAnswerTimeout (stream : Nat)
  /-- RELEASE_FRAME, R380: A RELEASE frame commits or frees tentative holds along a route. -/
  | releaseFrame (port : Nat) (bytes : Bytes)
  /-- HOLD_EXPIRY, R380: A tentative hold reaches 10 ms and expires. -/
  | holdExpiry (port : Nat) (flow : Nat) (node : Nat)
  /-- DICT_REQUEST, R441: A DICT_REQUEST is received and served, or answered from the stored responses. -/
  | dictRequest (port : Nat) (bytes : Bytes)
  /-- DICT_RESPONSE, R441: A DICT_RESPONSE is received and fills the requester's mailbox. -/
  | dictResponse (port : Nat) (bytes : Bytes)
  /-- DICT_REQUEST_TIMEOUT, R441: No DICT_RESPONSE arrives within 10 ms and the request is resent or ends with result 4. -/
  | dictRequestTimeout
  /-- BULK_OPEN, R482: A BULK_OPEN starts a firmware load or an Almanac export. -/
  | bulkOpen (port : Nat) (bytes : Bytes)
  /-- BULK_DATA, R482: A BULK_DATA fragment is stored and acknowledged. -/
  | bulkData (port : Nat) (bytes : Bytes)
  /-- BULK_ACK, R482: A BULK_ACK advances the sender's acknowledged offset. -/
  | bulkAck (port : Nat) (bytes : Bytes)
  /-- BULK_CLOSE, R482: A BULK_CLOSE ends a transfer and checks its CRC. -/
  | bulkClose (port : Nat) (bytes : Bytes)
  /-- BULK_ACK_TIMEOUT, R482: No BULK_ACK arrives within 2 ms and the sender resends or abandons the transfer. -/
  | bulkAckTimeout
  /-- PAIR_STATE_SEND, R401: 10 µs pass and each module sends PAIR_STATE. -/
  | pairStateSend (present : Bool) (ownRead : Bool)
  /-- PAIR_STATE, R402: A PAIR_STATE frame is received and the partner's role and interlock state are updated. -/
  | pairState (bytes : Bytes) (t : TW64)
  /-- COMMIT_MARK_SEND, R405: 10 µs pass and the active module sends a commit mark. -/
  | commitMarkSend
  /-- COMMIT_MARK, R405: A commit mark is received, freeing covered units and comparing valve hashes. -/
  | commitMark (bytes : Bytes)
  /-- DELIVERY_LOG, R404: A delivery log entry is received and the standby tracks the named unit. -/
  | deliveryLog (bytes : Bytes)
  /-- STRIPE_DIGEST, R408: A stripe digest is received and compared with the own digest, starting a replay on a divergence. -/
  | stripeDigest (bytes : Bytes)
  /-- DIGEST_WAIT_TIMEOUT, R407: The partner digest has not arrived 2 ms after the own digest and the stripe is not compared. -/
  | digestWaitTimeout (stream : Nat) (frame : Nat) (line : Nat)
  /-- DECISION_FRAME, R279: The standby receives a DECISION frame and schedules the decisions the active accepted. -/
  | decisionFrame (bytes : Bytes)
  /-- POS_STAMP, R248: A POS_STAMP frame is received and the standby stamps its lines with the active's POS. -/
  | posStamp (bytes : Bytes)
  /-- POS_STAMP_TIMEOUT, R406: A line's POS has not arrived 50 µs after the line and the standby uses its own channel. -/
  | posStampTimeout (stream : Nat) (frame : Nat) (line : Nat)
  /-- HOST_WRITE, R406: A HOST_WRITE frame is received and the standby applies the host's DOORBELL or SW_INDEX value. -/
  | hostWrite (bytes : Bytes)
  /-- REPLAY, R411: A REPLAY frame with the partner's digests and events arrives and the verdict is reached. -/
  | replay (bytes : Bytes)
  /-- REPLAY_DONE, R410: A module's replay of a divergent stripe completes and its replay and input digests are sent. -/
  | replayDone (planer : Nat)
  /-- CONFIG, R403: A CONFIG frame is received and a pair-wide write is ordered or applied. -/
  | config (bytes : Bytes)
  /-- SYNC_DATA, R418: A SYNC_DATA frame is received in SYNCING and its state is installed. -/
  | syncData (bytes : Bytes)
  /-- PAIR_ACK, R401: A PAIR_ACK is received and acknowledged frames are freed. -/
  | pairAck (bytes : Bytes)
  /-- PAIR_RESEND, R401: A TC2 pair frame is unacknowledged after 20 µs and is resent. -/
  | pairResend
  /-- UNIT_EXPIRY, R406: A standby unit not named by the delivery log for 50 ms is discarded. -/
  | unitExpiry
  /-- PARTNER_OWN_FALL, R400: The partner's OWN falls at the contacts, which is detection, and the OWN_GUARD starts. -/
  | partnerOwnFall (t : TW64)
  /-- OWN_GUARD_EXPIRY, R400: The partner's OWN has been deasserted for OWN_GUARD and the module asserts OWN when it may. -/
  | ownGuardExpiry (t : TW64)
  /-- PARTNER_OWN_RISE, R397: The partner's OWN reads asserted while the module drives its own, and the slot-B module releases. -/
  | partnerOwnRise
  /-- OWN_RETRY, R397: 1 ms passes after a slot-B release and it may assert OWN again. -/
  | ownRetry
  /-- KEEPALIVE_EXPIRY, R396: The keepalive timer expires and OWN drops, releasing with reason 1. -/
  | keepaliveExpiry
  /-- OWN_DROP_FAULT, R396: A lockstep mismatch, uncorrectable memory error or supply fault drops OWN within 1 µs. -/
  | ownDropFault (cause : Nat)
  /-- HOST_GRACE_EXPIRY, R399: The host data link has been down for HOST_GRACE and the active releases with reason 4. -/
  | hostGraceExpiry
  /-- UPLINK_GRACE_EXPIRY, R399: A feeding or position shortfall has lasted UPLINK_GRACE and the active releases with reason 5 or 6. -/
  | uplinkGraceExpiry (position : Bool)
  /-- PAIR_CMD_SWITCH, R399: PAIR_CMD 1 makes the active release with reason 9 to a standby partner. -/
  | pairCmdSwitch (path : Nat)
  /-- PAIR_CMD_CLEAR_BAR, R419: PAIR_CMD 2 takes a module out of BARRED. -/
  | pairCmdClearBar (path : Nat)
  /-- PAIR_CMD_FORCE_ALONE, R417: PAIR_CMD 3 takes a WAITING module out of WAITING and sets FRESH once. -/
  | pairCmdForceAlone (path : Nat)
  /-- XLINK_TIMEOUT, R416: No pair frame arrives for XLINK_TIMEOUT and the cross-link is lost. -/
  | xlinkTimeout
  /-- SYNCING_TIMEOUT, R418: SYNCING has not ended within 60 s and restarts, leading to BARRED after three. -/
  | syncingTimeout
  /-- DICT_WRITE, R427: A dictionary write to an entry with no row of its own is checked, clamped and put in force. -/
  | dictWrite (path : Nat) (index : Nat) (sub : Nat) (data : Bytes)
  /-- MB_GO_READ, R439: MB_GO with operation 1 reads an entry into MB_DATA. -/
  | mbGoRead (tag : Nat)
  /-- MB_GO_WRITE, R440: MB_GO with operation 2 writes an entry or accumulates DOMAIN bytes. -/
  | mbGoWrite (tag : Nat)
  /-- MB_GO_NONE, R439: MB_GO with operation 0 or 3 ends the transaction at once with result 0. -/
  | mbGoNone (tag : Nat)
  /-- RESTORE_DEFAULTS, R433: A write of the key to RESTORE_DEFAULTS marks the store for defaults at the next start-up. -/
  | restoreDefaults (path : Nat) (data : Bytes)
  /-- STORE_WRITE, R431: The 100 ms window ends and persistent values are written to the configuration store. -/
  | storeWrite
  /-- USDO_DOWNLOAD, R443: A USDO download request writes an entry, expedited or segmented. -/
  | usdoDownload (index : Nat) (sub : Nat) (data : Bytes) (size : Nat) (expedited unsupported : Bool)
  /-- USDO_UPLOAD, R443: A USDO upload request reads an entry. -/
  | usdoUpload (index : Nat) (sub : Nat) (unsupported : Bool)
  /-- USDO_SEGMENT, R443: A USDO segment is received and, when last, applies a segmented download. -/
  | usdoSegment (data : Bytes) (last : Bool)
  /-- USDO_TIMEOUT, R443: A segmented transfer waits more than 1 s and is aborted. -/
  | usdoTimeout
  /-- NMT_START, R443: The NMT start command changes the heartbeat state to operational. -/
  | nmtStart (node : Nat)
  /-- NMT_STOP, R443: The NMT stop command changes the heartbeat state to stopped. -/
  | nmtStop (node : Nat)
  /-- NMT_ENTER_PREOPERATIONAL, R443: The NMT enter pre-operational command changes the heartbeat state. -/
  | nmtEnterPreoperational (node : Nat)
  /-- NMT_RESET_COMMUNICATION, R443: The NMT reset communication command reinitialises the CAN FD path. -/
  | nmtResetCommunication (node : Nat)
  /-- NMT_RESET_NODE, R443: The NMT reset node command reinitialises the CAN FD path alone. -/
  | nmtResetNode (node : Nat)
  /-- HEARTBEAT, R443: HEARTBEAT_TIME expires and a heartbeat is sent. -/
  | heartbeat
  /-- EMERGENCY, R443: An error cause changes and an emergency message is sent once EMCY_INHIBIT allows. -/
  | emergency
  /-- CAN_BUS_OFF, R442: The CAN FD node goes bus-off and recovers automatically. -/
  | canBusOff
  /-- CAN_ENABLE, R445: A write of CAN_ENABLE reinitialises the CAN FD path with its entries. -/
  | canEnable (path : Nat) (data : Bytes)
  /-- TWI_ADDRESS, R451: The target matches its address, acknowledges and, for a read, snapshots the health summary. -/
  | twiAddress (address : Nat) (read : Bool)
  /-- TWI_WRITE_BYTE, R449: A counted written byte sets the pointer or is stored at the pointer. -/
  | twiWriteByte (value : Nat)
  /-- TWI_READ_BYTE, R449: A counted read byte is sent from the pointer, which advances. -/
  | twiReadByte (acked : Bool)
  /-- TWI_START_ABORT, R450: A START or STOP before a byte's ninth clock discards the byte. -/
  | twiStartAbort (ackSlot : Bool)
  /-- TWI_LINE_TIMEOUT, R453: SCL or SDA stays low for 25 ms and the target resets. -/
  | twiLineTimeout (sda : Bool)
  /-- TWI_WAKE, R452: An address match in DORMANT wakes the Bench and stretches SCL. -/
  | twiWake
  /-- TWI_WAKE_DONE, R452: The Bench clocks run and the target releases SCL. -/
  | twiWakeDone (stretchNs : Nat)
  /-- TWI_WAKE_TIMEOUT, R452: The Bench clocks are not running 400 µs after the match and the target releases SCL and refuses the transfer. -/
  | twiWakeTimeout
  /-- TWI_FLAG_CLEAR, R462: A write of TWI_FLAG_CLEAR clears the TWI_FLAGS bits written as 1. -/
  | twiFlagClear (path : Nat) (data : Bytes)
  /-- GW_GO_READ, R457: GW_GO with operation 1 reads an entry into GW_DATA. -/
  | gwGoRead (tag : Nat)
  /-- GW_GO_WRITE, R457: GW_GO with operation 2 writes an entry or accumulates DOMAIN bytes. -/
  | gwGoWrite (tag : Nat)
  /-- GW_GO_NONE, R456: GW_GO with operation 0 or 3 ends the request at once with result 0. -/
  | gwGoNone (tag : Nat)
  /-- TWC_POLL, R458: TWC_POLL expires and a sensor is read. -/
  | twcPoll (sensor : Nat)
  /-- TWC_TRANSFER_DONE, R458: A controller transfer completes and its data is stored. -/
  | twcTransferDone (data : Bytes)
  /-- TWC_BUS_CHECK, R459: The controller checks the bus before a START, recovering SDA or counting a stuck bus. -/
  | twcBusCheck (sclLow : Bool) (sdaLow : Bool) (lows : Nat)
  /-- TWC_ARB_LOSS, R460: The controller loses arbitration, releases the lines and waits for a free bus. -/
  | twcArbLoss (address : Bool)
  /-- TWC_BUS_FREE, R460: The bus becomes free after an arbitration loss and the transfer is repeated. -/
  | twcBusFree
  /-- TWC_NACK, R461: A target does not acknowledge and the controller sends STOP and schedules a retry. -/
  | twcNack
  /-- TWC_RETRY, R461: The 1 ms retry delay ends and the transfer is retried or fails. -/
  | twcRetry
  /-- POWER_ON, R472: The supply reaches 44 V and the Bench starts up and boots the active bank. -/
  | powerOn (slot : Nat)
  /-- SENSE_LOOP_CLOSED, R472: The sense loop has stayed closed for 100 ms with the supply in range and the module enters ATTACHED. -/
  | senseLoopClosed
  /-- SENSE_LOOP_BREAK, R473: The sense loop breaks as a removal warning and the module drains and releases ownership. -/
  | senseLoopBreak
  /-- SENSE_LOOP_RESTORE, R473: The sense loop closes within 10 ms, the removal is abandoned and a warm restart follows. -/
  | senseLoopRestore
  /-- WAKE_N, R471: WAKE_N is held low for 10 µs and a DORMANT module wakes. -/
  | wakeN
  /-- MODULE_CMD_WAKE, R471: MODULE_CMD 1 wakes a DORMANT module. -/
  | moduleCmdWake (path : Nat)
  /-- MODULE_CMD_DORMANT, R468: MODULE_CMD 2 drains a non-active module to DORMANT. -/
  | moduleCmdDormant (path : Nat)
  /-- MODULE_CMD_WARM_RESTART, R475: MODULE_CMD 3 makes a warm restart. -/
  | moduleCmdWarmRestart (path : Nat)
  /-- BOOT_POLICY, R471: A write of BOOT_POLICY 0 through the gateway wakes a DORMANT module. -/
  | bootPolicy (path : Nat) (data : Bytes)
  /-- WAKING_COMPLETE, R470: WAKING completes and the module enters READY or the role decided under the pair rules. -/
  | wakingComplete (failed : Nat) (present : Bool)
  /-- DRAIN_COMPLETE, R469: The drain toward DORMANT completes and the domains power down. -/
  | drainComplete
  /-- BENCH_IDLE_STOP, R471: 1 s after the last gateway request the Bench cores stop again. -/
  | benchIdleStop
  /-- SUPPLY_OUT_OF_RANGE, R496: The supply leaves its operating range for 10 µs and OWN drops with an emergency. -/
  | supplyOutOfRange
  /-- SUPPLY_IN_RANGE, R496: The supply is back in range for 10 ms. -/
  | supplyInRange
  /-- SUPPLY_LOSS, R468: The supply falls below 40 V for 1 ms and the module goes OFF. -/
  | supplyLoss
  /-- JUNCTION_OVERTEMP, R468: A junction stays above the absolute limit for 10 ms and the module goes OFF. -/
  | junctionOvertemp
  /-- HEARTBEAT_MISS, R474: An island sends no heartbeat for 20 µs and enters recovery. -/
  | heartbeatMiss (island : Nat)
  /-- ISLAND_FAULT, R474: An island's PLL loses lock or its storage has an uncorrectable error and it enters recovery. -/
  | islandFault (island : Nat) (storage : Bool)
  /-- ISLAND_RECOVERED, R475: An island's recovery completes, or the island is failed after three recoveries in 1 h. -/
  | islandRecovered (island : Nat)
  /-- BENCH_WATCHDOG, R476: The Bench watchdog expires and the Bench cores restart from the active bank. -/
  | benchWatchdog
  /-- FW_SIZE, R480: A write of FW_SIZE erases the inactive bank and starts loading. -/
  | fwSize (path : Nat) (data : Bytes)
  /-- FW_DATA, R480: A write of FW_DATA stores bytes at FW_OFFSET. -/
  | fwData (path : Nat) (data : Bytes)
  /-- FW_CMD_VERIFY, R480: FW_CMD 1 verifies the loaded image. -/
  | fwCmdVerify (path : Nat)
  /-- FW_CMD_ACTIVATE, R480: FW_CMD 2 activates a valid image for trial at the next start. -/
  | fwCmdActivate (path : Nat)
  /-- FW_CMD_RESTART, R480: FW_CMD 3 makes a Bench restart followed by a warm restart. -/
  | fwCmdRestart (path : Nat)
  /-- FW_CMD_ABANDON, R480: FW_CMD 4 ends a load, cancels an activation and returns FW_STATE to idle. -/
  | fwCmdAbandon (path : Nat)
  /-- TRIAL_DEADLINE, R481: A trial bank has not reached READY, STANDBY or ACTIVE within 120 s and the Bench returns to the previous bank. -/
  | trialDeadline
  /-- TRIAL_END, R481: A trial bank runs 600 s cleanly, stays active and raises SEC_MIN. -/
  | trialEnd
  /-- FUSE_CMD, R483: A write of FUSE_CMD arms or completes the two-write sequence that blows the closing fuse. -/
  | fuseCmd (path : Nat) (data : Bytes)
  /-- FUSE_BLOWN, R483: The closing fuse is blown within 10 ms of the second write and FUSE_STATE reads 1. -/
  | fuseBlown
  /-- CAL_CMD, R485: CAL_CMD 1 commits the staged calendar and increments ALMANAC_GEN. -/
  | calCmd (path : Nat) (data : Bytes)
  /-- ALMANAC_SAMPLE, R484: Each second the Almanac samples junction temperatures into its histograms. -/
  | almanacSample (temps : List Nat)
  /-- ALMANAC_HOUR, R486: Each hour the Almanac records powered hours and forecasts remaining life and advice. -/
  | almanacHour
  /-- JUNCTION_OPERATING_LIMIT, R443: The hottest junction rises above, or falls back below, its operating limit, stopping or resuming the keepalive re-arm, setting or clearing ERROR_REGISTER [3] and raising emergency code 0x4200 or 0x0000. -/
  | junctionOperatingLimit (above : Bool)
  /-- HBM_CORRECTED_ERROR, R484: An HBM stack corrects an error, which is counted per stack and channel and recorded in the Almanac at each count of 100. -/
  | hbmCorrectedError (stack : Nat) (channel : Nat)
  /-- CAN_BUS_OFF_RECOVERY, R442: The automatic bus-off recovery sequence of the CAN FD node completes and CAN_STATE returns to error active. -/
  | canBusOffRecovery
  /-- CAN_ERROR_PASSIVE, R442: Bus errors or successful frames move the CAN FD node's error counters across the error-passive threshold and CAN_STATE changes between error active and error passive. -/
  | canErrorPassive (passive : Bool)
  /-- TWC_SDA_LOW_TIMEOUT, R459: SDA stays low for 25 ms within a transfer on the local bus and the controller applies the nine-clock recovery. -/
  | twcSdaLowTimeout (lows : Nat)
  /-- HEALTH_SUMMARY_REFRESH, R455: The Bench refreshes the two-wire health summary, at least every 10 ms. -/
  | healthSummaryRefresh
  deriving DecidableEq, Repr

end Sys2Proof
end

