-- ==== Sys2Proof/Decode.lean ====
section
/-! DEFINITION. The words that spell commands. The spec's table gives no row any bits: a command reaches the module as an event
at its contacts or as a host access, and has no encoding (notes/assumptions/15.md). -/

namespace Sys2Proof

/-- The command that a word of the opcode table's bits spells: none, since no row has bits. -/
def decodeTableWord (_nbits _w : Nat) : Option Instr := none

end Sys2Proof
end

