-- ==== Sys2Proof/Config.lean ====
section
/-! DEFINITION. What one module's manufacture fixes and what the spec leaves open: constants without a
body, so that no proof can see a value of them (notes/assumptions/2.md, 3.md). -/

namespace Sys2Proof

/-- The n-th value that the spec leaves undefined. The state counts how many have been taken. -/
opaque Config.freeValue : Nat → BitVec 64

/-- SERIAL, unique to each module (R445). -/
opaque Config.serialBits : BitVec 32

/-- KIT_SERIAL, 0 outside a kit (R445). -/
opaque Config.kitBits : BitVec 64

/-- The x and y of the Bench release B3.x.y in both banks at shipment (R2, R445). -/
opaque Config.releaseBits : BitVec 16

/-- SEC_MIN at shipment (R479). -/
opaque Config.securityBits : BitVec 32

/-- Bexdulek's ECDSA P-384 verification key, the coordinates x and y, fixed in the boot ROM (R479). -/
opaque Config.signerX : BitVec 384
/-- See `Config.signerX`. -/
opaque Config.signerY : BitVec 384

/-- The module's serial number as a number. -/
def Config.serial : Nat := Config.serialBits.toNat
/-- The kit serial as a number. -/
def Config.kitSerial : Nat := Config.kitBits.toNat
/-- MODULE_EUI: OUI 0x48_B29C, then 0x96, then SERIAL (R445). -/
def Config.eui : Nat := 0x48B29C96 * 2 ^ 32 + Config.serial
/-- [15:8] x and [7:0] y of the release at shipment. -/
def Config.releaseXY : Nat := Config.releaseBits.toNat
/-- SEC_MIN at shipment. -/
def Config.factorySecurity : Nat := Config.securityBits.toNat

end Sys2Proof
end

