-- ==== Sys2Proof/Machine/State.lean ====
section
/-! DEFINITION. The state of one XM96 module as plain data, its reasons to stop, and State.reset.
Every dictionary entry of the spec (R423) has its one home in `Mach.dict`; BAR0 registers, the HBM,
and everything the spec says the module holds besides stand in the typed records below. -/

namespace Sys2Proof.Machine

/-- Why a command stops the model with a fault. -/
inductive Fault where
  /-- Raised by any meaning whose command names a resource that R13 does not give the module
  (a lane above 95, a stream above 255, ...). No such command exists on the hardware. Safe. -/
  | noSuchResource
  deriving DecidableEq, Repr

/-- Why a command has no meaning. -/
inductive Refusal where
  /-- Raised by an arm of `exec` whose meaning is not written yet. Safe. -/
  | notModelled (mnemonic : String)
  deriving DecidableEq, Repr

/-- The value of a dictionary entry: a number at its type's width, or the bytes of a DOMAIN or STRING (R424). -/
inductive Val where
  | num (n : Nat)
  | bytes (b : Bytes)
  deriving DecidableEq, Repr

/-- HBM contents: address and byte, addresses rising, no byte equal to what an unlisted address reads. -/
abbrev Memory := List Host.Cell

/-- What has left the module's contacts, or was answered to the host. The model's own record of outputs. -/
inductive Out where
  /-- The levels of one codeword sent by a lane, 0 to 3 for −3, −1, +1 and +3 (R27, R39), or the symbols that the far-end loop
  returns (R60). -/
  | lane (lane : Nat) (levels : List Nat)
  /-- A Tasin packet sent downstream on a camera port (R63). -/
  | down (port : Nat) (pkt : Bytes)
  /-- A Pyrik frame sent on a fabric port (R367). -/
  | fab (port : Nat) (frame : Bytes)
  /-- A posted memory write to the host. -/
  | hostWrite (addr : Nat) (data : Bytes)
  /-- A memory read request: tag, address, length (R331). -/
  | hostRead (tag addr len : Nat)
  /-- An MSI-X message (R323). -/
  | msix (vector addr data : Nat)
  /-- Completion of a host read of BAR0 or BAR2. -/
  | readDone (data : Bytes)
  /-- A completion without data: 1 Unsupported Request, 2 Completer Abort, 3 Configuration Request Retry Status (R472). -/
  | readErr (status : Nat)
  /-- An error signalled through AER: 1 Completion Timeout, 2 Unexpected Completion, 3 Poisoned TLP, 4 Completer Abort, 5 Unsupported Request (R335). -/
  | aer (code : Nat)
  /-- A discrete pin driven to a level at an instant. -/
  | pin (dio : Nat) (level : Bool) (t : TW64)
  /-- A complete valve-port frame latched at U: its bits in order (R275). -/
  | valve (port : Nat) (bits : List Bool) (u : TW64)
  /-- PPS_OUT driven (R297). -/
  | ppsOut (level : Bool) (t : TW64)
  /-- An SSI poll clocked on a channel (R244). -/
  | ssiClock (n : Nat)
  /-- A frame on CAN FD: COB-ID and data (R443). -/
  | can (cob : Nat) (data : Bytes)
  /-- The two-wire target acknowledged (true) or did not acknowledge a byte. -/
  | twiAck (ok : Bool)
  /-- The two-wire target sent a byte. -/
  | twiByte (b : Byte)
  /-- The target holds (true) or releases (false) SCL. -/
  | twiHold (held : Bool)
  /-- The controller sent: 1 START, with the target address; 2 STOP; 3 recovery clocks, with their number (R459). -/
  | twc (what addr : Nat)
  /-- The controller wrote these bytes in a transfer; a repeated START and the read follow (R54, R458). -/
  | twcWrite (bytes : Bytes)
  /-- A PTM dialog was started (R298). -/
  | ptm
  /-- The DVT_OWN line of the module driven (R394). -/
  | own (level : Bool)
  /-- The module's presence contact grounded or let go: 0 DVT_PRES_A, 1 DVT_PRES_B (R492). -/
  | presence (contact : Nat) (grounded : Bool)
  deriving DecidableEq, Repr

/-! ### Lanes, reference and quads -/

/-- A block to be sent: control or data, and its 32 bytes (R31, R34). -/
structure TxBlock where
  control : Bool
  payload : Bytes
  deriving DecidableEq, Repr

/-- The transmitter of a port: blocks that wait, its lanes' block count modulo 81,920, and markers sent modulo 256 (R37, R41). -/
structure PortTx where
  blocks : List TxBlock := []
  count : Nat := 0
  markers : Nat := 0
  deriving DecidableEq, Repr

/-- The transmitter of a lane: the scrambler's last 58 bits, latest in bit 0 (R33); the index sent last (R28); and, in a near-end
loop, the codewords sent and not yet taken by the lane's own receiver (R60). -/
structure LaneTx where
  scr : BitVec 58 := BitVec.allOnes 58
  prev : Nat := 0
  own : List (List Nat) := []
  deriving DecidableEq, Repr

/-- A received block: its index within its codeword (R32), header, descrambled payload, and whether its codeword was uncorrectable
(R40). -/
structure RxBlock where
  k : Nat := 0
  h : Bool
  payload : Bytes
  damaged : Bool
  deriving DecidableEq, Repr

/-- The module's side of one lane beside its entries at 0x2100+L. -/
structure Lane where
  /-- The receiver has signal (R44). -/
  signal : Bool := false
  /-- The receiver's bit offset among 514 (R46, R53). -/
  offset : Nat := 0
  /-- A search pass runs (R47). -/
  passRun : Bool := false
  /-- The 10 ms wait between passes runs (R47). -/
  passWait : Bool := false
  /-- Slips issued in the pass: `slips` of R47. -/
  passSlips : Nat := 0
  /-- Consecutive valid block pairs seen, at most 64 (R45). -/
  pairs : Nat := 0
  /-- Validity of the first block of an unfinished pair (R45). -/
  half : Option Bool := none
  /-- In a near-end loop without the decoder: bits received and not yet cut into blocks, and how many of them lie before the pair that
  the receiver's bit offset begins (R45, R46, R60). -/
  bits : List Bool := []
  skip : Nat := 0
  /-- Receive descrambler: the last 58 received payload bits, latest in bit 0 (R33). -/
  rxScr : BitVec 58 := 0
  /-- The level index received last (R28). -/
  rxPrev : Nat := 0
  /-- The decoder runs: codeword boundaries are known (R49). -/
  decoding : Bool := false
  /-- Blocks that still come undecoded after the decoder started: the rest of the codeword in progress (R49). -/
  raw : Nat := 0
  /-- Blocks received since the last place of a marker; none before the first (R37). -/
  since : Option Nat := none
  /-- Good markers received in a row at the right spacing, at most 2 (R49). -/
  marks : Nat := 0
  /-- CW_PHASE of the last good marker. -/
  markPhase : Nat := 0
  /-- Bad or missing markers in a row (R50). -/
  badMarks : Nat := 0
  /-- Identity mismatch of the last good marker: 0, or hold reason 4, 5 or 6 (R52). -/
  idHold : Nat := 0
  /-- AM_SEQ of the marker from which the lane is deskewed (R42), none before it; and the deskew buffer: port blocks received since
  that marker. -/
  amSeq : Option Nat := none
  buf : List RxBlock := []
  /-- Codewords in a row that could not be corrected (R50). -/
  badCw : Nat := 0
  /-- Blocks passed on by the decoder and not yet taken by the block layer (R40). -/
  rxBlocks : List RxBlock := []
  /-- An eye measurement runs (R58). -/
  measuring : Bool := false
  /-- Number of the next eye measurement, MEAS_NO (R58). -/
  eyeNo : Nat := 0
  /-- Symbols in the far-end loop's phase FIFO of 32, oldest first (R61). -/
  fifo : List Nat := []
  deriving DecidableEq, Repr

/-- One lane quad's PLL (R22, R44): locked, so that its transmitters send idle blocks and markers. -/
structure Quad where
  pllLocked : Bool := false
  deriving DecidableEq, Repr

/-! ### Camera ports -/

/-- A packet assembled from blocks: its bytes, and whether header or payload lay in a damaged block. -/
structure RxPacket where
  bytes : Bytes
  hdrDamaged : Bool
  payDamaged : Bool
  deriving DecidableEq, Repr

/-- A camera register transaction (R81, R85, R86; VC_ENABLE writes of R111). -/
structure RegTxn where
  /-- 1 read, 2 write, 3 settings write, 4 VC_ENABLE write of the Bench. -/
  kind : Nat
  tid : Nat := 0
  addr : Nat
  count : Nat
  data : Bytes
  tag : Nat := 0
  /-- Resends made (R81). -/
  resends : Nat := 0
  /-- 0 waiting for a set slot, 1 waiting for the bucket, 2 sent or in the send queue. -/
  phase : Nat := 1
  /-- The stream whose VC a Bench write enables, for kind 4. -/
  stream : Nat := 0
  /-- Lines not yet received at first sending, per stream of the port: stream, FRAME, LINE (R152). -/
  first : List (Nat × Nat × Nat) := []
  deriving DecidableEq, Repr

/-- A downstream packet waiting for the link, by the priority of R93 (1 first). -/
structure DownPkt where
  pri : Nat
  dt : Nat
  retry : Bool := false
  tag : Nat := 0
  payload : Bytes
  deriving DecidableEq, Repr

/-- The beacon awaiting its ACK (R95). -/
structure Beacon where
  bid : Nat
  t1 : TW64
  sent : Bool := false
  delayValid : Bool
  delay : Nat
  deriving DecidableEq, Repr

/-- A trigger awaiting its ACK (R92), with the sequencer that made it (R260). -/
structure TrigPend where
  tid : Nat
  mg : Nat
  payload : Bytes
  immediate : Bool
  resends : Nat := 0
  sent : Bool := false
  deriving DecidableEq, Repr

/-- The module's side of one port beside its entries at 0x2200+p and 0x2800+p. -/
structure Port where
  /-- The lanes are deskewed (R42), and the lane index of the port block that comes next (R41). -/
  deskewed : Bool := false
  turn : Nat := 0
  /-- Bytes of the packet open in the block stream (R35). -/
  openPkt : Option Bytes := none
  /-- A block of the open packet's header, or of its payload, was damaged (R40). -/
  openHdrDmg : Bool := false
  openPayDmg : Bool := false
  /-- Packets assembled and not yet handled. -/
  rx : List RxPacket := []
  /-- An IDENTITY or other valid packet of the far end has been received since LINKED (R74). -/
  heard : Bool := false
  /-- An IDENTITY has been accepted since LINKED (R74, R78). -/
  ident : Bool := false
  reg : Option RegTxn := none
  regQ : List RegTxn := []
  /-- Register bucket of R84: 1/1,000 byte held at `regT` ns. -/
  regFill : Nat := 1000000
  regT : Nat := 0
  /-- Control bucket of R105, in the same units. -/
  ctlFill : Nat := 2000000
  ctlT : Nat := 0
  nextTid : Nat := 0
  nextTrig : Nat := 0
  nextBid : Nat := 0
  beacon : Option Beacon := none
  /-- Fresh beacons already sent in this period after a miss (R95). -/
  beaconTries : Nat := 0
  /-- LINK_DELAY holds a measurement (R94). -/
  delayValid : Bool := false
  trigs : List TrigPend := []
  tx : List DownPkt := []
  /-- VC_ENABLE bits the camera has acknowledged (R79, R111). -/
  vcEnable : Nat := 0
  deriving DecidableEq, Repr

/-! ### Streams: lines, stripes, sets, cutter -/

/-- A line under assembly from pixel packets (R69, R101). -/
structure LineAsm where
  frame : Nat
  line : Nat
  tag : Nat
  time : TW64
  pos : Nat
  /-- Pixels received so far, in order. -/
  pixels : List Nat
  damaged : Bool := false
  refused : Bool := false
  /-- A remote line: fragment sequence expected next, and its ARRIVAL (R382). -/
  fseq : Nat := 0
  arr : TW64 := 0
  deriving DecidableEq, Repr

/-- The reception of one stream at its port (R69 to R72, R101 to R104), at the module that holds the port. -/
structure Rx where
  /-- LINE expected next is known. -/
  started : Bool := false
  /-- A FRAME_START has been accepted and its frame is open (R72). -/
  frameOpen : Bool := false
  /-- FRAME of the latest FRAME_START accepted. -/
  startFrame : Option Nat := none
  /-- FRAME and LINE expected next (R102). -/
  frame : Nat := 0
  line : Nat := 0
  /-- TAG of the frame's FRAME_START, and of the latest line. -/
  frameTag : Nat := 0
  lineTag : Nat := 0
  asm : Option LineAsm := none
  /-- Policing bucket, Q48.16 bytes, at `bucketT` ns (R103). -/
  bucket : Nat := 0
  bucketT : Nat := 0
  /-- T of the latest received line, and of the line before it when that was received (R217). -/
  lastT : Option TW64 := none
  prevT : Option TW64 := none
  lastPos : Nat := 0
  /-- Lines written since the latest received line. -/
  gap : Nat := 0
  squall : Bool := false
  absent : Bool := false
  deriving DecidableEq, Repr

/-- What the module keeps of a line in the ring beside its pixels: the fields of its stamp (R325), its
head count, its TAG, and the first line of a stripe sequence it may be (R135). -/
structure LineInfo where
  n : Nat
  frame : Nat
  line : Nat
  tag : Nat
  time : TW64
  pos : Nat
  missing : Bool := false
  damaged : Bool := false
  refused : Bool := false
  /-- 0 POS is final; 1 the active module's POS is awaited; 2 it did not come and POS is the module's own (R248, R406). -/
  posState : Nat := 0
  /-- HBM address of its pixel slot. -/
  addr : Nat := 0
  /-- Sequence number of the set slot bound at its arrival, for an echoing camera (R150). -/
  slot : Nat := 0
  /-- Its reported tag matched no slot (R150). -/
  tagBad : Bool := false
  /-- The stream's input events counted at its arrival (R410), and ns of its arrival (R406). -/
  events : Nat := 0
  at_ : Nat := 0
  deriving DecidableEq, Repr

/-- A set slot (R149). `from` is none while unknown (R151). -/
structure SetSlot where
  params : Bytes := []
  tag : Nat
  seq : Nat := 0
  /-- A settings write made the slot, and not PARAMS_APPLY, a SET_NOTICE or the start of the contract. -/
  write : Bool := false
  /-- First FRAME and LINE at which the slot may apply. -/
  fromRow : Option (Nat × Nat) := none
  /-- Slot of an outstanding settings write: the lines not received at its first sending (R152). -/
  pend : Option (Nat × Nat) := none
  /-- The write failed (R152); or it succeeded, which ends the uncertainty of earlier ones. -/
  uncertain : Bool := false
  sure : Bool := false
  /-- From-row to be taken at the first line written (contract start), or at the next stripe opened (PARAMS_APPLY). -/
  atNext : Bool := false
  deriving DecidableEq, Repr

/-- Profile values of stages 1 to 10 as a stripe takes them when it opens (R148, R188, R212). -/
structure Profile where
  pw : Nat := 1
  ph : Nat := 1
  bands : Nat := 1
  pattern : Bytes := zeros 16
  phase : Nat := 0
  sigBits : Nat := 0
  flags : Nat := 0
  outK : Nat := 96
  snrK : Nat := 32
  snrStr : Nat := 256
  tnrK : Nat := 32
  tnrAlpha : Nat := 64
  detail : Bytes := []
  outCh : Nat := 1
  toneMask : Nat := 0
  cscMode : Nat := 0
  cscMatrix : Bytes := []
  cscOffset : Bytes := []
  outFormat : Nat := 1
  statsSrc : Nat := 1
  statsCh : Nat := 1
  statsEn : Nat := 15
  zonesX : Nat := 16
  zonesY : Nat := 16
  clipLo : Nat := 0
  clipHi : Nat := 65535
  sharpCh : Nat := 0
  deriving DecidableEq, Repr

/-- Cutter values as a stripe takes them when it opens (R237). -/
structure CutCfg where
  thrMode : Nat := 3
  thresholds : Bytes := []
  maskLogic : Nat := 0
  bgShift : Nat := 10
  bgLearn : Nat := 256
  bgStall : Nat := 20000
  minArea : Nat := 4
  maxRows : Nat := 4096
  margin : Nat := 2
  format : Nat := 2
  minTile : Nat := 1
  /-- The position channel of the line stamps (R217). -/
  posSrc : Nat := 0xFF
  deriving DecidableEq, Repr

/-- The background model of a stream (R218): per column the band values and the foreground run, and k. -/
structure BgModel where
  b : List (List Nat) := []
  fg : List Nat := []
  k : Nat := 0
  deriving DecidableEq, Repr

/-- A row of stage 8 values with what the cutter needs of it (R217, R222). -/
structure CutRow where
  row : Nat
  px : List (List Nat)
  time : TW64
  pos : Nat
  frame : Nat
  line : Nat
  /-- Replaced (R140) or damaged (R101). -/
  bad : Bool
  deriving DecidableEq, Repr

/-- The stamp of a row that the cutter has labelled (R217). -/
structure RowStamp where
  row : Nat
  time : TW64
  pos : Nat
  frame : Nat
  line : Nat
  deriving DecidableEq, Repr

/-- An open object (R225). -/
structure Obj where
  order : Nat
  a : Nat := 0
  sx : Nat := 0
  sy : Nat := 0
  x0 : Nat := 0
  x1 : Nat := 0
  y0 : Nat := 0
  y1 : Nat := 0
  sum : List Nat := []
  sq : List Nat := []
  mn : List Nat := []
  mx : List Nat := []
  flags : Nat := 0
  /-- Reserved sequence number of a continuation (R228). -/
  reserved : Option Nat := none
  /-- Runs (row, first column, last column) counted in the object, for the mask plane (R236). -/
  runs : List (Nat × Nat × Nat) := []
  deriving DecidableEq, Repr

/-- Where the rows of a sequence lie, as one of its stripes knew it (R235): head count of a line and the row that it begins, the sequence's first
row, the row behind the stripe, the sequence's end where that was known, and the terms of its stripes. -/
structure Place where
  n0 : Nat
  row : Nat
  first : Nat
  behind : Nat
  bottom : Option Nat := none
  terms : List Nat
  /-- The profile's values under which they ran: Pw, Ph, the phase, SIG_BITS and OUT_CH shape their records and tiles (R226, R235). -/
  prof : Profile := {}
  deriving DecidableEq, Repr

/-- A closed object with what its record takes of the lines' stamps (R226). -/
structure Stamped where
  obj : Obj
  /-- Centroid row rc. -/
  rc : Nat
  first : RowStamp
  last : RowStamp
  centroid : RowStamp
  /-- First and last column order key of R228: the least column of its last row. -/
  key : Nat
  /-- The place of its rows, where an earlier stripe than the one that numbers it closed it (R229, R230). -/
  place : Option Place := none
  deriving DecidableEq, Repr

/-- The cutter's running state of a stream (R218 to R230). -/
structure Cut where
  bg : BgModel := {}
  /-- Raw mask rows e-4 to e-1 with their row numbers (R222). -/
  raw : List (Nat × List Bool) := []
  /-- Channel rows e-2 and e-1 (R222). -/
  rows : List CutRow := []
  /-- Labels of opened row e-3: runs (first, last, OPEN_ORDER) (R222). -/
  labels : List (Nat × Nat × Nat) := []
  objs : List Obj := []
  nextOrder : Nat := 0
  /-- An overflow episode is open (R227). -/
  episode : Bool := false
  /-- Next 56-bit sequence number (R228). -/
  seq : Nat := 0
  /-- Stamps of the labelled rows that open objects may still need. -/
  stamps : List RowStamp := []
  /-- The place of the stripe that left the seam state; none where there is none to close at an edge (R229). -/
  place : Option Place := none
  /-- Apply points that the stripes of this state lie behind (R156), and the next sequence number at the start of
  the latest of them: S0. -/
  apply : Nat := 0
  s0 : Nat := 0
  /-- The next stripe starts as after a top edge (R230). -/
  fresh : Bool := true
  deriving DecidableEq, Repr

/-- A stripe from its opening to its finish (R135, R139, R141). -/
structure Stripe where
  /-- Number of the stripe sequence (one per start, resync, apply point, area frame). -/
  sequ : Nat
  /-- First row, in the stripe sequence, and the sequence's first row. -/
  row0 : Nat
  first : Nat := 0
  /-- Head count of the first line in the retention ring. -/
  n0 : Nat
  frame : Nat
  line : Nat
  /-- Rows received so far. -/
  rows : Nat := 0
  /-- The row at which the sequence ends, once it is known to. -/
  endRow : Option Nat := none
  /-- Rows of the sequence present when it was released short (R139). -/
  haveRow : Nat := 0
  incomplete : Bool := false
  close : TW64 := 0
  closed : Bool := false
  /-- Released for scheduling (R116), with the instant. -/
  released : Bool := false
  relAt : TW64 := 0
  /-- Released short of its lookahead (R139). -/
  short : Bool := false
  terms : List Nat
  planer : Nat
  prof : Profile
  cut : CutCfg
  /-- Table generations in force: flat field, defect map, tone (R187). -/
  gens : Nat × Nat × Nat
  /-- At its close a channel of the stripe had no room, or the phase condition failed (R124 causes 3 and 7). -/
  noRoom : Bool := false
  phaseBad : Bool := false
  started : Bool := false
  /-- The stream's apply points before it opened. -/
  apply : Nat := 0
  /-- The cutter state that the stripe reads, taken at its start (R156, R218). -/
  cutIn : Option Cut := none
  /-- Lines of its rows and halo rows, taken at its start. -/
  infos : List LineInfo := []
  /-- Which of the stream's area frames it belongs to, counted as they open; FRAME alone may come again after a stop (R72). -/
  inst : Nat := 0
  /-- Its area frame was cut off behind it, so that the frame record is due with it (R102, R111, R204). -/
  ends : Bool := false
  /-- The pool held the stream's reference buffers when it opened (R177). -/
  refPool : Bool := false
  /-- The set slots that its rows bind, as they stood at its start. -/
  sets : List SetSlot := []
  /-- BG_CMD was written before it opened (R219). -/
  relearn : Bool := false
  /-- The temporal reference is used (R147). -/
  useRef : Bool := false
  /-- Per row from 6 above to 6 below: the sequence number of the bound slot (R150 to R153). -/
  bind : List Nat := []
  cond : Nat := 0
  deriving DecidableEq, Repr

/-- The temporal reference of an area stream (R147, R177): FRAME, slot, rows of I18. -/
structure TRef where
  frame : Nat
  /-- The stream's area frame that it was filtered from, as `Stripe.inst`. -/
  inst : Nat := 0
  slot : Nat
  /-- Its rows by row number; none not yet written. -/
  rows : List (Option (List Int))
  deriving DecidableEq, Repr

/-- Statistics accumulators (R205), per selected channel and zone; with the header values of R207. -/
structure StatAcc where
  frame : Nat := 0
  /-- The stream's area frame, as `Stripe.inst`. -/
  inst : Nat := 0
  line : Nat := 0
  rows : Nat := 0
  tag : Nat := 0
  seq : Nat := 0
  cond : Nat := 0
  hist : List (List Nat) := []
  low : List Nat := []
  high : List Nat := []
  sum : List Nat := []
  cnt : List Nat := []
  sharp : List Nat := []
  sat : Bool := false
  deriving DecidableEq, Repr

/-- The statistics of an area frame that was cut off (R204), with the terms and profile values of its rows. -/
structure CutFrame where
  terms : List Nat
  prof : Profile
  acc : StatAcc
  deriving DecidableEq, Repr

/-- What a planer keeps of a stream under one live set of terms (R145): the context's temporal reference, with the one being written by the
present frame (R177), its frame accumulators and its cutter state. -/
structure PlanerCtx where
  /-- Apply points before the stripes of the live set. -/
  apply : Nat := 0
  tref : Option TRef := none
  trefNew : Option TRef := none
  acc : Option StatAcc := none
  cut : Cut := {}
  deriving DecidableEq, Repr

/-- The results of a finished stripe until its veneer and trailer are posted (R350, R354). -/
structure Deliv where
  id : Nat
  frame : Nat
  line : Nat
  close : TW64
  cond : Nat
  tag : Nat
  time : TW64
  pos : Nat
  rows : Nat
  terms : List Nat
  /-- Apply points before its stripe opened. -/
  apply : Nat := 0
  /-- SEQ of the stripe output and of the statistics record, once taken (R351). -/
  stripeSeq : Option Nat := none
  statsSeq : Option Nat := none
  /-- STATUS bits so far (R352). -/
  status : Nat := 0
  lateStatus : Nat := 0
  /-- Pre-veneer units, and late units, not yet issued or dropped. -/
  preLeft : Nat
  lateLeft : Nat
  /-- A trailer follows the veneer (R354). -/
  trails : Bool := false
  /-- Bytes delivered, in the digest order of R353: stripe, statistics, records, tiles. -/
  given : List (Nat × Bytes) := []
  lateGiven : List (Nat × Bytes) := []
  posted : Bool := false
  /-- Conditions of R124 found failed before its units were ready, by cause code. -/
  why : List Nat := []
  deriving DecidableEq, Repr

/-- A set of terms that an undelivered stripe uses or will use (R129). -/
structure Live where
  terms : List Nat
  planer : Nat
  /-- The stream's apply points up to and with its own: its stripes carry the same number. -/
  apply : Nat := 0
  /-- Number of its verdict (R380). -/
  num : Nat := 0
  deriving DecidableEq, Repr

/-- The starting state of a stripe: what it reads besides its rows (R409). -/
structure Seed where
  stripe : Stripe
  tref : Option TRef
  trefNew : Option TRef
  acc : Option StatAcc
  tileSeq : Nat := 0
  waiting : List Stamped := []
  deriving DecidableEq, Repr

/-- A comparison of a stripe with the partner's, open until the digests agree or the replay ends (R407 to R411). -/
structure Digest where
  frame : Nat
  line : Nat
  /-- ns at which the own digest was ready. -/
  at_ : Nat := 0
  own : Option Nat := none
  partner : Option Nat := none
  notComparable : Bool := false
  /-- The starting state (R409); none where the stripe has none to keep. -/
  seed : Option Seed := none
  /-- A replay of the stripe is asked for, and has ended with (replay digest, INPUT_DIGEST, input events), or with none where it
  was not possible. -/
  replay : Bool := false
  result : Option (Option (Nat × Nat × Nat)) := none
  /-- What the REPLAY frame of the partner said, in the same form. -/
  theirs : Option (Option (Nat × Nat × Nat)) := none
  /-- Increments of the counters of R410 between the arrivals of the stripe's first and last row. -/
  events : Nat := 0
  deriving DecidableEq, Repr

/-- One stream: policing, contract, ring, stripes, sets, cutter, delivery. -/
structure Stream where
  /-- Its VC is enabled and its contract RUNNING (R101 check 4). -/
  enabled : Bool := false
  /-- Its reception, for a local stream. -/
  rx : Rx := {}
  /-- Remote reception (R382): the line under assembly, and FRAME and LINE expected next in `rx`. -/
  far : Option LineAsm := none
  /-- Retention ring: base and size in granules, lines written (R325). -/
  ringBase : Nat := 0
  ringSize : Nat := 0
  head : Nat := 0
  /-- Slot bytes of the ring, and `head` when it was allocated. -/
  ringQ : Nat := 0
  ringStart : Nat := 0
  lines : List LineInfo := []
  /-- Values in force of 0x3100+s.01 to .26 (R108). -/
  force : List Nat := []
  /-- The contract holds an admission. -/
  admitted : Bool := false
  /-- It was RUNNING when a re-forecast suspended it (R110). -/
  wasRunning : Bool := false
  /-- Its entry to RUNNING waits for a set slot (R149). -/
  waitSlot : Bool := false
  /-- It has entered RUNNING since it was admitted from DRAFT (R219, R228). -/
  everRan : Bool := false
  planer : Nat := 0
  /-- Live sets, oldest first (R129). -/
  live : List Live := []
  /-- BOUND_NS of the partner at the last admission of a contract of a pair (R132). -/
  peerBound : Nat := 0
  /-- An admitted change waits for its apply point (R128). -/
  applyAt : Bool := false
  /-- The terms under which stripes run now. -/
  cur : List Nat := []
  curPlaner : Nat := 0
  /-- Apply points reached. -/
  applies : Nat := 0
  /-- Stripe sequences begun. -/
  sequ : Nat := 0
  /-- The next line begins a new sequence. -/
  newSeq : Bool := true
  /-- First row of the sequence, and the row that its next line begins. -/
  seqFirst : Nat := 0
  seqRows : Nat := 0
  /-- Slot of the row written last in the sequence (R150). -/
  prevSlot : Option Nat := none
  stripe : Option Stripe := none
  stripes : List Stripe := []
  /-- Instant of its latest stripe close, for the phase condition of R124. -/
  lastClose : Option TW64 := none
  /-- ns at which a later member of its phase group broke the phase condition of R124. -/
  phaseLost : Option Nat := none
  /-- ns at which its route or reservations last changed (R124 cause 6). -/
  routeLost : Option Nat := none
  /-- Budget bucket in cycle ps at `budgetT` ps, and cycles of finished stripes not yet charged (R142). -/
  budget : Nat := 0
  budgetT : Nat := 0
  lastCycles : Nat := 0
  /-- Profile values and table generations as the present area frame took them when it opened (R187, R212). -/
  frameProf : Profile := {}
  frameGens : Nat × Nat × Nat := (0, 0, 0)
  frameCut : CutCfg := {}
  /-- FRAME of the present area frame, and the set slot of all its rows, with whether its tag is unknown (R150). -/
  frameNo : Option Nat := none
  frameSlot : Option (Nat × Bool) := none
  /-- Area frames opened so far. -/
  frames : Nat := 0
  /-- The next stripe of the present frame relearns the model (R219, R237). -/
  frameRelearn : Bool := false
  /-- Records of area frames that were cut off when all of their stripes had finished; they go to their channel with the next tick (R204). -/
  cutFrames : List CutFrame := []
  /-- The pool held no buffers for the temporal reference of the present frame (R177). -/
  noRef : Bool := false
  /-- BG_CMD was written and no stripe has opened since (R219). -/
  relearn : Bool := false
  slots : List SetSlot := []
  /-- Freed slots whose settings write is not answered yet, or failed and no later one has succeeded (R152); no row binds them. -/
  ghosts : List SetSlot := []
  nextSlot : Nat := 0
  /-- FRAME and LINE of the last line of the latest stripe started (R152). -/
  lastBound : Option (Nat × Nat) := none
  /-- A PARAMS_APPLY waits for a slot (R149). -/
  paramsWait : Bool := false
  /-- The contexts of its live sets (R145), and whether the pool holds its reference buffers (R177). -/
  ctxs : List PlanerCtx := []
  trefPool : Bool := false
  /-- Next TILE_SEQ (R234). -/
  tileSeq : Nat := 0
  /-- Objects closed by a watchdog abort that await the stream's next stripe (R230). -/
  waiting : List Stamped := []
  /-- Apply points and set slots made when the contract was last released with stripes unfinished, whose context is still held (R145). -/
  left : Option (Nat × Nat) := none
  /-- POS_SRC as the source node of a remote stream was last told (R217, R237). -/
  posSent : Nat := 0xFF
  delivs : List Deliv := []
  nextDeliv : Nat := 0
  digests : List Digest := []
  /-- POS received for lines from the active module: FRAME, LINE, POS (R248). -/
  posRx : List (Nat × Nat × Nat) := []
  deriving DecidableEq, Repr

/-! ### Forecast and planers -/

/-- A verdict in progress (R112, R132): the stream, whether it is a change, and the terms under verdict. -/
structure Verdict where
  stream : Nat
  change : Bool
  terms : List Nat
  /-- No commit: a re-forecast asks for a remote contract's route anew (R131). -/
  again : Bool := false
  /-- The own computation has ended with (reason, detail, bound, planer); it waits for the partner. -/
  own : Option (Nat × Nat × Nat × Nat) := none
  /-- The partner's answer when it came before the own computation ended: (admitted, reason, detail, bound). -/
  partner : Option (Bool × Nat × Nat × Nat) := none
  /-- Its number (R380 ARG_A). -/
  num : Nat := 0
  /-- LTC at its commit: commits of one tick are taken in ascending stream number (R112, notes/assumptions/59.md). -/
  at_ : Nat := 0
  /-- POS_SRC as its RESERVE told it (R217, R380). -/
  pos : Nat := 0xFF
  /-- Route reservation of a remote stream (R380): 0 none asked, 1 asked, 2 held, 3 refused. -/
  route : Nat := 0
  /-- Reason and detail of a refused route. -/
  routeWhy : Nat × Nat := (0, 0)
  deriving DecidableEq, Repr

/-- One planer beside its entries at 0x3600+p and 0x3810+p. -/
structure Planer where
  /-- Running stripe: stream, and head count of its first line. -/
  run : Option (Nat × Nat) := none
  /-- LTC at its start. -/
  startLtc : Nat := 0
  /-- Cycles of replay slices taken during it. -/
  sliceCycles : Nat := 0
  /-- A kerf is charged to the running stripe. -/
  kerf : Bool := false
  /-- The next stripe takes a kerf because a watchdog recovery came before (R146). -/
  afterWatchdog : Bool := false
  /-- A replay slice runs, and LTC at its start (R144). -/
  slice : Bool := false
  sliceAt : Nat := 0
  /-- Clock-gated (R466). -/
  gated : Bool := true
  /-- Replays pending on the planer: stream, frame and first line (R409), and the cycles left of the first. -/
  replays : List (Nat × Nat × Nat) := []
  replayCycles : Nat := 0
  deriving DecidableEq, Repr

/-- A profile table copy (R178, R186): its generation and its bytes. -/
structure Table where
  gen : Nat := 0
  bytes : Bytes := []
  deriving DecidableEq, Repr

/-- The table loader (R186) and the profile tables. -/
structure Tables where
  /-- Loading copy of 0x3AF0. -/
  loading : Bytes := []
  /-- Active copies, keyed by profile times 4 plus kind. -/
  active : SMap Table := []
  /-- A swap is pending: profile and kind, with the checked copy. -/
  pending : Option (Nat × Nat × Bytes) := none
  /-- Copies replaced and still used by a stripe: profile times 4 plus kind, with the copy. -/
  old : List (Nat × Table) := []
  /-- Generations given so far. -/
  gens : Nat := 0
  deriving DecidableEq, Repr

/-! ### Host endpoint (R313 to R335) -/

/-- One entry of the MSI-X table (R322). -/
structure MsixEntry where
  addrLo : Nat := 0
  addrHi : Nat := 0
  data : Nat := 0
  mask : Bool := true
  deriving DecidableEq, Repr

/-- What a memory read fetches (R342, R345, R348, R360). -/
inductive ReadWhat where
  /-- The descriptor at this address, for a Class S channel. -/
  | desc (addr : Nat)
  /-- The last descriptor held, read again for its link (R345). -/
  | tail (addr : Nat)
  /-- `n` slots of a from-host ring from index `idx` (R348). -/
  | entries (idx n : Nat)
  /-- A probe of the engine's recovery (R360). -/
  | probe
  deriving DecidableEq, Repr

/-- A memory read, outstanding or waiting for a tag (R330, R331). -/
structure HostRead where
  tag : Nat := 0
  chan : Nat
  what : ReadWhat
  addr : Nat
  len : Nat
  /-- Its data is wanted; otherwise it is thrown away (R328, R359). -/
  wanted : Bool := true
  deriving DecidableEq, Repr

/-- A posted write queued for the host and not yet sent (R318, R328). -/
structure HostWrite where
  /-- Channel that issued it; none for an MSI-X message. -/
  chan : Option Nat
  /-- SEQ of the unit it belongs to. -/
  seq : Nat := 0
  /-- A descriptor write-back (R344). -/
  writeBack : Bool := false
  addr : Nat
  data : Bytes
  /-- An MSI-X message of this vector (R323). -/
  vector : Option Nat := none
  deriving DecidableEq, Repr

/-- A configuration write queued behind a drain or a reset (R329, R332). -/
inductive QueuedCfg where
  | bme (on : Bool)
  | d0
  | d3
  | msix (enable fmask : Bool)
  /-- A write of 4 bytes at an offset. -/
  | reg (offset value : Nat)
  /-- Initiate Function Level Reset, and a Max_Payload_Size. -/
  | flr
  | mps (n : Nat)
  deriving DecidableEq, Repr

/-- Configuration registers of the function beside those that Endpoint holds (R316 to R318, R335; notes/assumptions/54.md). -/
structure CfgRegs where
  /-- Memory Space Enable (R335). -/
  mse : Bool := true
  /-- Addresses of BAR0/1 and BAR2/3 (R316). -/
  bar0 : Nat := 0
  bar2 : Nat := 0
  /-- Code of Max_Read_Request_Size: 128 bytes times 2 to it (R318). -/
  mrrs : Nat := 2
  /-- Device Control 2: completion-timeout value (R318) and 10-bit Tag Requester Enable (R331). -/
  timeout : Nat := 0
  tag10 : Bool := false
  /-- AER: uncorrectable and correctable error status (R335). -/
  aerUnc : Nat := 0
  aerCor : Nat := 0
  /-- AER: uncorrectable mask and severity, correctable mask; and the reporting enables of Device Control [3:0]. -/
  aerUncMask : Nat := 0
  aerUncSev : Nat := 0x462030
  aerCorMask : Nat := 0x2000
  report : Nat := 0xF
  /-- Registers of the other extended capabilities as written, by offset (R317). -/
  ext : SMap Nat := []
  deriving DecidableEq, Repr

/-- The PCI Express function (R313 to R335). -/
structure Endpoint where
  /-- The data link is up. -/
  up : Bool := false
  bme : Bool := false
  /-- In D3hot (R333). -/
  d3 : Bool := false
  msixEnable : Bool := false
  msixFmask : Bool := false
  msix : SMap MsixEntry := []
  /-- Vectors pending from raises of a module without authority: not sent once it gains it (R413). -/
  muted : List Nat := []
  /-- Vectors pending, rising (R322). -/
  pba : List Nat := []
  /-- A drain is in progress (R328). -/
  drain : Bool := false
  /-- An enable of Bus Master Enable is queued behind the drain (R329). -/
  queuedBme : Bool := false
  /-- A return to D0 is queued behind the drain (R329). -/
  queuedD0 : Bool := false
  /-- A Function Level Reset runs; configuration writes received during it (R332). -/
  flr : Bool := false
  queuedCfg : List QueuedCfg := []
  tw64Hi : Nat := 0
  intCause : Nat := 0
  intEnable : Nat := 0
  intVector : Nat := 0
  bmeDiscards : Nat := 0
  complTimeouts : Nat := 0
  lateCompletions : Nat := 0
  msixDropped : Nat := 0
  msixMerged : Nat := 0
  /-- APERTURE_LO staged [31:21], the base installed, and the counters of R324. -/
  apLo : Nat := 0
  apHi : Nat := 0
  apBase : Nat := 0
  apReads : Nat := 0
  apDrops : Nat := 0
  /-- HEAD_HI as latched, by stream (R325). -/
  headHi : SMap Nat := []
  reads : List HostRead := []
  waiting : List HostRead := []
  /-- Tags in quarantine (R330). -/
  quarantine : List Nat := []
  /-- Those of them whose reads a reset of the function ended: late completions go without a report (R332). -/
  flrTags : List Nat := []
  writes : List HostWrite := []
  /-- E of the last trained link, GB/s (R314, R315), and that link's rate, width and Max_Payload_Size. -/
  e : Nat := 0
  trained : Option (Nat × Nat × Nat) := none
  cfg : CfgRegs := {}
  deriving DecidableEq, Repr

/-! ### DMA engine (R337 to R364) -/

/-- The shape of a unit, for the reshuffle (R357): 0 passes unchanged; 1 a stripe output with sample bytes,
samples per pixel, pixels per row and rows; 2 a tile with its pixel plane, mask plane or both. -/
structure Shape where
  kind : Nat := 0
  z : Nat := 1
  n : Nat := 1
  p : Nat := 0
  rows : Nat := 0
  /-- Bytes of a tile's header before its planes. -/
  header : Nat := 0
  /-- Bytes of a row of the pixel plane and of the mask plane as produced; 0 where the plane is absent. -/
  rowBytes : Nat := 0
  maskBytes : Nat := 0
  deriving DecidableEq, Repr

/-- A host write of a unit's place that waits for limiter credit (R356). -/
structure Planned where
  write : HostWrite
  /-- It writes DONE 1 (R344). -/
  closes : Bool := false
  /-- The buffer it closes has EVENT 1 (R364). -/
  event : Bool := false
  deriving DecidableEq, Repr

/-- A unit on its way to the host. `kind` is UNIT of R404: 1 stripe veneer, 2 trailer veneer, 3 stripe output,
4 statistics record, 5 object record, 6 tile, 7 event-log record. -/
structure Unit where
  kind : Nat
  stream : Nat := 0
  /-- Number of the stripe's delivery in its stream. -/
  deliv : Nat := 0
  /-- Follows its stripe's veneer (R126). -/
  late : Bool := false
  data : Bytes
  shape : Shape := {}
  /-- KEY of R404: FRAME and FIRST_LINE, OBJECT_ID, or STAMP. -/
  key : Nat := 0
  /-- SEQ once taken (R339). -/
  seq : Option Nat := none
  /-- ns at which it reached the head of its channel's queue (R349). -/
  headAt : Option Nat := none
  /-- ns at which it became ready, for the discard of R406 on a standby. -/
  readyAt : Nat := 0
  /-- Named by the delivery log (R406). -/
  logged : Bool := false
  /-- Named by the log and not yet produced by this module, a new active (R414): later units wait behind it. -/
  awaited : Bool := false
  /-- Its bytes are those to be written: reshuffled, or the veneer as built. -/
  built : Bool := false
  /-- It passed its channel's reshuffle unchanged (R357). -/
  skip : Bool := false
  /-- Bytes that have their place in the channel's buffers or ring, taken at its first write (R337). -/
  placed : Nat := 0
  /-- Ring index of its first slot. -/
  place : Nat := 0
  /-- The host writes of its place, in order, and how many of them are issued. -/
  plan : List Planned := []
  done : Nat := 0
  /-- It has met an incoherent ring (R347). -/
  met : Bool := false
  /-- Its delivery has been told of it: it was wholly issued once, and is written again after a discard (R350, R362). -/
  noted : Bool := false
  /-- POINT and OFFSET of the log's entry for it, where a new active begins it (R414). -/
  at_ : Option (Nat × Nat) := none
  deriving DecidableEq, Repr

/-- A descriptor that the engine holds (R342), after the clamps of R343. -/
structure Desc where
  addr : Nat
  buf : Nat
  len : Nat
  pack : Bool
  event : Bool
  next : Nat
  link : Bool
  deriving DecidableEq, Repr

/-- A unit whose writes are all issued and not all sent, with its place (R339, R362). -/
structure Issued where
  unit : Unit
  seq : Nat
  deriving DecidableEq, Repr

/-- One DMA channel beside its entries at 0x5800+c. -/
structure Chan where
  /-- CH_STATE: IDLE 0, RUN 1, TAIL_WAIT 2, HELD 3, PARKED 4, DRAINING 5. -/
  state : Nat := 0
  hw : Nat := 0
  sw : Nat := 0
  /-- Class C: the index behind the last place taken (R337); HW_INDEX follows it (R347). -/
  alloc : Nat := 0
  error : Nat := 0
  doorbell : Bool := false
  /-- Limiter credit in 1/1,024 byte at `credAt` ns; at most DEPTH (R356). -/
  cred : Nat := 0
  credAt : Nat := 0
  queue : List Unit := []
  /-- Descriptors held, the present buffer first, and the bytes of it used (R344). -/
  descs : List Desc := []
  off : Nat := 0
  /-- A descriptor or ring read is outstanding or waits for a tag. -/
  fetching : Bool := false
  /-- Address of the descriptor to fetch next, when none is held or the last is linked. -/
  fetch : Nat := 0
  /-- The descriptor read last has LINK_VALID 0, and `fetch` is its own address (R345). -/
  atTail : Bool := false
  /-- The channel was RUN or TAIL_WAIT when a bus error stopped the engine (R359). -/
  stopped : Bool := false
  issued : List Issued := []
  /-- Descriptor write-backs that wait for limiter credit ahead of every unit: discarded ones to be issued again (R362), and those of units that
  ended early (R349, R356). -/
  redo : List Planned := []
  /-- The tail's clamp is counted (R343). -/
  tailClamp : Bool := false
  /-- POINT of the unit that the delivery log of the partner named last (R406). -/
  logPoint : Option Nat := none
  /-- Greatest SEQ of the units all written or dropped, plus 1 (R405); and as last reported by a mark. -/
  commit : Nat := 0
  marked : Nat := 0
  /-- Decisions fetched and awaiting DECISION: index and bytes (R265, R348). -/
  entries : List (Nat × Bytes) := []
  deriving DecidableEq, Repr

/-- The engine's recovery (R359, R360). -/
structure Engine where
  /-- Channels still to probe, in order; the first is being probed when ENGINE_STATE is 2. -/
  probes : List Nat := []
  /-- Some probe failed. -/
  parked : Bool := false
  /-- ns of the bus error. -/
  since : Nat := 0
  deriving DecidableEq, Repr

/-! ### Fabric frames waiting (R367, R376) -/

/-- A frame to send. `vals` carries the fields of a payload that the spec describes without a byte layout. -/
structure FabMsg where
  tc : Nat
  kind : Nat
  dst : Nat
  src : Nat
  flow : Nat := 0
  fseq : Nat := 0
  argA : Nat := 0
  argB : Nat := 0
  down : Bool := false
  hops : Nat := 0
  payload : Bytes := []
  /-- The port whose receive buffer a forwarded frame occupies (R377). -/
  into : Option Nat := none
  deriving DecidableEq, Repr

/-- One fabric port beside its entries at 0x6100+p. -/
structure FPort where
  tx : List FabMsg := []
  /-- Units sent, and freed by the neighbour's CREDIT, per class 0 to 4 (R377). -/
  sent : List Nat := [0, 0, 0, 0, 0]
  freed : List Nat := [0, 0, 0, 0, 0]
  /-- Units received and freed by this port, and freed as last told in a CREDIT, per class. -/
  got : List Nat := [0, 0, 0, 0, 0]
  gave : List Nat := [0, 0, 0, 0, 0]
  told : List Nat := [0, 0, 0, 0, 0]
  /-- Classes whose waiting frames have been discarded for want of credits, and ns of the first discard of the wait (R377). -/
  starved : List (Nat × Nat) := []
  /-- ns of the credit overruns of the last ms (R387 check 3). -/
  overruns : List Nat := []
  /-- Ingress buckets of TC1 and TC3: 10^-11 byte held, and ns of the last charge (R376). -/
  fill1 : Nat := 8192 * 10 ^ 11
  fill1At : Nat := 0
  fill3 : Nat := 16384 * 10 ^ 11
  fill3At : Nat := 0
  /-- It has been ALIGNED for LINK_SETTLE (R371). -/
  settled : Bool := false
  /-- The neighbour's last valid HELLO: its 32 bytes (R371). -/
  hello : Option Bytes := none
  deriving DecidableEq, Repr

/-! ### Event hub and pins (R301 to R312) -/

/-- An event (R301). -/
structure Event where
  ch : Nat
  gen : Nat := 0
  src : Nat
  data : Nat
  stamp : TW64
  deriving DecidableEq, Repr

/-- One hub task beside its entries at 0x5600+t. -/
structure Task where
  /-- Relay publications waiting, oldest first, each with the LTC at which it is due (R305). -/
  relays : List (Event × Nat) := []
  /-- LTC of the last activation (R309). -/
  lastAt : Option Nat := none
  deferred : Option Event := none
  deriving DecidableEq, Repr

/-- One discrete pin. -/
structure Pin where
  /-- Level the module drives. -/
  level : Bool := false
  /-- Level at the contact after DIN_FILTER. -/
  input : Bool := false
  /-- Pulses on the pin: producer (0 to 31 a sequencer, 256 + t a task), start and end. -/
  pulses : List (Nat × TW64 × TW64) := []
  /-- Generation marks: task, generation, and LTC of the end of its pulse, from which the window runs (R311). -/
  marks : List (Nat × Nat × Option Nat) := []
  deriving DecidableEq, Repr

/-! ### The fabric map and forward table (R372 to R381) -/

/-- A link of the map: its ends by address and port, NET_RATE in kbit/s, and the DOVETAIL flag. -/
structure FabLink where
  a : Nat
  aPort : Nat
  b : Nat
  bPort : Nat
  net : Nat
  dovetail : Bool := false
  deriving DecidableEq, Repr

/-- The map in force (R372): EUI and address of every node, and every link. -/
structure FabMap where
  nodes : List (Nat × Nat) := []
  links : List FabLink := []
  deriving DecidableEq, Repr

/-- An entry of the forward table beside 0x6200+k (R379). State 0 free, 1 tentative, 2 committed. -/
structure Fwd where
  state : Nat := 0
  port : Nat := 0
  vc : Nat := 0
  node : Nat := 0
  flow : Nat := 0
  terms : List Nat := []
  /-- kbit/s (R120 step 2). -/
  d : Nat := 0
  /-- The verdict number of the processing node (R380). -/
  verdict : Nat := 0
  /-- Position channel whose count stamps its lines, 0xFF for none (R217). -/
  posSrc : Nat := 0xFF
  /-- ns at which the pace of R381 lets go the next frame behind one longer than 10 µs of it. -/
  paceAt : Nat := 0
  /-- Its frames sent within the last 10 µs: ns at which each had left, and its bytes (R381). -/
  went : List (Nat × Nat) := []
  /-- ns of the last refusal of its bucket, while it is in squall (R104, R379). -/
  refusedAt : Nat := 0
  /-- Its reception and policing (R379). -/
  rx : Rx := {}
  deriving DecidableEq, Repr

/-- A TC2 reservation held on an output port of a route (R380). -/
structure Hold where
  /-- Source node of the flow (SRC of its frames). -/
  node : Nat
  flow : Nat
  /-- The processing node, and its verdict's number. -/
  to_ : Nat
  verdict : Nat
  /-- Ports by which the flow leaves and enters this node; 96 where it does neither. -/
  outPort : Nat
  inPort : Nat
  /-- D counted now, the greatest of its live sets (R129), and D of the terms of its verdict. -/
  d : Nat
  want : Nat := 0
  /-- Bytes of a line as it travels in frames. -/
  line : Nat := 0
  committed : Bool := false
  /-- Flow bucket of R381, 10^-11 byte at ns. -/
  fill : Nat := 0
  fillAt : Nat := 0
  deriving DecidableEq, Repr

/-! ### The pair (R390 to R419) -/

/-- A unit named by the delivery log and not yet covered by a commit mark (R404, R406): channel, SEQ, the 32-byte
entry, and the bytes that follow it. -/
structure LogUnit where
  chan : Nat
  seq : Nat
  entry : Bytes
  body : Bytes := []
  deriving DecidableEq, Repr

/-- A pair-wide write on its way between the modules (R403). -/
structure Wide where
  num : Nat
  path : Nat
  index : Nat
  sub : Nat
  data : Bytes
  deriving DecidableEq, Repr

/-- What the module holds of its pair beside the entries at 0x6400 to 0x6402. -/
structure Pair where
  /-- The keepalive timer has expired and has not been armed again; and a lockstep mismatch or an uncorrectable memory error keeps it
  from being armed until the next restart (R396). -/
  expired : Bool := false
  broken : Bool := false
  /-- The module drove its OWN line and last read it deasserted while it did (R420). -/
  lineLow : Bool := false
  /-- Ownership was taken and the partner's PAIR_STATE has not yet told why it let go (R399). -/
  tookOver : Bool := false
  /-- Number of the next pair-wide write made here; those that both modules have not applied yet; those that the loss of the
  cross-link left to this module alone; and the pieces received of the CONFIG write under way (R403). -/
  wideNo : Nat := 0
  wides : List Wide := []
  orphans : List Wide := []
  wideIn : Bytes := []
  /-- ns of the module's start-up (R397). -/
  since : Nat := 0
  /-- The partner has read present since start-up (R417). -/
  presSeen : Bool := false
  /-- The partner's OWN has read deasserted for OWN_GUARD (R397); ns from which it reads so; and the instant of its fall (R400). -/
  guardDone : Bool := false
  lowAt : Nat := 0
  fall : Option TW64 := none
  /-- The module is to assert OWN as soon as it may (R397, R417). -/
  want : Bool := false
  /-- After a clash the slot-B module waits before it asserts again: ns of its release (R397). -/
  clash : Option Nat := none
  /-- As last sampled at the contacts (R394): DVT_PRES of the partner reads present; and the read-back of the module's own
  OWN line. -/
  presLine : Bool := false
  ownLine : Option Bool := none
  /-- ns of the last commit mark received (R400). -/
  markAt : Option Nat := none
  /-- ns of the last pair frame received on any cross-link port (R416). -/
  heardAt : Option Nat := none
  /-- ns of the last takeover by this module (R127 cause 5). -/
  tookAt : Option Nat := none
  /-- LTC at which AUTH last rose (R278). -/
  authAt : Option Nat := none
  /-- ns of the last switch of reasons 3 to 7, and per valve port of reason 7 (R399). -/
  switchAt : Option Nat := none
  portSwitch : SMap Nat := []
  /-- ns of the verdicts that found this module faulty, and of the unattributed ones (R412). -/
  faulty : List Nat := []
  unattributed : List Nat := []
  /-- The partner's last PAIR_STATE payload (R402). -/
  partner : Option Bytes := none
  /-- TC2 pair frames awaiting their PAIR_ACK, with ns of their sending (R401). -/
  unacked : List (Nat × FabMsg) := []
  /-- Next FSEQ expected from the partner, none until its first frame since the cross-link came up, and those
  received beyond a gap. -/
  rxNext : Option Nat := none
  rxBeyond : List Nat := []
  /-- Next MARK_NO (R405), and the valve updates since the last mark: port, U, IMAGE_HASH. -/
  markNo : Nat := 0
  updates : List (Nat × TW64 × Nat) := []
  /-- The delivery log's entries not yet both produced here and covered by a mark, in log order (R406). -/
  log : List LogUnit := []
  /-- Index after the last DECISION frame of each ring's channel (R413). -/
  decNext : SMap Nat := []
  /-- SYNCING (R418): restarts in a row; the configuration is to be pulled; SYNC_DATA received so far; streams whose
  starting state has not come; streams whose stripe k is awaited as (stream, FRAME, LINE); streams whose first
  comparable digest is awaited; and whether a mark has come since. -/
  restarts : Nat := 0
  pull : Bool := false
  syncBytes : Bytes := []
  awaitStart : List Nat := []
  awaitStripe : List (Nat × Nat × Nat) := []
  awaitDigest : List Nat := []
  syncMark : Bool := false
  /-- Everything SYNC_DATA lists has arrived (R418). -/
  synced : Bool := false
  /-- On the active module: SYNC_DATA has been sent to the partner in SYNCING, and the streams whose starting state is
  still to be sent (R418). -/
  syncTo : Bool := false
  giveStart : List Nat := []
  deriving DecidableEq, Repr

/-! ### Position channels, sequencers and the Mallet (R239 to R284) -/

/-- One position channel beside its entries at 0x4400+n. -/
structure PosChan where
  /-- q_prev (R241) or w_prev (R245); none until the counter runs (R246). -/
  last : Option Nat := none
  /-- phi of the sample before (R242). -/
  phi : Option Nat := none
  /-- Consecutive samples below AMP_LO, above AMP_HI, inside the window, below 100 mV and above 100 mV (R243). -/
  low : Nat := 0
  high : Nat := 0
  inside : Nat := 0
  lost : Nat := 0
  back : Nat := 0
  /-- The instant of the latest sample. -/
  at_ : TW64 := 0
  /-- Samples, or SSI polls, since the restart. -/
  clock : Nat := 0
  /-- `clock` at the last change of COUNT in the direction of DIR (R249, R251). -/
  dirAt : Nat := 0
  /-- The extreme E of COUNT while moving, and the standstill position (R251, R252). -/
  ext : Nat := 0
  still : Nat := 0
  /-- `clock` at the first change against DIR, or away from standstill (R252). -/
  offAt : Option Nat := none
  /-- COUNT and `clock` at the start of the gate that runs (R249). -/
  gate0 : Nat := 0
  gateAt : Nat := 0
  /-- |SPEED| has passed SPEED_UP: frequency mode takes over at the next gate start; and its first gate runs (R250). -/
  freqNext : Bool := false
  gateFirst : Bool := false
  /-- Consecutive jump rejections, and consecutive rejected frames (R245). -/
  jumps : Nat := 0
  rejects : Nat := 0
  /-- A frame has come since the latest poll, or the channel's own clock driver draws one (R501). -/
  framed : Bool := true
  /-- Accepted words within the gate: poll number, COUNT and sample instant (R249). -/
  polls : List (Nat × Nat × TW64) := []
  /-- Divider: acc and Q of R253, and the output state's place in the order 00, 10, 11, 01. -/
  acc : Int := 0
  q : Int := 0
  phase : Nat := 0
  deriving DecidableEq, Repr

/-- The half of a pair of COUNT and SAMPLE_TIME that a reader has still to read (R246): the reader (0 to 4 a path, 16 + n a node
of the fabric), the entry and its bytes. -/
structure ReadPair where
  who : Nat
  index : Nat
  sub : Nat
  data : Bytes
  deriving DecidableEq, Repr

/-- One Marking Gauge sequencer beside its entries at 0x4800+m. -/
structure Sequencer where
  /-- Targets passed of COUNT (R254). -/
  passed : Nat := 0
  /-- The target was behind: it waits for a sample at which it is not reached (R258 WAIT_CROSS). -/
  cross : Bool := false
  /-- The target was behind: it fires at the next evaluation (R258 FIRE_NOW). -/
  fireNow : Bool := false
  /-- A target written and not yet in force (R259). -/
  write : Option Nat := none
  /-- COUNT of its source at the evaluation before (R255). -/
  prev : Option Nat := none
  /-- The target came while the source was LOST or off: whether it is behind is judged at the next evaluation (R255, R258). -/
  judge : Bool := false
  /-- Local outputs of time targets whose packet has left at TARGET - LEAD: TARGET and the fire's number (R257). -/
  outs : List (TW64 × Nat) := []
  /-- The train packet of mode 5 has been sent (R257). -/
  sent : Bool := false
  deriving DecidableEq, Repr

/-- A timed trigger or train packet whose send instant passed without authority (R262). -/
structure HeldTrig where
  mg : Nat
  port : Nat
  w0 : Nat
  rest : Bytes
  fire : TW64
  deriving DecidableEq, Repr

/-- A pulse of the schedule (R272). -/
structure Pulse where
  port : Nat
  first : Nat
  last : Nat
  us : TW64
  ue : TW64
  deriving DecidableEq, Repr

/-- One valve port beside its entries at 0x4C40+v. -/
structure ValvePort where
  /-- Its grid runs, and Un (R270). -/
  grid : Bool := false
  un : TW64 := 0
  /-- VP_ENABLE went to 0: one frame with every valve off is still to be sent (R281). -/
  closing : Bool := false
  /-- run[v] and rest[v] of R273. -/
  run : List Nat := []
  rest : List Nat := []
  /-- Consecutive wrong and good markers, and the chain fault (R277). -/
  bad : Nat := 0
  good : Nat := 0
  fault : Bool := false
  /-- Per valve: consecutive good frames with its fault bit 1, and with 0 (R277). -/
  ones : List Nat := []
  noughts : List Nat := []
  deriving DecidableEq, Repr

/-- The Mallet (R265 to R272): object memory by stream times 65,536 plus slot, holding ID and CENTROID_TIME, and the
pulse schedule. -/
structure Mallet where
  objs : SMap (Nat × Nat) := []
  pulses : List Pulse := []
  deriving DecidableEq, Repr

/-! ### Time (R285 to R300) -/

/-- A change of the time set that is pending (R289). -/
structure TimeChange where
  anchor : Nat
  step : TW64
  rate : Nat
  host : Bool
  deriving DecidableEq, Repr

/-- A grandmaster announced on a port (R292, R294), with ns of the ANNOUNCE. -/
structure Announced where
  port : Nat
  cls : Nat
  priority : Nat
  eui : Nat
  hops : Nat
  era : Nat
  at_ : Nat
  deriving DecidableEq, Repr

/-- An exchange of R292: its SEQ and the stamps known. -/
structure Exchange where
  port : Nat
  seq : Nat
  t1 : Option TW64 := none
  t2 : TW64 := 0
  t3 : Option TW64 := none
  /-- ns of the arrival of SYNC. -/
  at_ : Nat := 0
  deriving DecidableEq, Repr

/-- The time base beside its entries at 0x5000 to 0x5040. -/
structure TimeBase where
  /-- Bit 63 of TW64 has been set since the era last followed it (R287). -/
  high : Bool := false
  change : Option TimeChange := none
  /-- The servo's integrator I (R293). -/
  i : Int := 0
  /-- Consecutive offsets within LOCK_LIMIT, at most 8 (R291). -/
  good : Nat := 0
  announced : List Announced := []
  /-- SEQ of the next exchange, and the exchange run as child. -/
  seq : Nat := 0
  child : Option Exchange := none
  /-- ns at which the parent port was taken or last completed an exchange (R294). -/
  parentAt : Nat := 0
  /-- LTC of the last active edge of PPS_IN, and edges in a row at the right distance, at most 3 (R296). -/
  ppsAt : Option Nat := none
  ppsRun : Nat := 0
  /-- LTC at which PPS_OUT rose; none while it is low (R297). -/
  ppsOut : Option Nat := none
  /-- A PTM dialog runs; the last one succeeded (R298). -/
  ptmRun : Bool := false
  ptmOk : Bool := false
  deriving DecidableEq, Repr

/-! ### Dictionary access paths (R435 to R457) -/

/-- An accumulation buffer (R440): the entry it belongs to and its bytes. -/
structure Accum where
  index : Nat
  sub : Nat
  bytes : Bytes := []
  deriving DecidableEq, Repr

/-- A dictionary request as a path hands it to the Bench. Operation 1 read, 2 write, otherwise none. -/
structure DictReq where
  op : Nat
  index : Nat
  sub : Nat
  offset : Nat
  length : Nat
  last : Bool
  data : Bytes
  tag : Nat := 0
  node : Nat := 0xFFFF
  /-- A write that has been made and waits until both modules of the pair have applied it (R403): its number. -/
  wait : Option Nat := none
  deriving DecidableEq, Repr

/-- The mailbox registers (R439) as words, its buffer and its transaction. -/
structure Mailbox where
  entry : Nat := 0
  ctrl : Nat := 0
  offset : Nat := 0
  length : Nat := 0
  node : Nat := 0xFFFF
  status : Nat := 0
  info : Nat := 0
  size : Nat := 0
  returned : Nat := 0
  /-- MB_DATA; bytes beyond the list read 0. -/
  data : Bytes := []
  run : Option DictReq := none
  accum : Option Accum := none
  deriving DecidableEq, Repr

/-- The gateway registers (R456), GW_DATA, its buffer and its request (R457). -/
structure Gateway where
  index : Nat := 0
  sub : Nat := 0
  flags : Nat := 0
  offset : Nat := 0
  length : Nat := 0
  status : Nat := 0
  result : Nat := 0
  tag : Nat := 0
  ty : Nat := 0
  access : Nat := 0
  returned : Nat := 0
  size : Nat := 0
  /-- GW_DATA; bytes beyond the list read 0. -/
  data : Bytes := []
  run : Option DictReq := none
  accum : Option Accum := none
  /-- Instant in ns at which the last request ended, or the Bench's clocks began to run after it (R471). -/
  endAt : Nat := 0
  deriving DecidableEq, Repr

/-- The module's own fabric dictionary request (R441): the mailbox transaction that it serves. -/
structure OwnReq where
  id : Nat
  node : Nat
  payload : Bytes
  resends : Nat := 0
  deriving DecidableEq, Repr

/-- A fabric request whose pair-wide write waits until both modules have applied it (R403, R441). -/
structure WaitReq where
  node : Nat
  id : Nat
  index : Nat
  sub : Nat
  num : Nat
  deriving DecidableEq, Repr

/-- The fabric path (R441): responses kept per requester, oldest first, as (node, REQ_ID, payload); accumulation
buffers per requester, least recently used first; the own request and the next REQ_ID; and requests not yet answered. -/
structure DictServer where
  kept : List (Nat × Nat × Bytes) := []
  accums : List (Nat × Accum) := []
  own : Option OwnReq := none
  nextId : Nat := 0
  waiting : List WaitReq := []
  deriving DecidableEq, Repr

/-- A USDO transfer (R443). -/
structure Usdo where
  index : Nat
  sub : Nat
  /-- Bytes announced for a download. -/
  size : Nat
  /-- Bytes received of a download; bytes still to be sent of an upload. -/
  data : Bytes
  upload : Bool := false
  /-- The Bench cores have restarted since it began: it can only time out (R476). -/
  lost : Bool := false
  deriving DecidableEq, Repr

/-- The CAN FD node (R442, R443). -/
structure CanNode where
  /-- The path runs: it was enabled at its last reinitialisation. -/
  on : Bool := false
  usdo : Option Usdo := none
  /-- Downloads of pair-wide entries that are not yet answered (R403): index, subindex, number of the write. -/
  waits : List (Nat × Nat × Nat) := []
  /-- ns of the last emergency message sent. -/
  emcyAt : Option Nat := none
  /-- Causes that stand as last reported: their error codes with the entry that describes each (R443). -/
  causes : List (Nat × Nat) := []
  deriving DecidableEq, Repr

/-- The health summary before its first refresh: the fields with a reset value in R455 hold it. -/
def summaryReset : Bytes := [0x01, 0x96, 0x01, 0xA2] ++ zeros 32 ++ [0xFF, 0xFF] ++ zeros 26

/-- The two-wire target (R446 to R453). -/
structure TwiTarget where
  /-- 0 not addressed, 1 awaiting the pointer of a write, 2 storing bytes, 3 read. -/
  mode : Nat := 0
  /-- SDA is released until the next START or STOP (R449). -/
  released : Bool := false
  /-- SCL is held while the Bench wakes (R452). -/
  waking : Bool := false
  /-- Every data byte of the transfer is refused (R452). -/
  refusing : Bool := false
  /-- Snapshot of the health summary taken for the read (R451). -/
  snapshot : Bytes := []
  /-- The Bench's clocks are being started (R452). -/
  starting : Bool := false
  /-- The health summary as last refreshed (R455). -/
  summary : Bytes := summaryReset
  deriving DecidableEq, Repr

/-- The two-wire controller (R458 to R461). Transfers are numbered 0 the EEPROM, k + 1 sensor k. -/
structure TwcCtl where
  /-- Transfer that holds the controller. -/
  now : Option Nat := none
  /-- 0 to check the bus, 1 on the bus, 2 waiting until the bus is free, 3 waiting 1 ms, 4 waiting 10 ms. -/
  phase : Nat := 0
  /-- Retries made. -/
  tries : Nat := 0
  /-- Transfers that wait. -/
  queue : List Nat := []
  deriving DecidableEq, Repr

/-! ### Discovery (R370 to R374) -/

/-- A LINK_REPORT (R372): EUI, priority and pin, and per LINKED port its number, width, NET_RATE, neighbour and DOVETAIL flag. -/
structure Report where
  eui : Nat
  priority : Nat
  pin : Nat
  recs : List (Nat × Nat × Nat × Nat × Bool)
  deriving DecidableEq, Repr

/-- The tree as this node sees it (R372). -/
structure Tree where
  /-- Best root: EUI, priority, own distance and root port. -/
  rootEui : Nat := 0
  rootPri : Nat := 0
  dist : Nat := 0
  rootPort : Option Nat := none
  /-- Reports received since the node became the root, newest of each EUI. -/
  reports : List Report := []
  /-- The report last sent. -/
  sent : Option Report := none
  /-- Frames of a new MAP received so far: epoch, total, and payloads by number. -/
  epoch : Nat := 0
  total : Nat := 0
  parts : SMap Bytes := []
  deriving DecidableEq, Repr

/-! ### The module's life (R464 to R489) -/

/-- A firmware bank (R478): the bytes loaded, none for the image of shipment, and whether its image was found valid (R479). -/
structure Bank where
  bytes : Bytes := []
  valid : Bool := false
  /-- It holds the image of shipment. -/
  shipped : Bool := false
  deriving DecidableEq, Repr

/-- A copy of the configuration store (R431): its CRC is right, its generation, its values by key. -/
structure Store where
  /-- The copy has been written. -/
  valid : Bool := false
  gen : Nat := 0
  vals : SMap Val := []
  /-- Its CRC-32C over generation and values (R431). -/
  crc : Nat := 0
  deriving DecidableEq, Repr

/-- A bulk transfer (R482). -/
structure Bulk where
  /-- 1 firmware image, 2 Almanac export. -/
  object : Nat
  node : Nat
  num : Nat
  total : Nat
  data : Bytes := []
  /-- Bytes received without a gap, or acknowledged. -/
  acked : Nat := 0
  /-- The next byte to send. -/
  next : Nat := 0
  resends : Nat := 0
  /-- ns of the latest BULK_ACK or of what was sent after it. -/
  at_ : Nat := 0
  deriving DecidableEq, Repr

/-- A record of the Almanac log (R484): kind in the order of its table, instant and era, and its content. -/
structure LogRec where
  kind : Nat
  time : TW64
  era : Nat
  args : List Nat
  deriving DecidableEq, Repr

/-- A part of R486: consumption since manufacture, and of each of the last 2,160 powered hours, newest first, in
2^-32 equivalent hour. -/
structure Part where
  used : Nat := 0
  recent : List Nat := []
  /-- Consumption of the present hour outside AF. -/
  extra : Nat := 0
  deriving DecidableEq, Repr

/-- The Almanac (R484 to R487). -/
structure Almanac where
  log : List LogRec := []
  parts : SMap Part := []
  /-- Samples and their sum in the present hour, in 0.1 °C, by island times 26 plus bin (R486). -/
  hour : SMap (Nat × Int) := []
  /-- Turning points of the hottest junction and of the plate: last extreme and direction (rising) (R484, R486). -/
  swing : Option (Int × Int) := none
  plate : Option (Int × Int) := none
  /-- Swings of the hottest junction by amplitude in bins of 10 °C. -/
  swings : SMap Nat := []
  /-- Corrected errors per stack and hour of the last 720 hours, newest first (R487). -/
  ce : SMap (List Nat) := []
  /-- LOSS of each lane in the carrier table (R55). -/
  loss : SMap Nat := []
  /-- First EYE_UP, EYE_MID and EYE_LOW of a lane, and those of the last 720 powered hours with the hour (R487). -/
  eyeFirst : SMap (Nat × Nat × Nat) := []
  eyes : List (Nat × Nat × Nat × Nat × Nat) := []
  /-- Calendar in force: CAL_ERA, CAL_TW64, CAL_TAI, CAL_UTC (R485). -/
  cal : Nat × Nat × Nat × Nat := (0, 0, 0, 37)
  /-- Minutes of the present hour's samples not yet counted as whole minutes, in seconds, per island and bin. -/
  secs : SMap Nat := []
  deriving DecidableEq, Repr

/-- The module's life beside its entries at 0x6C00, 0x6C10 and 0x7000. -/
structure Life where
  /-- The supply has reached 44 V since OFF, so that the Bench runs; the sense loop is closed (R472). -/
  supply : Bool := false
  sense : Bool := false
  /-- ns of the removal warning (R473). -/
  removal : Option Nat := none
  /-- Entries of islands into recovery: island and ns (R475). -/
  recoveries : List (Nat × Nat) := []
  /-- ns of the Bench watchdog's expiries (R476). -/
  expiries : List Nat := []
  /-- The Bench's cores run in DORMANT (R452, R471). -/
  awake : Bool := false
  /-- Neither bank is valid: the Bench serves for loading alone (R479). -/
  bootless : Bool := false
  banks : Bank × Bank := ({}, {})
  /-- FW_CMD 2 was accepted (R480). -/
  activate : Bool := false
  /-- ns of the start of a trial; and ns at which the module first stood in READY, STANDBY or ACTIVE in it (R481). -/
  trial : Option Nat := none
  trialUp : Option Nat := none
  /-- First FUSE_CMD write: path and ns; the second has come (R483). -/
  fuse : Option (Nat × Nat) := none
  blowing : Bool := false
  stores : Store × Store := ({}, {})
  /-- RESTORE_DEFAULTS has marked the store (R433). -/
  restore : Bool := false
  /-- Bulk transfers received and sent (R482). -/
  recv : Option Bulk := none
  send : Option Bulk := none
  /-- The supply is out of its operating range (R496). -/
  outRange : Bool := false
  /-- The hottest junction is above its operating limit (R396, R443). -/
  hot : Bool := false
  /-- The host island is in recovery for another cause than its data link (R396). -/
  hostFault : Bool := false
  deriving DecidableEq, Repr

/-! ### The module -/

/-- Everything the module holds beside its HBM and the queue of waiting commands. -/
structure Mach where
  /-- The object dictionary (R423): every entry that differs from its default, by index times 256 plus subindex. -/
  dict : SMap Val := []
  /-- The free-running local tick counter (R286). -/
  ltc : BitVec 64 := 0
  /-- The model's own field: how many free values (`Config.freeValue`) have been taken. -/
  free : Nat := 0
  /-- SLOT_ID[2:0] as sampled at start-up (R390, R472). -/
  slotId : Nat := 0
  /-- The model's own record of what has left the contacts, oldest first. -/
  out : List Out := []
  lanes : SMap Lane := []
  txLanes : SMap LaneTx := []
  txPorts : SMap PortTx := []
  quads : SMap Quad := []
  ports : SMap Port := []
  streams : SMap Stream := []
  /-- Verdicts asked for and not yet given, in order (R112). -/
  verdicts : List Verdict := []
  /-- Number of the next verdict asked for. -/
  verdictNo : Nat := 0
  /-- Stops (3) and releases (4) of other streams held back by a verdict, as (stream, command) (R112). -/
  deferred : List (Nat × Nat) := []
  /-- Last ADMIT_EPOCH given (R134). -/
  admits : Nat := 0
  planers : SMap Planer := []
  tabs : Tables := {}
  ep : Endpoint := {}
  chans : SMap Chan := []
  engine : Engine := {}
  fports : SMap FPort := []
  fabMap : FabMap := {}
  fwds : SMap Fwd := []
  holds : List Hold := []
  /-- Next FSEQ of the module on classes other than TC2, and of each flow it sends (R368). -/
  fseq : Nat := 0
  flowSeq : SMap Nat := []
  /-- Events that have entered the hub in the present hub cycle, in order (R306, R307). -/
  hub : List Event := []
  tasks : SMap Task := []
  pins : SMap Pin := []
  pair : Pair := {}
  pos : SMap PosChan := []
  /-- Halves of COUNT and SAMPLE_TIME pairs whose other half has been read (R246). -/
  readPairs : List ReadPair := []
  mgs : SMap Sequencer := []
  /-- Timed triggers held back for want of authority (R262). -/
  held : List HeldTrig := []
  mallet : Mallet := {}
  vports : SMap ValvePort := []
  time : TimeBase := {}
  mb : Mailbox := {}
  gw : Gateway := {}
  server : DictServer := {}
  can : CanNode := {}
  twi : TwiTarget := {}
  twc : TwcCtl := {}
  tree : Tree := {}
  life : Life := {}
  almanac : Almanac := {}
  /-- A drain of the module runs: 1 toward DORMANT, 2 toward OFF (R468, R469, R473). -/
  drainTo : Nat := 0
  /-- ns at which the conditions of causes 2 and 8 of R124 last failed. -/
  fail2 : Option Nat := none
  fail8 : Option Nat := none
  deriving DecidableEq, Repr

/-- The machine: the commands waiting (first in, first out), the HBM and the module. -/
structure State where
  pending : List Instr := []
  /-- HBM contents in canonical form (`Memory.wf`). -/
  hbm : Memory := []
  m : Mach := {}
  deriving DecidableEq, Repr

/-- The machine right after reset: the module is OFF (R467), every entry holds its default, HBM lists
nothing and no command waits. As shipped, both firmware banks and one copy of the configuration store are valid
(notes/assumptions/3.md). -/
def State.reset : State := { m := { life := { banks := ({ valid := true, shipped := true }, { valid := true, shipped := true }), stores := ({ valid := true, crc := 0x48674BC7 }, {}) } } }

end Sys2Proof.Machine
end

