-- ==== Sys2Proof/Machine/Entries.lean ====
section
/-! DEFINITION. The object dictionary as a table: every entry of the spec with its type, access code,
default and range (R15, R16, R423, R424, R427). The chapters' own tables give each row. An entry whose
default the spec leaves as a dash starts at 0 unless a log entry names another value (notes/assumptions/1.md). -/

namespace Sys2Proof.Machine

/-- The type of an entry (R16, R424), with widths in bytes. -/
inductive Ty where
  | bool
  | u (bytes : Nat)
  | i (bytes : Nat)
  | real32
  | tw64
  | q (m n : Nat)
  | s (m n : Nat)
  /-- STRING of at most `max` bytes. -/
  | str (max : Nat)
  /-- Fixed-size DOMAIN. -/
  | dom (size : Nat)
  /-- DOMAIN of `lo` to `hi` bytes in whole elements of `elem` bytes. -/
  | domVar (lo hi elem : Nat)
  deriving DecidableEq, Repr

/-- Access code without P (R15). -/
inductive Acc where
  | ro | rw | wo | rwq | const
  deriving DecidableEq, Repr

/-- Range form (R427). -/
inductive Rng where
  /-- Every value of the type. -/
  | any
  /-- An interval, or a set of numbers and intervals. -/
  | ivs (l : List (Int × Int))
  /-- An enumeration: every legal value has a name. -/
  | enum (l : List Nat)
  /-- A bit field: the bits that exist. -/
  | mask (m : Nat)
  /-- A multiple of `a`. -/
  | align (a : Nat)
  /-- A key entry: any other value is without effect (R433). -/
  | key (k : Nat)
  /-- A range that another entry or the owning chapter decides (`boundRange`). -/
  | bound
  deriving DecidableEq, Repr

/-- One row of a dictionary table. Indices `base` to `base + count - 1`, subindices `sub` to `sub + subs - 1`. -/
structure Entry where
  base : Nat
  count : Nat
  sub : Nat
  subs : Nat
  ty : Ty
  acc : Acc
  persist : Bool
  dflt : Val
  rng : Rng
  deriving DecidableEq, Repr

/-- The dictionary key of instance `k` of an entry: index times 256 plus subindex (R423). -/
def Entry.key (e : Entry) (k : Nat) : Nat :=
  if e.subs = 1 then (e.base + k) * 256 + e.sub else e.base * 256 + e.sub + k

/-- How many instances an entry row stands for. -/
def Entry.size (e : Entry) : Nat := e.count * e.subs

/-- The bytes of an ASCII text. -/
def ascii (t : String) : Bytes := t.toList.map fun c => BitVec.ofNat 8 c.toNat

/-- The decimal digits of a number below 256, without leading zeros. -/
def decText (n : Nat) : Bytes :=
  (if 100 ≤ n then [BitVec.ofNat 8 (48 + n / 100)] else []) ++
  (if 10 ≤ n then [BitVec.ofNat 8 (48 + n / 10 % 10)] else []) ++ [BitVec.ofNat 8 (48 + n % 10)]

/-- SW_VERSION of a release B3.x.y (R445). -/
def swVersion : Bytes :=
  ascii "B3." ++ decText (Config.releaseXY / 256) ++ ascii "." ++ decText (Config.releaseXY % 256)

/-- `n` copies of `b` in a row. -/
def rep (n : Nat) (b : Bytes) : Bytes := (List.replicate n b).flatten

/-- The nominal rate of the time word (R286): 0x0000_00B6_DB6D_B6DB. -/
def RATE_NOM : Nat := 0xB6DB6DB6DB

/-- Default frame-parameter set (R170, R196). -/
def frameDefault : Bytes :=
  zeros 32 ++ rep 16 (leBytes 2 16384) ++ zeros 32 ++ zeros 64 ++ rep 8 (leBytes 2 4096) ++ zeros 80 ++
  ((List.range 64).map fun j => leBytes 2 (if j / 8 = j % 8 then 4096 else 0)).flatten ++ zeros 128

/-- Default of CSC_MATRIX (R212): the identity in s2.14. -/
def cscDefault : Bytes :=
  ((List.range 9).map fun j => leBytes 2 (if j / 3 = j % 3 then 16384 else 0)).flatten

/-- Equalisation words 1 to 3 of a lane without a table record (R56). -/
def eqDefault : Nat × Nat × Nat := (0xE860F800, 0x0000820C, 0)

/-- 0x2000.01–.18, R62: Quad role (R18) -/
def E.QUAD_ROLE : Entry := ⟨0x2000, 1, 0x01, 24, .u 1, .rwq, true, .num 0, .enum [0, 1, 2]⟩
/-- 0x2001.01–.18, R62: Port-forming code (R19) -/
def E.QUAD_PORTS : Entry := ⟨0x2001, 1, 0x01, 24, .u 1, .rwq, true, .num 0, .ivs [(0, 4)]⟩
/-- 0x2002.00, R62: Reference selection. A preferred input is reselected as soon as it is  -/
def E.REF_POLICY : Entry := ⟨0x2002, 1, 0x00, 1, .u 1, .rw, true, .num 0, .enum [0, 1, 2, 3]⟩
/-- 0x2003.01, R62: Input in use -/
def E.REF_SELECTED : Entry := ⟨0x2003, 1, 0x01, 1, .u 1, .ro, false, .num 0, .any⟩
/-- 0x2003.02, R62: Validity under R24 -/
def E.REF_VALID : Entry := ⟨0x2003, 1, 0x02, 1, .u 1, .ro, false, .num 0, .any⟩
/-- 0x2003.03, R62: Holdover under R25 -/
def E.REF_HOLDOVER : Entry := ⟨0x2003, 1, 0x03, 1, .bool, .ro, false, .num 0, .any⟩
/-- 0x2003.04, R62: Switchovers -/
def E.REF_SWITCHES : Entry := ⟨0x2003, 1, 0x04, 1, .u 4, .ro, false, .num 0, .any⟩
/-- 0x2004.00, R62: Declared down-spread s (R26) -/
def E.SPREAD_DEPTH : Entry := ⟨0x2004, 1, 0x00, 1, .u 2, .rw, true, .num 0, .ivs [(0, 30)]⟩
/-- 0x2005.00, R62: Eye measurement interval -/
def E.EYE_PERIOD : Entry := ⟨0x2005, 1, 0x00, 1, .u 2, .rw, true, .num 600, .ivs [(10, 3600)]⟩
/-- 0x2006.00, R62: Table validity (R56) -/
def E.EQ_TABLE_STATUS : Entry := ⟨0x2006, 1, 0x00, 1, .u 1, .ro, false, .num 0, .any⟩
/-- 0x2007.00, R62: REVISION of the table read -/
def E.EQ_TABLE_REV : Entry := ⟨0x2007, 1, 0x00, 1, .u 2, .ro, false, .num 0, .any⟩
/-- 0x2008.00, R62: Dwell of the Bench search -/
def E.SEARCH_DWELL : Entry := ⟨0x2008, 1, 0x00, 1, .u 2, .rw, true, .num 2000, .ivs [(1000, 20000)]⟩
/-- 0x2100+L.01, R62: DOWN, SEEKING, LOCKED, ALIGNED -/
def E.LANE_STATE : Entry := ⟨0x2100, 96, 0x01, 1, .u 1, .ro, false, .num 0, .any⟩
/-- 0x2100+L.02, R62: Transmit taps. Before the table is read it holds word 1 of the default record: DESIGN CHOICE (notes/assumptions/56.md). -/
def E.TX_FIR : Entry := ⟨0x2100, 96, 0x02, 1, .u 4, .rwq, false, .num eqDefault.1, .mask 0xFFFFFFFF⟩
/-- 0x2100+L.03, R62: CTLE, VGA, DFE1–2. Before the table is read it holds word 2 of the default record: DESIGN CHOICE
(notes/assumptions/56.md). -/
def E.RX_EQ : Entry := ⟨0x2100, 96, 0x03, 1, .u 4, .rwq, false, .num eqDefault.2.1, .mask 0xFFFFFFFF⟩
/-- 0x2100+L.04, R62: DFE3–6. Before the table is read it holds word 3 of the default record: DESIGN CHOICE (notes/assumptions/56.md). -/
def E.RX_DFE : Entry := ⟨0x2100, 96, 0x04, 1, .u 4, .rwq, false, .num eqDefault.2.2, .mask 0xFFFFFFFF⟩
/-- 0x2100+L.05, R62: TX_INV, RX_INV, TX_PRECODE, RX_PRECODE. Before the table is read it holds the flags of the default record: DESIGN CHOICE
(notes/assumptions/56.md). -/
def E.LANE_FLAGS : Entry := ⟨0x2100, 96, 0x05, 1, .u 1, .rwq, false, .num 0, .mask 0xF⟩
/-- 0x2100+L.06, R62: Settings source (R56) -/
def E.EQ_SOURCE : Entry := ⟨0x2100, 96, 0x06, 1, .u 1, .ro, false, .num 0, .any⟩
/-- 0x2100+L.07, R62: Test loop (R60) -/
def E.LOOP_MODE : Entry := ⟨0x2100, 96, 0x07, 1, .u 1, .rwq, false, .num 0, .ivs [(0, 3)]⟩
/-- 0x2100+L.08, R62: Who searches (R47) -/
def E.SEARCH_MODE : Entry := ⟨0x2100, 96, 0x08, 1, .u 1, .rw, true, .num 0, .enum [0, 1]⟩
/-- 0x2100+L.09, R62: Writing 1 issues one slip in manual mode -/
def E.SLIP : Entry := ⟨0x2100, 96, 0x09, 1, .u 1, .wo, false, .num 0, .ivs [(0, 1)]⟩
/-- 0x2100+L.0A, R62: Lock indicator (R45) -/
def E.BLK_LOCK : Entry := ⟨0x2100, 96, 0x0A, 1, .bool, .ro, false, .num 0, .any⟩
/-- 0x2100+L.0B, R62: Slips issued -/
def E.SLIPS : Entry := ⟨0x2100, 96, 0x0B, 1, .u 4, .ro, false, .num 0, .any⟩
/-- 0x2100+L.0C, R62: Losses under R50 and R61 -/
def E.LOCK_LOSSES : Entry := ⟨0x2100, 96, 0x0C, 1, .u 4, .ro, false, .num 0, .any⟩
/-- 0x2100+L.0D, R62: Failed passes -/
def E.SEARCH_FAILS : Entry := ⟨0x2100, 96, 0x0D, 1, .u 4, .ro, false, .num 0, .any⟩
/-- 0x2100+L.0E, R62: Corrected codewords -/
def E.CW_CORRECTED : Entry := ⟨0x2100, 96, 0x0E, 1, .u 8, .ro, false, .num 0, .any⟩
/-- 0x2100+L.0F, R62: Corrected symbols -/
def E.SYM_CORRECTED : Entry := ⟨0x2100, 96, 0x0F, 1, .u 8, .ro, false, .num 0, .any⟩
/-- 0x2100+L.10, R62: Uncorrectable codewords -/
def E.CW_UNCORRECTABLE : Entry := ⟨0x2100, 96, 0x10, 1, .u 8, .ro, false, .num 0, .any⟩
/-- 0x2100+L.11, R62: Bad or missing markers -/
def E.AM_BAD : Entry := ⟨0x2100, 96, 0x11, 1, .u 4, .ro, false, .num 0, .any⟩
/-- 0x2100+L.12, R62: Identity mismatches -/
def E.AM_ID_MISMATCH : Entry := ⟨0x2100, 96, 0x12, 1, .u 4, .ro, false, .num 0, .any⟩
/-- 0x2100+L.13, R62: Last eye measurement -/
def E.EYE_LAST : Entry := ⟨0x2100, 96, 0x13, 1, .u 8, .ro, false, .num 0, .any⟩
/-- 0x2200+p.01, R62: Port state (R51) -/
def E.PORT_STATE : Entry := ⟨0x2200, 96, 0x01, 1, .u 1, .ro, false, .num 0, .any⟩
/-- 0x2200+p.02, R62: 0 when p names no port -/
def E.PORT_WIDTH : Entry := ⟨0x2200, 96, 0x02, 1, .u 1, .ro, false, .num 0, .any⟩
/-- 0x2200+p.03, R62: Measured lane skew -/
def E.PORT_SKEW : Entry := ⟨0x2200, 96, 0x03, 1, .u 2, .ro, false, .num 0, .any⟩
/-- 0x2200+p.04, R62: Reason below ALIGNED (R52) -/
def E.PORT_HOLD : Entry := ⟨0x2200, 96, 0x04, 1, .u 1, .ro, false, .num 0, .any⟩
/-- 0x2200+p.05, R62: Framing errors (R34, R35) -/
def E.FRAMING_ERRORS : Entry := ⟨0x2200, 96, 0x05, 1, .u 4, .ro, false, .num 0, .any⟩
/-- 0x2200+p.06, R62: Port net rate at (1 − s) × nominal -/
def E.NET_RATE : Entry := ⟨0x2200, 96, 0x06, 1, .u 4, .ro, false, .num 0, .any⟩
/-- 0x2009.00, R107: ALIGNED time before LINKED (R74) -/
def E.LINK_SETTLE : Entry := ⟨0x2009, 1, 0x00, 1, .u 2, .rw, true, .num 1000, .ivs [(100, 10000)]⟩
/-- 0x200A.00, R107: Beacon interval (R95) -/
def E.BEACON_PERIOD : Entry := ⟨0x200A, 1, 0x00, 1, .u 2, .rw, true, .num 100, .ivs [(100, 1000)]⟩
/-- 0x200B.00, R107: Quiet time to leave squall (R104) -/
def E.SQUALL_CALM : Entry := ⟨0x200B, 1, 0x00, 1, .u 2, .rw, true, .num 10000, .ivs [(1000, 60000)]⟩
/-- 0x200C.00, R107: Silence before absent (R104) -/
def E.SILENCE_LINES : Entry := ⟨0x200C, 1, 0x00, 1, .u 2, .rw, true, .num 100, .ivs [(10, 10000)]⟩
/-- 0x2200+p.07, R107: Reason for FAULTED (R78) -/
def E.PORT_FAULT : Entry := ⟨0x2200, 96, 0x07, 1, .u 1, .ro, false, .num 0, .any⟩
/-- 0x2200+p.08, R107: R101 check 1 -/
def E.HCRC_ERRORS : Entry := ⟨0x2200, 96, 0x08, 1, .u 4, .ro, false, .num 0, .any⟩
/-- 0x2200+p.09, R107: R101 check 2 -/
def E.UNKNOWN_DT : Entry := ⟨0x2200, 96, 0x09, 1, .u 4, .ro, false, .num 0, .any⟩
/-- 0x2200+p.0A, R107: R101 check 4 -/
def E.UNKNOWN_VC : Entry := ⟨0x2200, 96, 0x0A, 1, .u 4, .ro, false, .num 0, .any⟩
/-- 0x2200+p.0B, R107: Refused control packets (R105) -/
def E.CTRL_EXCESS : Entry := ⟨0x2200, 96, 0x0B, 1, .u 4, .ro, false, .num 0, .any⟩
/-- 0x2200+p.0C, R107: Unmatched responses and ACKs -/
def E.UNSOLICITED : Entry := ⟨0x2200, 96, 0x0C, 1, .u 4, .ro, false, .num 0, .any⟩
/-- 0x2200+p.0D, R107: Control packets with a wrong or damaged payload (R105) -/
def E.CTRL_CRC_ERRORS : Entry := ⟨0x2200, 96, 0x0D, 1, .u 4, .ro, false, .num 0, .any⟩
/-- 0x2800+p.01, R107: An IDENTITY is accepted (R77) -/
def E.CAM_IDENTIFIED : Entry := ⟨0x2800, 96, 0x01, 1, .bool, .ro, false, .num 0, .any⟩
/-- 0x2800+p.02, R107: Accepted IDENTITY payload -/
def E.CAM_IDENTITY : Entry := ⟨0x2800, 96, 0x02, 1, .dom 64, .ro, false, .bytes (zeros 64), .any⟩
/-- 0x2800+p.03, R107: UPLINK of the camera's packets -/
def E.CAM_UPLINK : Entry := ⟨0x2800, 96, 0x03, 1, .u 1, .ro, false, .num 0, .any⟩
/-- 0x2800+p.04, R107: Starts a transaction (R85) -/
def E.REG_CMD : Entry := ⟨0x2800, 96, 0x04, 1, .u 1, .wo, false, .num 0, .ivs [(1, 3)]⟩
/-- 0x2800+p.05, R107: Register address -/
def E.REG_ADDR : Entry := ⟨0x2800, 96, 0x05, 1, .u 4, .rw, false, .num 0, .align 4⟩
/-- 0x2800+p.06, R107: Words to transfer -/
def E.REG_COUNT : Entry := ⟨0x2800, 96, 0x06, 1, .u 1, .rw, false, .num 1, .ivs [(1, 64)]⟩
/-- 0x2800+p.07, R107: Data to write or data read -/
def E.REG_DATA : Entry := ⟨0x2800, 96, 0x07, 1, .domVar 4 256 4, .rw, false, .bytes (zeros 4), .any⟩
/-- 0x2800+p.08, R107: 0 idle, 1 busy, 2 done, 3 camera error, 4 failed, 5 not owner -/
def E.REG_STATUS : Entry := ⟨0x2800, 96, 0x08, 1, .u 1, .ro, false, .num 0, .any⟩
/-- 0x2800+p.09, R107: STATUS of the last response -/
def E.REG_CAM_STATUS : Entry := ⟨0x2800, 96, 0x09, 1, .u 1, .ro, false, .num 0, .any⟩
/-- 0x2800+p.0A, R107: Tag of the last settings write (R86) -/
def E.LAST_TAG : Entry := ⟨0x2800, 96, 0x0A, 1, .u 2, .ro, false, .num 0, .any⟩
/-- 0x2800+p.0B, R107: [63:32] EXEC_FRAME, [31:0] EXEC_LINE (R88) -/
def E.LAST_EXEC : Entry := ⟨0x2800, 96, 0x0B, 1, .u 8, .ro, false, .num 0, .any⟩
/-- 0x2800+p.0C, R107: Register resends -/
def E.REG_RESENDS : Entry := ⟨0x2800, 96, 0x0C, 1, .u 4, .ro, false, .num 0, .any⟩
/-- 0x2800+p.0D, R107: Failed transactions -/
def E.REG_FAILURES : Entry := ⟨0x2800, 96, 0x0D, 1, .u 4, .ro, false, .num 0, .any⟩
/-- 0x2800+p.0E, R107: ACK statuses 1, 4, 5 -/
def E.TRIG_LATE : Entry := ⟨0x2800, 96, 0x0E, 1, .u 4, .ro, false, .num 0, .any⟩
/-- 0x2800+p.0F, R107: ACK statuses 2, 6 -/
def E.TRIG_FULL : Entry := ⟨0x2800, 96, 0x0F, 1, .u 4, .ro, false, .num 0, .any⟩
/-- 0x2800+p.10, R107: Trigger resends -/
def E.TRIG_RESENDS : Entry := ⟨0x2800, 96, 0x10, 1, .u 4, .ro, false, .num 0, .any⟩
/-- 0x2800+p.11, R107: One-way delay (R95) -/
def E.LINK_DELAY : Entry := ⟨0x2800, 96, 0x11, 1, .u 4, .ro, false, .num 0, .any⟩
/-- 0x2800+p.12, R107: Asymmetry correction (R97) -/
def E.ASYM_CORR : Entry := ⟨0x2800, 96, 0x12, 1, .i 4, .rw, true, .num 0, .ivs [(-25600, 25600)]⟩
/-- 0x2800+p.13, R107: Last camera offset (R96) -/
def E.CAM_OFFSET : Entry := ⟨0x2800, 96, 0x13, 1, .i 4, .ro, false, .num 0, .any⟩
/-- 0x2800+p.14, R107: Beacons without an ACK -/
def E.BEACON_MISSES : Entry := ⟨0x2800, 96, 0x14, 1, .u 4, .ro, false, .num 0, .any⟩
/-- 0x2800+p.15, R107: Settings state unknown (R82) -/
def E.TAG_UNCERTAIN : Entry := ⟨0x2800, 96, 0x15, 1, .bool, .ro, false, .num 0, .any⟩
/-- 0x2800+p.16, R107: Accepted CAM_EVENT packets -/
def E.CAM_EVENTS : Entry := ⟨0x2800, 96, 0x16, 1, .u 4, .ro, false, .num 0, .any⟩
/-- 0x2800+p.17, R107: Word 0 of the last CAM_EVENT -/
def E.LAST_CAM_EVENT : Entry := ⟨0x2800, 96, 0x17, 1, .u 4, .ro, false, .num 0, .any⟩
/-- 0x2860.00, R107: Response timeout (R81) -/
def E.REG_TIMEOUT : Entry := ⟨0x2860, 1, 0x00, 1, .u 2, .rw, true, .num 2000, .ivs [(500, 10000)]⟩
/-- 0x2861.00, R107: Resends before failure (R81) -/
def E.REG_RETRIES : Entry := ⟨0x2861, 1, 0x00, 1, .u 1, .rw, true, .num 3, .ivs [(0, 7)]⟩
/-- 0x2A00+s.01, R107: Policing state (R104) -/
def E.POLICE_STATE : Entry := ⟨0x2A00, 256, 0x01, 1, .u 1, .ro, false, .num 0, .any⟩
/-- 0x2A00+s.02, R107: Refused charges -/
def E.RATE_DROPS : Entry := ⟨0x2A00, 256, 0x02, 1, .u 4, .ro, false, .num 0, .any⟩
/-- 0x2A00+s.03, R107: R101 check 5 -/
def E.DT_MISMATCH : Entry := ⟨0x2A00, 256, 0x03, 1, .u 4, .ro, false, .num 0, .any⟩
/-- 0x2A00+s.04, R107: R101 check 9 -/
def E.OVERSIZE : Entry := ⟨0x2A00, 256, 0x04, 1, .u 4, .ro, false, .num 0, .any⟩
/-- 0x2A00+s.05, R107: Lines filled (R102) -/
def E.MISSING_LINES : Entry := ⟨0x2A00, 256, 0x05, 1, .u 4, .ro, false, .num 0, .any⟩
/-- 0x2A00+s.06, R107: Old lines and overlaps -/
def E.OUT_OF_ORDER : Entry := ⟨0x2A00, 256, 0x06, 1, .u 4, .ro, false, .num 0, .any⟩
/-- 0x2A00+s.07, R107: Gaps beyond 1,024 lines -/
def E.RESYNCS : Entry := ⟨0x2A00, 256, 0x07, 1, .u 4, .ro, false, .num 0, .any⟩
/-- 0x2A00+s.08, R107: Lines marked damaged -/
def E.DAMAGED_LINES : Entry := ⟨0x2A00, 256, 0x08, 1, .u 4, .ro, false, .num 0, .any⟩
/-- 0x2A00+s.09, R107: Entries to squall -/
def E.SQUALL_ENTRIES : Entry := ⟨0x2A00, 256, 0x09, 1, .u 4, .ro, false, .num 0, .any⟩
/-- 0x2A00+s.0A, R107: Lines written to the retention ring -/
def E.LINES_ACCEPTED : Entry := ⟨0x2A00, 256, 0x0A, 1, .u 8, .ro, false, .num 0, .any⟩
/-- 0x3100+s.01, R108: Camera port of the stream -/
def E.PORT : Entry := ⟨0x3100, 256, 0x01, 1, .u 1, .rwq, false, .num 0, .ivs [(0, 95)]⟩
/-- 0x3100+s.02, R108: Virtual channel on the port -/
def E.VC : Entry := ⟨0x3100, 256, 0x02, 1, .u 1, .rwq, false, .num 0, .ivs [(0, 15)]⟩
/-- 0x3100+s.03, R108: Line-scan or area-scan -/
def E.SCAN_MODE : Entry := ⟨0x3100, 256, 0x03, 1, .u 1, .rwq, false, .num 0, .enum [0, 1]⟩
/-- 0x3100+s.04, R108: Pixel data type (R67) -/
def E.DT : Entry := ⟨0x3100, 256, 0x04, 1, .u 1, .rwq, false, .num 10, .ivs [(8, 12)]⟩
/-- 0x3100+s.05, R108: Pixels per sensor row -/
def E.ROW_PIXELS : Entry := ⟨0x3100, 256, 0x05, 1, .u 4, .rwq, false, .num 16384, .ivs [(8, 65536)]⟩
/-- 0x3100+s.06, R108: Sensor rows per line (r) -/
def E.ROWS_PER_LINE : Entry := ⟨0x3100, 256, 0x06, 1, .u 1, .rwq, false, .num 1, .ivs [(1, 4)]⟩
/-- 0x3100+s.07, R108: Order of the rows' pixels within a line -/
def E.LINE_ORDER : Entry := ⟨0x3100, 256, 0x07, 1, .u 1, .rwq, false, .num 0, .enum [0, 1]⟩
/-- 0x3100+s.08, R108: Area frame height. Ignored in line-scan. -/
def E.FRAME_LINES : Entry := ⟨0x3100, 256, 0x08, 1, .u 4, .rwq, false, .num 1024, .ivs [(8, 1048576)]⟩
/-- 0x3100+s.09, R108: Fabric address of the node that receives the camera. 0xFFFF: this modu -/
def E.SOURCE_NODE : Entry := ⟨0x3100, 256, 0x09, 1, .u 2, .rwq, false, .num 0xFFFF, .ivs [(1, 4095), (65535, 65535)]⟩
/-- 0x3100+s.0A, R108: k of R73 -/
def E.PACKETS_PER_LINE : Entry := ⟨0x3100, 256, 0x0A, 1, .u 1, .rwq, false, .num 1, .ivs [(1, 64)]⟩
/-- 0x3100+s.0B, R108: Lmax of R73 and R103 -/
def E.LINE_RATE_MAX : Entry := ⟨0x3100, 256, 0x0B, 1, .u 4, .rw, false, .num 100000, .ivs [(1, 1000000)]⟩
/-- 0x3100+s.0C, R108: Slowest line rate for which lookahead is waited. 0, or a value above L -/
def E.LINE_RATE_MIN : Entry := ⟨0x3100, 256, 0x0C, 1, .u 4, .rw, false, .num 0, .ivs [(0, 1000000)]⟩
/-- 0x3100+s.0D, R108: Fmax of R73. 0 in line-scan. -/
def E.FRAME_RATE_MAX : Entry := ⟨0x3100, 256, 0x0D, 1, .u 4, .rw, false, .num 0, .ivs [(0, 1000000)]⟩
/-- 0x3100+s.0E, R108: Stripe height -/
def E.STRIPE_ROWS : Entry := ⟨0x3100, 256, 0x0E, 1, .u 2, .rw, false, .num 64, .ivs [(8, 1024)]⟩
/-- 0x3100+s.0F, R108: Planer profile -/
def E.PROFILE : Entry := ⟨0x3100, 256, 0x0F, 1, .u 1, .rw, false, .num 0, .ivs [(0, 63)]⟩
/-- 0x3100+s.10, R108: [0] stripes, [1] statistics, [2] object records, [3] tiles. Veneers ar -/
def E.OUTPUTS : Entry := ⟨0x3100, 256, 0x10, 1, .u 1, .rw, false, .num 4, .mask 0xF⟩
/-- 0x3100+s.11, R108: Class C channel for veneers -/
def E.DMA_VENEER : Entry := ⟨0x3100, 256, 0x11, 1, .u 1, .rw, false, .num 255, .ivs [(0, 127), (255, 255)]⟩
/-- 0x3100+s.12, R108: Class S channel for stripes -/
def E.DMA_STRIPE : Entry := ⟨0x3100, 256, 0x12, 1, .u 1, .rw, false, .num 255, .ivs [(0, 127), (255, 255)]⟩
/-- 0x3100+s.13, R108: Class C channel for statistics -/
def E.DMA_STATS : Entry := ⟨0x3100, 256, 0x13, 1, .u 1, .rw, false, .num 255, .ivs [(0, 127), (255, 255)]⟩
/-- 0x3100+s.14, R108: Class C channel for object records -/
def E.DMA_RECORD : Entry := ⟨0x3100, 256, 0x14, 1, .u 1, .rw, false, .num 255, .ivs [(0, 127), (255, 255)]⟩
/-- 0x3100+s.15, R108: Class S channel for tiles -/
def E.DMA_TILE : Entry := ⟨0x3100, 256, 0x15, 1, .u 1, .rw, false, .num 255, .ivs [(0, 127), (255, 255)]⟩
/-- 0x3100+s.16, R108: Host-write share for veneers -/
def E.SHARE_VENEER : Entry := ⟨0x3100, 256, 0x16, 1, .u 2, .rw, false, .num 1, .ivs [(1, 1000)]⟩
/-- 0x3100+s.17, R108: Share for stripes -/
def E.SHARE_STRIPE : Entry := ⟨0x3100, 256, 0x17, 1, .u 2, .rw, false, .num 0, .ivs [(0, 1000)]⟩
/-- 0x3100+s.18, R108: Share for statistics -/
def E.SHARE_STATS : Entry := ⟨0x3100, 256, 0x18, 1, .u 2, .rw, false, .num 0, .ivs [(0, 1000)]⟩
/-- 0x3100+s.19, R108: Share for records -/
def E.SHARE_RECORD : Entry := ⟨0x3100, 256, 0x19, 1, .u 2, .rw, false, .num 0, .ivs [(0, 1000)]⟩
/-- 0x3100+s.1A, R108: Share for tiles -/
def E.SHARE_TILE : Entry := ⟨0x3100, 256, 0x1A, 1, .u 2, .rw, false, .num 0, .ivs [(0, 1000)]⟩
/-- 0x3100+s.1B, R108: Records per stripe that the bound covers -/
def E.OBJ_MAX : Entry := ⟨0x3100, 256, 0x1B, 1, .u 2, .rw, false, .num 16, .ivs [(0, 4096)]⟩
/-- 0x3100+s.1C, R108: Tile bytes per stripe that the bound covers -/
def E.TILE_BYTES : Entry := ⟨0x3100, 256, 0x1C, 1, .u 4, .rw, false, .num 0, .ivs [(0, 16777216)]⟩
/-- 0x3100+s.1D, R108: Deadline -/
def E.DEADLINE : Entry := ⟨0x3100, 256, 0x1D, 1, .u 4, .rw, false, .num 250000, .ivs [(10000, 100000000)]⟩
/-- 0x3100+s.1E, R108: Allowance for late lookahead lines -/
def E.LOOK_GRACE : Entry := ⟨0x3100, 256, 0x1E, 1, .u 2, .rw, false, .num 2000, .ivs [(0, 50000)]⟩
/-- 0x3100+s.1F, R108: Longest host credit stall assumed -/
def E.CREDIT_STALL : Entry := ⟨0x3100, 256, 0x1F, 1, .u 2, .rw, false, .num 2000, .ivs [(500, 60000)]⟩
/-- 0x3100+s.20, R108: Retention ring depth -/
def E.RETAIN : Entry := ⟨0x3100, 256, 0x20, 1, .u 2, .rw, false, .num 64, .ivs [(64, 1000)]⟩
/-- 0x3100+s.21, R108: Bit n permits PLn. 0 is clamped to the default. -/
def E.PLANER_MASK : Entry := ⟨0x3100, 256, 0x21, 1, .u 2, .rw, false, .num 0xFFFF, .any⟩
/-- 0x3100+s.22, R108: Longest fabric route accepted for a remote stream -/
def E.MAX_HOPS : Entry := ⟨0x3100, 256, 0x22, 1, .u 1, .rw, false, .num 6, .ivs [(1, 6)]⟩
/-- 0x3100+s.23, R108: Settings latency for a camera with TAG_ECHO = 0. 0xFF takes SET_LATENC -/
def E.SET_LATENCY : Entry := ⟨0x3100, 256, 0x23, 1, .u 1, .rw, false, .num 255, .ivs [(0, 15), (255, 255)]⟩
/-- 0x3100+s.24, R108: Trigger packets per second that the stream's camera receives (R73) -/
def E.TRIG_RATE : Entry := ⟨0x3100, 256, 0x24, 1, .u 4, .rw, false, .num 0, .ivs [(0, 1000000)]⟩
/-- 0x3100+s.25, R108: Phase group (R120, step 6) -/
def E.PHASE_GROUP : Entry := ⟨0x3100, 256, 0x25, 1, .u 1, .rw, false, .num 0, .ivs [(0, 0), (1, 255)]⟩
/-- 0x3100+s.26, R108: Declared trigger phase within the group -/
def E.PHASE_NS : Entry := ⟨0x3100, 256, 0x26, 1, .u 4, .rw, false, .num 0, .ivs [(0, 1000000)]⟩
/-- 0x3000.00, R133: Step 5 limit -/
def E.HOST_SHARE_LIMIT : Entry := ⟨0x3000, 1, 0x00, 1, .u 2, .rw, true, .num 972, .ivs [(512, 1000)]⟩
/-- 0x3001.00, R133: Step 4 limit -/
def E.MEM_LIMIT : Entry := ⟨0x3001, 1, 0x00, 1, .u 2, .rw, true, .num 4600, .ivs [(1000, 4800)]⟩
/-- 0x3002.00, R133: HBM held for retention rings -/
def E.RETAIN_POOL : Entry := ⟨0x3002, 1, 0x00, 1, .u 4, .const, false, .num 122880, .any⟩
/-- 0x3003.00, R133: Resumption under R110 -/
def E.AUTO_RESUME : Entry := ⟨0x3003, 1, 0x00, 1, .bool, .rw, true, .num 1, .any⟩
/-- 0x3200+s.01, R133: State (R110) -/
def E.CONTRACT_STATE : Entry := ⟨0x3200, 256, 0x01, 1, .u 1, .ro, false, .num 0, .any⟩
/-- 0x3200+s.02, R133: Command (R111) -/
def E.CONTRACT_CMD : Entry := ⟨0x3200, 256, 0x02, 1, .u 1, .wo, false, .num 0, .ivs [(1, 5)]⟩
/-- 0x3200+s.03, R133: Change state (R128) -/
def E.CHANGE_STATE : Entry := ⟨0x3200, 256, 0x03, 1, .u 1, .ro, false, .num 0, .any⟩
/-- 0x3200+s.04, R133: Reason of the last refusal -/
def E.REJECT_REASON : Entry := ⟨0x3200, 256, 0x04, 1, .u 1, .ro, false, .num 0, .any⟩
/-- 0x3200+s.05, R133: Failing resource (R122) -/
def E.REJECT_DETAIL : Entry := ⟨0x3200, 256, 0x05, 1, .u 4, .ro, false, .num 0, .any⟩
/-- 0x3200+s.06, R133: Failing bound for reason 0x22 -/
def E.REJECT_BOUND : Entry := ⟨0x3200, 256, 0x06, 1, .u 4, .ro, false, .num 0, .any⟩
/-- 0x3200+s.07, R133: R110, R114 -/
def E.SUSPEND_REASON : Entry := ⟨0x3200, 256, 0x07, 1, .u 1, .ro, false, .num 0, .any⟩
/-- 0x3200+s.08, R133: Values in force (R108) of 0x3100+s.01–.26, in subindex order, each at  -/
def E.IN_FORCE : Entry := ⟨0x3200, 256, 0x08, 1, .dom 77, .ro, false, .bytes (zeros 77), .any⟩
/-- 0x3200+s.09, R133: Apply point (R128) -/
def E.APPLY_LINE : Entry := ⟨0x3200, 256, 0x09, 1, .u 8, .ro, false, .num 0, .any⟩
/-- 0x3200+s.0A, R133: Admissions and changes of this contract -/
def E.CONTRACT_EPOCH : Entry := ⟨0x3200, 256, 0x0A, 1, .u 4, .ro, false, .num 0, .any⟩
/-- 0x3400.01, R134: Σ H[c] -/
def E.SHARE_USED : Entry := ⟨0x3400, 1, 0x01, 1, .u 2, .ro, false, .num 0, .any⟩
/-- 0x3400.02, R134: Σ M -/
def E.MEM_USED : Entry := ⟨0x3400, 1, 0x02, 1, .u 4, .ro, false, .num 0, .any⟩
/-- 0x3400.03, R134: Σ Ret -/
def E.RETAIN_USED : Entry := ⟨0x3400, 1, 0x03, 1, .u 4, .ro, false, .num 0, .any⟩
/-- 0x3400.04, R134: E in force -/
def E.HOST_RATE : Entry := ⟨0x3400, 1, 0x04, 1, .u 1, .ro, false, .num 0, .any⟩
/-- 0x3400.05, R134: Verdicts given -/
def E.VERDICTS : Entry := ⟨0x3400, 1, 0x05, 1, .u 4, .ro, false, .num 0, .any⟩
/-- 0x3400.06, R134: Re-forecasts (R131) -/
def E.REFORECASTS : Entry := ⟨0x3400, 1, 0x06, 1, .u 4, .ro, false, .num 0, .any⟩
/-- 0x3500+s.01, R134: cdiv(B(s), 1,000) -/
def E.BOUND_NS : Entry := ⟨0x3500, 256, 0x01, 1, .u 4, .ro, false, .num 0, .any⟩
/-- 0x3500+s.02, R134: Planer placed -/
def E.PLANER : Entry := ⟨0x3500, 256, 0x02, 1, .u 1, .ro, false, .num 0, .any⟩
/-- 0x3500+s.03, R134: cdiv(C, 1,000); basis of the stripe watchdog -/
def E.STRIPE_TIME : Entry := ⟨0x3500, 256, 0x03, 1, .u 4, .ro, false, .num 0, .any⟩
/-- 0x3500+s.04, R134: cdiv(Lp(s), 1,000) -/
def E.PLANER_TERM : Entry := ⟨0x3500, 256, 0x04, 1, .u 4, .ro, false, .num 0, .any⟩
/-- 0x3500+s.05, R134: cdiv(Tlook, 1,000) -/
def E.LOOK_TERM : Entry := ⟨0x3500, 256, 0x05, 1, .u 4, .ro, false, .num 0, .any⟩
/-- 0x3500+s.06, R134: cdiv(Tdma, 1,000) -/
def E.DMA_TERM : Entry := ⟨0x3500, 256, 0x06, 1, .u 4, .ro, false, .num 0, .any⟩
/-- 0x3500+s.07, R134: cdiv(Tfab, 1,000) -/
def E.FABRIC_TERM : Entry := ⟨0x3500, 256, 0x07, 1, .u 4, .ro, false, .num 0, .any⟩
/-- 0x3500+s.08, R134: cdiv(C × 10^6, Pstr) -/
def E.UTIL : Entry := ⟨0x3500, 256, 0x08, 1, .u 4, .ro, false, .num 0, .any⟩
/-- 0x3500+s.09, R134: cdiv(M, 10^6) -/
def E.MEM_DEMAND : Entry := ⟨0x3500, 256, 0x09, 1, .u 4, .ro, false, .num 0, .any⟩
/-- 0x3500+s.0A, R134: Module-wide order of first admission -/
def E.ADMIT_EPOCH : Entry := ⟨0x3500, 256, 0x0A, 1, .u 4, .ro, false, .num 0, .any⟩
/-- 0x3500+s.0B, R134: Greatest delivery time (R127) -/
def E.WORST_SEEN : Entry := ⟨0x3500, 256, 0x0B, 1, .u 4, .ro, false, .num 0, .any⟩
/-- 0x3500+s.0C, R134: Late veneers -/
def E.MISSES : Entry := ⟨0x3500, 256, 0x0C, 1, .u 4, .ro, false, .num 0, .any⟩
/-- 0x3500+s.0D, R134: Cause (R127) -/
def E.LAST_MISS_CAUSE : Entry := ⟨0x3500, 256, 0x0D, 1, .u 1, .ro, false, .num 0, .any⟩
/-- 0x3500+s.0E, R134: Stripes that broke the phase condition of R124 -/
def E.PHASE_VIOLATIONS : Entry := ⟨0x3500, 256, 0x0E, 1, .u 4, .ro, false, .num 0, .any⟩
/-- 0x3600+p.01, R134: Step 6 sum -/
def E.PLANER_UTIL : Entry := ⟨0x3600, 16, 0x01, 1, .u 4, .ro, false, .num 0, .any⟩
/-- 0x3600+p.02, R134: Contexts placed -/
def E.PLANER_STREAMS : Entry := ⟨0x3600, 16, 0x02, 1, .u 1, .ro, false, .num 0, .any⟩
/-- 0x3600+p.03, R134: Greatest Lp on the planer -/
def E.PLANER_BUSY : Entry := ⟨0x3600, 16, 0x03, 1, .u 4, .ro, false, .num 0, .any⟩
/-- 0x3800.00, R158: Budget bucket depth (R142) -/
def E.BUDGET_DEPTH : Entry := ⟨0x3800, 1, 0x00, 1, .u 1, .rw, true, .num 2, .ivs [(1, 8)]⟩
/-- 0x3801.00, R158: Multiple of STRIPE_TIME (R155) -/
def E.WATCHDOG_FACTOR : Entry := ⟨0x3801, 1, 0x00, 1, .u 1, .const, false, .num 4, .any⟩
/-- 0x3802.00, R158: Set-table size (R149) -/
def E.SET_SLOTS : Entry := ⟨0x3802, 1, 0x00, 1, .u 1, .const, false, .num 8, .any⟩
/-- 0x3810+p.01, R158: Present activity -/
def E.PLANER_STATE : Entry := ⟨0x3810, 16, 0x01, 1, .u 1, .ro, false, .num 0, .any⟩
/-- 0x3810+p.02, R158: Stream of the last context used; 0xFFFF before the first stripe -/
def E.PLANER_CONTEXT : Entry := ⟨0x3810, 16, 0x02, 1, .u 2, .ro, false, .num 0xFFFF, .any⟩
/-- 0x3810+p.03, R158: Stripes finished -/
def E.PLANER_STRIPES : Entry := ⟨0x3810, 16, 0x03, 1, .u 8, .ro, false, .num 0, .any⟩
/-- 0x3810+p.04, R158: Kerfs outside replay slices (R146) -/
def E.KERFS : Entry := ⟨0x3810, 16, 0x04, 1, .u 8, .ro, false, .num 0, .any⟩
/-- 0x3810+p.05, R158: Cycles spent on stripes and kerfs -/
def E.BUSY_CYCLES : Entry := ⟨0x3810, 16, 0x05, 1, .u 8, .ro, false, .num 0, .any⟩
/-- 0x3810+p.06, R158: Replay slices taken (R144) -/
def E.SLICES_TAKEN : Entry := ⟨0x3810, 16, 0x06, 1, .u 4, .ro, false, .num 0, .any⟩
/-- 0x3810+p.07, R158: Most stripes ready at once -/
def E.READY_PEAK : Entry := ⟨0x3810, 16, 0x07, 1, .u 1, .ro, false, .num 0, .any⟩
/-- 0x3810+p.08, R158: Stripes aborted on the planer -/
def E.PL_WATCHDOG_TRIPS : Entry := ⟨0x3810, 16, 0x08, 1, .u 4, .ro, false, .num 0, .any⟩
/-- 0x3900+s.01, R158: Oldest unfinished stripe -/
def E.SCHED_STATE : Entry := ⟨0x3900, 256, 0x01, 1, .u 1, .ro, false, .num 0, .any⟩
/-- 0x3900+s.02, R158: Stripes finished -/
def E.STRIPES_DONE : Entry := ⟨0x3900, 256, 0x02, 1, .u 8, .ro, false, .num 0, .any⟩
/-- 0x3900+s.03, R158: [63:32] FRAME, [31:0] first LINE of the last finished stripe -/
def E.LAST_STRIPE : Entry := ⟨0x3900, 256, 0x03, 1, .u 8, .ro, false, .num 0, .any⟩
/-- 0x3900+s.04, R158: Stripes started over budget -/
def E.OVER_BUDGET : Entry := ⟨0x3900, 256, 0x04, 1, .u 4, .ro, false, .num 0, .any⟩
/-- 0x3900+s.05, R158: Stripes released short of lookahead -/
def E.EARLY_RELEASES : Entry := ⟨0x3900, 256, 0x05, 1, .u 4, .ro, false, .num 0, .any⟩
/-- 0x3900+s.06, R158: Stripes under two slots -/
def E.SET_SPLITS : Entry := ⟨0x3900, 256, 0x06, 1, .u 4, .ro, false, .num 0, .any⟩
/-- 0x3900+s.07, R158: Rows bound to a second slot in place of a later one -/
def E.SET_DEFERRED : Entry := ⟨0x3900, 256, 0x07, 1, .u 4, .ro, false, .num 0, .any⟩
/-- 0x3900+s.08, R158: Rows with an unmatched tag -/
def E.TAG_UNKNOWN : Entry := ⟨0x3900, 256, 0x08, 1, .u 4, .ro, false, .num 0, .any⟩
/-- 0x3900+s.09, R158: From-rows inside started stripes -/
def E.LATE_BINDS : Entry := ⟨0x3900, 256, 0x09, 1, .u 4, .ro, false, .num 0, .any⟩
/-- 0x3900+s.0A, R158: [47:32] tag, [31:0] sequence number of the slot of the last row proces -/
def E.SET_IN_USE : Entry := ⟨0x3900, 256, 0x0A, 1, .u 8, .ro, false, .num 0, .any⟩
/-- 0x3900+s.0B, R158: Occupied set slots -/
def E.SLOTS_USED : Entry := ⟨0x3900, 256, 0x0B, 1, .u 1, .ro, false, .num 0, .any⟩
/-- 0x3900+s.0C, R158: Staged frame-parameter set (R148) -/
def E.FRAME_PARAMS : Entry := ⟨0x3900, 256, 0x0C, 1, .dom 512, .rw, false, .bytes frameDefault, .any⟩
/-- 0x3900+s.0D, R158: Creates an untagged slot (R149) -/
def E.PARAMS_APPLY : Entry := ⟨0x3900, 256, 0x0D, 1, .u 1, .wo, false, .num 0, .key 1⟩
/-- 0x3900+s.0E, R158: Stripes of the stream aborted -/
def E.WATCHDOG_TRIPS : Entry := ⟨0x3900, 256, 0x0E, 1, .u 4, .ro, false, .num 0, .any⟩
/-- 0x3900+s.0F, R158: Stripes reporting SET_PROVISIONAL -/
def E.PROVISIONAL_STRIPES : Entry := ⟨0x3900, 256, 0x0F, 1, .u 4, .ro, false, .num 0, .any⟩
/-- 0x3900+s.10, R158: Greatest time from release to start -/
def E.WAIT_PEAK : Entry := ⟨0x3900, 256, 0x10, 1, .u 4, .ro, false, .num 0, .any⟩
/-- 0x3A00+n.01, R189: Mosaic period width Pw -/
def E.PERIOD_W : Entry := ⟨0x3A00, 64, 0x01, 1, .u 1, .rwq, true, .num 1, .ivs [(1, 4)]⟩
/-- 0x3A00+n.02, R189: Mosaic period height Ph (R164, R165) -/
def E.PERIOD_H : Entry := ⟨0x3A00, 64, 0x02, 1, .u 1, .rwq, true, .num 1, .ivs [(1, 4)]⟩
/-- 0x3A00+n.03, R189: Bands reconstructed -/
def E.BANDS : Entry := ⟨0x3A00, 64, 0x03, 1, .u 1, .rwq, true, .num 1, .ivs [(1, 8)]⟩
/-- 0x3A00+n.04, R189: Site table (R162, R163) -/
def E.PATTERN : Entry := ⟨0x3A00, 64, 0x04, 1, .dom 16, .rwq, true, .bytes (zeros 16), .any⟩
/-- 0x3A00+n.05, R189: Pattern phase at column 0, row 0 -/
def E.PHASE : Entry := ⟨0x3A00, 64, 0x05, 1, .u 1, .rwq, true, .num 0, .mask 0xF⟩
/-- 0x3A00+n.06, R189: Significant bits; 0 takes b (R168) -/
def E.SIG_BITS : Entry := ⟨0x3A00, 64, 0x06, 1, .u 1, .rw, true, .num 0, .ivs [(0, 0), (8, 16)]⟩
/-- 0x3A00+n.07, R189: Steps enabled (stage 2) -/
def E.STAGE_FLAGS : Entry := ⟨0x3A00, 64, 0x07, 1, .u 1, .rw, true, .num 0, .mask 0x3F⟩
/-- 0x3A00+n.08, R189: Outlier threshold; 0 disables (R174) -/
def E.OUT_K : Entry := ⟨0x3A00, 64, 0x08, 1, .u 1, .rw, true, .num 96, .ivs [(0, 255)]⟩
/-- 0x3A00+n.09, R189: Spatial weighting threshold (R175) -/
def E.SNR_K : Entry := ⟨0x3A00, 64, 0x09, 1, .u 1, .rw, true, .num 32, .ivs [(0, 255)]⟩
/-- 0x3A00+n.0A, R189: Spatial strength -/
def E.SNR_STR : Entry := ⟨0x3A00, 64, 0x0A, 1, .u 2, .rw, true, .num 256, .ivs [(0, 256)]⟩
/-- 0x3A00+n.0B, R189: Temporal threshold (R176) -/
def E.TNR_K : Entry := ⟨0x3A00, 64, 0x0B, 1, .u 1, .rw, true, .num 32, .ivs [(0, 255)]⟩
/-- 0x3A00+n.0C, R189: Present-frame weight at rest -/
def E.TNR_ALPHA : Entry := ⟨0x3A00, 64, 0x0C, 1, .u 2, .rw, true, .num 64, .ivs [(1, 256)]⟩
/-- 0x3A00+n.0D, R189: Coupling KD[c][a] (R184) -/
def E.DETAIL : Entry := ⟨0x3A00, 64, 0x0D, 1, .dom 128, .rw, true, .bytes (rep 64 (leBytes 2 4096)), .any⟩
/-- 0x3A00+n.0E, R189: Bands no site carries (R163) -/
def E.BANDS_MISSING : Entry := ⟨0x3A00, 64, 0x0E, 1, .u 1, .ro, false, .num 0, .any⟩
/-- 0x3A00+n.0F, R189: Active flat-field table (R179) -/
def E.FF_DIMS : Entry := ⟨0x3A00, 64, 0x0F, 1, .u 8, .ro, false, .num 0, .any⟩
/-- 0x3A00+n.10, R189: Active defect-map entries -/
def E.DEFECT_COUNT : Entry := ⟨0x3A00, 64, 0x10, 1, .u 4, .ro, false, .num 0, .any⟩
/-- 0x3A00+n.11, R189: Entries dropped at the last swap -/
def E.DEFECT_DROPPED : Entry := ⟨0x3A00, 64, 0x11, 1, .u 4, .ro, false, .num 0, .any⟩
/-- 0x3A00+n.1F, R189: Set copied into FRAME_PARAMS (R170) -/
def E.FRAME_DEFAULTS : Entry := ⟨0x3A00, 64, 0x1F, 1, .dom 512, .rw, true, .bytes frameDefault, .any⟩
/-- 0x3AF0.01, R190: Profile of the table to load -/
def E.TBL_PROFILE : Entry := ⟨0x3AF0, 1, 0x01, 1, .u 1, .rw, false, .num 0, .ivs [(0, 63)]⟩
/-- 0x3AF0.02, R190: Table to load -/
def E.TBL_KIND : Entry := ⟨0x3AF0, 1, 0x02, 1, .u 1, .rw, false, .num 1, .enum [1, 2, 3]⟩
/-- 0x3AF0.03, R190: Allocates the loading copy (R186) -/
def E.TBL_SIZE : Entry := ⟨0x3AF0, 1, 0x03, 1, .u 4, .rw, false, .num 0, .ivs [(0, 268435456)]⟩
/-- 0x3AF0.04, R190: Position of the next TBL_DATA write -/
def E.TBL_OFFSET : Entry := ⟨0x3AF0, 1, 0x04, 1, .u 4, .rw, false, .num 0, .bound⟩
/-- 0x3AF0.05, R190: Table bytes -/
def E.TBL_DATA : Entry := ⟨0x3AF0, 1, 0x05, 1, .domVar 1 4096 1, .wo, false, .bytes [], .any⟩
/-- 0x3AF0.06, R190: R186 -/
def E.TBL_CMD : Entry := ⟨0x3AF0, 1, 0x06, 1, .u 1, .wo, false, .num 0, .enum [1, 2]⟩
/-- 0x3AF0.07, R190: Loader state -/
def E.TBL_STATE : Entry := ⟨0x3AF0, 1, 0x07, 1, .u 1, .ro, false, .num 0, .any⟩
/-- 0x3AF0.08, R190: Free table pool -/
def E.TBL_POOL_FREE : Entry := ⟨0x3AF0, 1, 0x08, 1, .u 4, .ro, false, .num 4096, .any⟩
/-- 0x3AF1.00, R190: HBM held for tables and temporal references -/
def E.TABLE_POOL : Entry := ⟨0x3AF1, 1, 0x00, 1, .u 4, .const, false, .num 4096, .any⟩
/-- 0x3B00+s.01, R191: Mapped defects replaced (R173) -/
def E.DEFECTS_REPLACED : Entry := ⟨0x3B00, 256, 0x01, 1, .u 8, .ro, false, .num 0, .any⟩
/-- 0x3B00+s.02, R191: Mapped defects without usable neighbours -/
def E.DEFECTS_UNREPAIRED : Entry := ⟨0x3B00, 256, 0x02, 1, .u 4, .ro, false, .num 0, .any⟩
/-- 0x3B00+s.03, R191: Centres clamped to hi (R174) -/
def E.OUTLIERS_HIGH : Entry := ⟨0x3B00, 256, 0x03, 1, .u 8, .ro, false, .num 0, .any⟩
/-- 0x3B00+s.04, R191: Centres clamped to lo -/
def E.OUTLIERS_LOW : Entry := ⟨0x3B00, 256, 0x04, 1, .u 8, .ro, false, .num 0, .any⟩
/-- 0x3B00+s.05, R191: Clipped at 0 (R181) -/
def E.WB_CLIP_LOW : Entry := ⟨0x3B00, 256, 0x05, 1, .u 8, .ro, false, .num 0, .any⟩
/-- 0x3B00+s.06, R191: Clipped at 65,535 -/
def E.WB_CLIP_HIGH : Entry := ⟨0x3B00, 256, 0x06, 1, .u 8, .ro, false, .num 0, .any⟩
/-- 0x3B00+s.07, R191: Temporal motion case (R176) -/
def E.TNR_MOTION : Entry := ⟨0x3B00, 256, 0x07, 1, .u 8, .ro, false, .num 0, .any⟩
/-- 0x3B00+s.08, R191: Frames without reference buffers (R177) -/
def E.TNR_NO_POOL : Entry := ⟨0x3B00, 256, 0x08, 1, .u 4, .ro, false, .num 0, .any⟩
/-- 0x3A00+n.20, R213: Output channels of stage 6 (R194, R212) -/
def E.OUT_CH : Entry := ⟨0x3A00, 64, 0x20, 1, .u 1, .rwq, true, .num 1, .ivs [(1, 8)]⟩
/-- 0x3A00+n.21, R213: Channels toned (R200) -/
def E.TONE_MASK : Entry := ⟨0x3A00, 64, 0x21, 1, .u 1, .rw, true, .num 0, .any⟩
/-- 0x3A00+n.22, R213: Conversion (R201) -/
def E.CSC_MODE : Entry := ⟨0x3A00, 64, 0x22, 1, .u 1, .rw, true, .num 0, .ivs [(0, 3)]⟩
/-- 0x3A00+n.23, R213: User coefficients K[o][i] -/
def E.CSC_MATRIX : Entry := ⟨0x3A00, 64, 0x23, 1, .dom 18, .rw, true, .bytes cscDefault, .any⟩
/-- 0x3A00+n.24, R213: User offsets, I32, −65,535 to 65,535 -/
def E.CSC_OFFSET : Entry := ⟨0x3A00, 64, 0x24, 1, .dom 12, .rw, true, .bytes (zeros 12), .any⟩
/-- 0x3A00+n.25, R213: Stripe output format (R210, R212) -/
def E.OUT_FORMAT : Entry := ⟨0x3A00, 64, 0x25, 1, .u 1, .rwq, true, .num 1, .ivs [(0, 6)]⟩
/-- 0x3A00+n.26, R213: Tap point (R203) -/
def E.STATS_SRC : Entry := ⟨0x3A00, 64, 0x26, 1, .u 1, .rw, true, .num 1, .enum [0, 1]⟩
/-- 0x3A00+n.27, R213: Channels tapped (R212) -/
def E.STATS_CH : Entry := ⟨0x3A00, 64, 0x27, 1, .u 1, .rwq, true, .num 1, .ivs [(1, 255)]⟩
/-- 0x3A00+n.28, R213: Sections of the record (R212) -/
def E.STATS_EN : Entry := ⟨0x3A00, 64, 0x28, 1, .u 1, .rwq, true, .num 15, .mask 0xF⟩
/-- 0x3A00+n.29, R213: Zone columns (R205) -/
def E.ZONES_X : Entry := ⟨0x3A00, 64, 0x29, 1, .u 1, .rwq, true, .num 16, .ivs [(1, 64)]⟩
/-- 0x3A00+n.2A, R213: Zone rows in area-scan -/
def E.ZONES_Y : Entry := ⟨0x3A00, 64, 0x2A, 1, .u 1, .rwq, true, .num 16, .ivs [(1, 64)]⟩
/-- 0x3A00+n.2B, R213: Low clip threshold, inclusive -/
def E.CLIP_LO : Entry := ⟨0x3A00, 64, 0x2B, 1, .u 2, .rw, true, .num 0, .ivs [(0, 65535)]⟩
/-- 0x3A00+n.2C, R213: High clip threshold, inclusive -/
def E.CLIP_HI : Entry := ⟨0x3A00, 64, 0x2C, 1, .u 2, .rw, true, .num 65535, .ivs [(0, 65535)]⟩
/-- 0x3A00+n.2D, R213: Channel of the sharpness tap -/
def E.SHARP_CH : Entry := ⟨0x3A00, 64, 0x2D, 1, .u 1, .rw, true, .num 0, .ivs [(0, 7)]⟩
/-- 0x3A00+n.2E, R213: Active CH_COUNT (R199) -/
def E.TONE_LUTS : Entry := ⟨0x3A00, 64, 0x2E, 1, .u 1, .ro, false, .num 0, .any⟩
/-- 0x3B00+s.09, R214: Channel values clamped by stage 6 (R197) -/
def E.MATRIX_CLIPS : Entry := ⟨0x3B00, 256, 0x09, 1, .u 8, .ro, false, .num 0, .any⟩
/-- 0x3B00+s.0A, R214: Statistics records produced (R208) -/
def E.STATS_RECORDS : Entry := ⟨0x3B00, 256, 0x0A, 1, .u 8, .ro, false, .num 0, .any⟩
/-- 0x3B00+s.0B, R214: Records with SATURATED set (R206) -/
def E.STATS_SATURATED : Entry := ⟨0x3B00, 256, 0x0B, 1, .u 4, .ro, false, .num 0, .any⟩
/-- 0x4000+s.01, R237: Band tests (R220) -/
def E.THR_MODE : Entry := ⟨0x4000, 256, 0x01, 1, .u 2, .rw, true, .num 3, .any⟩
/-- 0x4000+s.02, R237: T[o], band o at byte offset 2o -/
def E.THRESHOLDS : Entry := ⟨0x4000, 256, 0x02, 1, .dom 16, .rw, true, .bytes (rep 8 (leBytes 2 2048)), .any⟩
/-- 0x4000+s.03, R237: Combination of band tests -/
def E.MASK_LOGIC : Entry := ⟨0x4000, 256, 0x03, 1, .u 1, .rw, true, .num 0, .enum [0, 1]⟩
/-- 0x4000+s.04, R237: Model time constant of 2^BG_SHIFT rows -/
def E.BG_SHIFT : Entry := ⟨0x4000, 256, 0x04, 1, .u 1, .rw, true, .num 10, .ivs [(1, 16)]⟩
/-- 0x4000+s.05, R237: Learning rows (R219) -/
def E.BG_LEARN : Entry := ⟨0x4000, 256, 0x05, 1, .u 2, .rw, true, .num 256, .ivs [(0, 65535)]⟩
/-- 0x4000+s.06, R237: Forced update after this foreground run -/
def E.BG_STALL : Entry := ⟨0x4000, 256, 0x06, 1, .u 4, .rw, true, .num 20000, .ivs [(0, 0), (16, 1048576)]⟩
/-- 0x4000+s.07, R237: Relearns the model (R219) -/
def E.BG_CMD : Entry := ⟨0x4000, 256, 0x07, 1, .u 1, .wo, false, .num 0, .key 1⟩
/-- 0x4000+s.08, R237: Smaller objects are discarded (R228) -/
def E.MIN_AREA : Entry := ⟨0x4000, 256, 0x08, 1, .u 4, .rw, true, .num 4, .ivs [(1, 16777216)]⟩
/-- 0x4000+s.09, R237: Truncation height (R224) -/
def E.OBJ_MAX_ROWS : Entry := ⟨0x4000, 256, 0x09, 1, .u 2, .rw, true, .num 4096, .ivs [(16, 65535)]⟩
/-- 0x4000+s.0A, R237: M of R235 -/
def E.TILE_MARGIN : Entry := ⟨0x4000, 256, 0x0A, 1, .u 1, .rw, true, .num 2, .ivs [(0, 4)]⟩
/-- 0x4000+s.0B, R237: Tile format (R236) -/
def E.TILE_FORMAT : Entry := ⟨0x4000, 256, 0x0B, 1, .u 1, .rw, true, .num 2, .mask 0x3⟩
/-- 0x4000+s.0C, R237: Least AREA with a tile (R234) -/
def E.TILE_MIN_AREA : Entry := ⟨0x4000, 256, 0x0C, 1, .u 4, .rw, true, .num 1, .ivs [(1, 16777216)]⟩
/-- 0x4000+s.0D, R237: Position channel of the line stamps (R217) -/
def E.POS_SRC : Entry := ⟨0x4000, 256, 0x0D, 1, .u 1, .rw, true, .num 255, .ivs [(0, 7), (255, 255)]⟩
/-- 0x4000+s.0E, R237: First sequence number (R228) -/
def E.OBJ_SEQ_BASE : Entry := ⟨0x4000, 256, 0x0E, 1, .u 8, .rw, true, .num 0, .ivs [(0, 72057594037927935)]⟩
/-- 0x4000+s.0F, R237: Next sequence number -/
def E.NEXT_SEQ : Entry := ⟨0x4000, 256, 0x0F, 1, .u 8, .ro, false, .num 0, .any⟩
/-- 0x4000+s.10, R237: R219 -/
def E.BG_STATE : Entry := ⟨0x4000, 256, 0x10, 1, .u 1, .ro, false, .num 0, .any⟩
/-- 0x4000+s.11, R237: Open objects -/
def E.OPEN_NOW : Entry := ⟨0x4000, 256, 0x11, 1, .u 2, .ro, false, .num 0, .any⟩
/-- 0x4100+s.01, R238: Records produced (R231) -/
def E.OBJECTS : Entry := ⟨0x4100, 256, 0x01, 1, .u 8, .ro, false, .num 0, .any⟩
/-- 0x4100+s.02, R238: Objects below MIN_AREA -/
def E.SMALL_DROPPED : Entry := ⟨0x4100, 256, 0x02, 1, .u 8, .ro, false, .num 0, .any⟩
/-- 0x4100+s.03, R238: Runs refused at 2,048 open objects (R227) -/
def E.OPEN_OVERFLOW : Entry := ⟨0x4100, 256, 0x03, 1, .u 4, .ro, false, .num 0, .any⟩
/-- 0x4100+s.04, R238: Runs refused at 4,096 new objects in a stripe -/
def E.NEW_OVERFLOW : Entry := ⟨0x4100, 256, 0x04, 1, .u 4, .ro, false, .num 0, .any⟩
/-- 0x4100+s.05, R238: Objects closed at OBJ_MAX_ROWS -/
def E.TRUNCATIONS : Entry := ⟨0x4100, 256, 0x05, 1, .u 4, .ro, false, .num 0, .any⟩
/-- 0x4100+s.06, R238: Objects closed EDGE_CLOSED -/
def E.EDGE_CLOSES : Entry := ⟨0x4100, 256, 0x06, 1, .u 4, .ro, false, .num 0, .any⟩
/-- 0x4100+s.07, R238: Records flagged AFTER_VENEER (R233) -/
def E.LATE_RECORDS : Entry := ⟨0x4100, 256, 0x07, 1, .u 8, .ro, false, .num 0, .any⟩
/-- 0x4100+s.08, R238: Most objects open at once -/
def E.OPEN_PEAK : Entry := ⟨0x4100, 256, 0x08, 1, .u 2, .ro, false, .num 0, .any⟩
/-- 0x4100+s.09, R238: Tiles built (R234) -/
def E.TILES : Entry := ⟨0x4100, 256, 0x09, 1, .u 8, .ro, false, .num 0, .any⟩
/-- 0x4100+s.0A, R238: Tiles flagged TILE_CLIPPED (R235) -/
def E.TILES_CLIPPED : Entry := ⟨0x4100, 256, 0x0A, 1, .u 4, .ro, false, .num 0, .any⟩
/-- 0x4100+s.0B, R238: Learning starts (R219) -/
def E.RELEARNS : Entry := ⟨0x4100, 256, 0x0B, 1, .u 4, .ro, false, .num 0, .any⟩
/-- 0x4100+s.0C, R238: Forced model updates (R220) -/
def E.BG_FORCED : Entry := ⟨0x4100, 256, 0x0C, 1, .u 8, .ro, false, .num 0, .any⟩
/-- 0x4100+s.0D, R238: Reserved sequence numbers left unused by a merge (R225) -/
def E.RESERVED_UNUSED : Entry := ⟨0x4100, 256, 0x0D, 1, .u 4, .ro, false, .num 0, .any⟩
/-- 0x4400+n.01, R263: Channel mode (R239) -/
def E.POS_MODE : Entry := ⟨0x4400, 8, 0x01, 1, .u 1, .rw, true, .num 0, .enum [0, 1, 2]⟩
/-- 0x4400+n.02, R263: 2^k counts per period (R241) -/
def E.INTERP_BITS : Entry := ⟨0x4400, 8, 0x02, 1, .u 1, .rw, true, .num 10, .ivs [(2, 12)]⟩
/-- 0x4400+n.03, R263: Reverses the count direction -/
def E.POS_INVERT : Entry := ⟨0x4400, 8, 0x03, 1, .bool, .rw, true, .num 0, .any⟩
/-- 0x4400+n.04, R263: Sin offset trim (R240) -/
def E.SIN_OFS : Entry := ⟨0x4400, 8, 0x04, 1, .i 2, .rw, true, .num 0, .ivs [(-512, 511)]⟩
/-- 0x4400+n.05, R263: Cos offset trim -/
def E.COS_OFS : Entry := ⟨0x4400, 8, 0x05, 1, .i 2, .rw, true, .num 0, .ivs [(-512, 511)]⟩
/-- 0x4400+n.06, R263: Cos gain trim -/
def E.COS_GAIN : Entry := ⟨0x4400, 8, 0x06, 1, .u 2, .rw, true, .num 16384, .ivs [(8192, 32767)]⟩
/-- 0x4400+n.07, R263: Window low edge (R243) -/
def E.AMP_LO : Entry := ⟨0x4400, 8, 0x07, 1, .u 2, .rw, true, .num 250, .ivs [(100, 1000)]⟩
/-- 0x4400+n.08, R263: Window high edge -/
def E.AMP_HI : Entry := ⟨0x4400, 8, 0x08, 1, .u 2, .rw, true, .num 650, .ivs [(100, 1000)]⟩
/-- 0x4400+n.09, R263: Persistence of window states -/
def E.AMP_DWELL : Entry := ⟨0x4400, 8, 0x09, 1, .u 2, .rw, true, .num 16, .ivs [(1, 65535)]⟩
/-- 0x4400+n.0A, R263: Position bits W (R244) -/
def E.SSI_BITS : Entry := ⟨0x4400, 8, 0x0A, 1, .u 1, .rw, true, .num 25, .ivs [(8, 32)]⟩
/-- 0x4400+n.0B, R263: Word code -/
def E.SSI_CODE : Entry := ⟨0x4400, 8, 0x0B, 1, .u 1, .rw, true, .num 1, .enum [0, 1]⟩
/-- 0x4400+n.0C, R263: Error bits after the word -/
def E.SSI_ERR_BITS : Entry := ⟨0x4400, 8, 0x0C, 1, .u 1, .rw, true, .num 0, .ivs [(0, 4)]⟩
/-- 0x4400+n.0D, R263: Bit i = 1: error bit i is active high (R245) -/
def E.SSI_ERR_MASK : Entry := ⟨0x4400, 8, 0x0D, 1, .u 1, .rw, true, .num 0, .mask 0xF⟩
/-- 0x4400+n.0E, R263: Parity bit -/
def E.SSI_PARITY : Entry := ⟨0x4400, 8, 0x0E, 1, .u 1, .rw, true, .num 0, .enum [0, 1, 2]⟩
/-- 0x4400+n.0F, R263: SSI clock -/
def E.SSI_CLOCK : Entry := ⟨0x4400, 8, 0x0F, 1, .u 2, .rw, true, .num 2000, .ivs [(100, 10000)]⟩
/-- 0x4400+n.10, R263: Poll period -/
def E.SSI_POLL : Entry := ⟨0x4400, 8, 0x10, 1, .u 2, .rw, true, .num 50, .ivs [(10, 10000)]⟩
/-- 0x4400+n.11, R263: Wait after each frame -/
def E.SSI_MONOFLOP : Entry := ⟨0x4400, 8, 0x11, 1, .u 2, .rw, true, .num 20, .ivs [(1, 100)]⟩
/-- 0x4400+n.12, R263: Greatest accepted change per poll -/
def E.SSI_JUMP : Entry := ⟨0x4400, 8, 0x12, 1, .u 4, .rw, true, .num 1048576, .ivs [(1, 2147483647)]⟩
/-- 0x4400+n.13, R263: Encoder latch delay -/
def E.SSI_LATCH_DELAY : Entry := ⟨0x4400, 8, 0x13, 1, .u 4, .rw, true, .num 0, .ivs [(0, 100000)]⟩
/-- 0x4400+n.14, R263: Frequency gate (R249) -/
def E.GATE : Entry := ⟨0x4400, 8, 0x14, 1, .u 4, .rw, true, .num 1000, .ivs [(100, 100000)]⟩
/-- 0x4400+n.15, R263: Change to frequency mode (R250) -/
def E.SPEED_UP : Entry := ⟨0x4400, 8, 0x15, 1, .u 4, .rw, true, .num 200000, .ivs [(1000, 100000000)]⟩
/-- 0x4400+n.16, R263: Change to period mode -/
def E.SPEED_DOWN : Entry := ⟨0x4400, 8, 0x16, 1, .u 4, .rw, true, .num 100000, .bound⟩
/-- 0x4400+n.17, R263: Standstill time (R251) -/
def E.STILL_TIME : Entry := ⟨0x4400, 8, 0x17, 1, .u 2, .rw, true, .num 100, .ivs [(1, 10000)]⟩
/-- 0x4400+n.18, R263: Direction hysteresis (R252) -/
def E.REV_HYST : Entry := ⟨0x4400, 8, 0x18, 1, .u 2, .rw, true, .num 2, .ivs [(1, 4096)]⟩
/-- 0x4400+n.19, R263: Divider numerator (R253) -/
def E.DIV_N : Entry := ⟨0x4400, 8, 0x19, 1, .u 2, .rw, true, .num 1, .bound⟩
/-- 0x4400+n.1A, R263: Divider denominator -/
def E.DIV_M : Entry := ⟨0x4400, 8, 0x1A, 1, .u 2, .rw, true, .num 1, .ivs [(1, 65535)]⟩
/-- 0x4400+n.1B, R263: Pin of output A; B is on the next pin -/
def E.DIV_PIN : Entry := ⟨0x4400, 8, 0x1B, 1, .u 1, .rw, true, .num 255, .ivs [(0, 30), (255, 255)]⟩
/-- 0x4400+n.1C, R263: Least time between output steps -/
def E.DIV_MIN_GAP : Entry := ⟨0x4400, 8, 0x1C, 1, .u 2, .rw, true, .num 100, .ivs [(20, 10000)]⟩
/-- 0x4400+n.1D, R263: Event channel for motion and reversal -/
def E.DIR_EC : Entry := ⟨0x4400, 8, 0x1D, 1, .u 2, .rw, true, .num 0xFFFF, .ivs [(0, 255), (65535, 65535)]⟩
/-- 0x4400+n.1E, R263: Event channel for window faults -/
def E.AMP_EC : Entry := ⟨0x4400, 8, 0x1E, 1, .u 2, .rw, true, .num 0xFFFF, .ivs [(0, 255), (65535, 65535)]⟩
/-- 0x4400+n.1F, R263: Clears POS_INVALID (R246) -/
def E.POS_CMD : Entry := ⟨0x4400, 8, 0x1F, 1, .u 1, .wo, false, .num 0, .key 1⟩
/-- 0x4400+n.20, R263: Wrapping counter (R246) -/
def E.COUNT : Entry := ⟨0x4400, 8, 0x20, 1, .u 4, .ro, false, .num 0, .any⟩
/-- 0x4400+n.21, R263: Speed (R249) -/
def E.SPEED : Entry := ⟨0x4400, 8, 0x21, 1, .i 8, .ro, false, .num 0, .any⟩
/-- 0x4400+n.22, R263: [0] STILL, [1] DIR backward, [2] frequency mode, [3] AMP_LOW, [4] AMP_ -/
def E.POS_STATUS : Entry := ⟨0x4400, 8, 0x22, 1, .u 2, .ro, false, .num 0x101, .any⟩
/-- 0x4400+n.23, R263: Sample instant of COUNT -/
def E.SAMPLE_TIME : Entry := ⟨0x4400, 8, 0x23, 1, .tw64, .ro, false, .num 0, .any⟩
/-- 0x4400+n.24, R263: Peak amplitude -/
def E.AMP_NOW : Entry := ⟨0x4400, 8, 0x24, 1, .u 2, .ro, false, .num 0, .any⟩
/-- 0x4400+n.25, R263: Reversals (R252) -/
def E.REVERSALS : Entry := ⟨0x4400, 8, 0x25, 1, .u 4, .ro, false, .num 0, .any⟩
/-- 0x4400+n.26, R263: Window faults -/
def E.AMP_FAULTS : Entry := ⟨0x4400, 8, 0x26, 1, .u 4, .ro, false, .num 0, .any⟩
/-- 0x4400+n.27, R263: Quarter-period steps (R242) -/
def E.OVERSPEEDS : Entry := ⟨0x4400, 8, 0x27, 1, .u 4, .ro, false, .num 0, .any⟩
/-- 0x4400+n.28, R263: Rejected frames -/
def E.SSI_ERRORS : Entry := ⟨0x4400, 8, 0x28, 1, .u 4, .ro, false, .num 0, .any⟩
/-- 0x4400+n.29, R263: Output steps dropped -/
def E.DIV_OVERFLOWS : Entry := ⟨0x4400, 8, 0x29, 1, .u 4, .ro, false, .num 0, .any⟩
/-- 0x4400+n.2A, R263: Motion recognised from standstill -/
def E.MOTION_STARTS : Entry := ⟨0x4400, 8, 0x2A, 1, .u 4, .ro, false, .num 0, .any⟩
/-- 0x4800+m.01, R264: Mode (R254) -/
def E.MG_MODE : Entry := ⟨0x4800, 32, 0x01, 1, .u 1, .rw, true, .num 0, .ivs [(0, 5)]⟩
/-- 0x4800+m.02, R264: Position channel of modes 1 and 2 -/
def E.MG_SOURCE : Entry := ⟨0x4800, 32, 0x02, 1, .u 1, .rw, true, .num 0, .ivs [(0, 7)]⟩
/-- 0x4800+m.03, R264: Reach rule (R255) -/
def E.MG_DIR : Entry := ⟨0x4800, 32, 0x03, 1, .u 1, .rw, true, .num 0, .enum [0, 1, 2]⟩
/-- 0x4800+m.04, R264: Next position target -/
def E.MG_TARGET_POS : Entry := ⟨0x4800, 32, 0x04, 1, .u 4, .rw, true, .num 0, .any⟩
/-- 0x4800+m.05, R264: Position train pitch -/
def E.MG_PITCH : Entry := ⟨0x4800, 32, 0x05, 1, .u 4, .rw, true, .num 1000, .ivs [(1, 1073741824)]⟩
/-- 0x4800+m.06, R264: Next time target -/
def E.MG_TARGET_TIME : Entry := ⟨0x4800, 32, 0x06, 1, .tw64, .rw, false, .num 0, .any⟩
/-- 0x4800+m.07, R264: Time train period -/
def E.MG_PERIOD : Entry := ⟨0x4800, 32, 0x07, 1, .u 8, .rw, true, .num 2560, .bound⟩
/-- 0x4800+m.08, R264: Train length -/
def E.MG_COUNT : Entry := ⟨0x4800, 32, 0x08, 1, .u 4, .rw, true, .num 0, .ivs [(0, 0), (1, 4294967295)]⟩
/-- 0x4800+m.09, R264: Policy for targets behind (R258) -/
def E.MG_BEHIND : Entry := ⟨0x4800, 32, 0x09, 1, .u 1, .rw, true, .num 1, .enum [0, 1, 2]⟩
/-- 0x4800+m.0A, R264: Outputs (R257) -/
def E.MG_ACTIONS : Entry := ⟨0x4800, 32, 0x0A, 1, .u 1, .rw, true, .num 0, .mask 0x7⟩
/-- 0x4800+m.0B, R264: Ports sent triggers -/
def E.MG_PORTS : Entry := ⟨0x4800, 32, 0x0B, 1, .dom 12, .rw, true, .bytes (zeros 12), .any⟩
/-- 0x4800+m.0C, R264: Trigger kind -/
def E.MG_TRIG_KIND : Entry := ⟨0x4800, 32, 0x0C, 1, .u 1, .rw, true, .num 1, .enum [0, 1]⟩
/-- 0x4800+m.0D, R264: ACTION of the packets (R89) -/
def E.MG_TRIG_ACTION : Entry := ⟨0x4800, 32, 0x0D, 1, .u 1, .rw, true, .num 0, .ivs [(0, 255)]⟩
/-- 0x4800+m.0E, R264: Send time before FIRE (R256) -/
def E.MG_LEAD : Entry := ⟨0x4800, 32, 0x0E, 1, .u 4, .rw, true, .num 50000, .ivs [(2000, 4000000000)]⟩
/-- 0x4800+m.0F, R264: FIRE after a position fire -/
def E.MG_TRIG_DELAY : Entry := ⟨0x4800, 32, 0x0F, 1, .u 4, .rw, true, .num 50000, .ivs [(2000, 4000000000)]⟩
/-- 0x4800+m.10, R264: Pulse pin -/
def E.MG_PIN : Entry := ⟨0x4800, 32, 0x10, 1, .u 1, .rw, true, .num 255, .ivs [(0, 31), (255, 255)]⟩
/-- 0x4800+m.11, R264: Pulse width -/
def E.MG_PULSE : Entry := ⟨0x4800, 32, 0x11, 1, .u 4, .rw, true, .num 1000, .ivs [(10, 1000000000)]⟩
/-- 0x4800+m.12, R264: Active level of the pin -/
def E.MG_POLARITY : Entry := ⟨0x4800, 32, 0x12, 1, .bool, .rw, true, .num 0, .any⟩
/-- 0x4800+m.13, R264: Event channel of fires -/
def E.MG_EVENT : Entry := ⟨0x4800, 32, 0x13, 1, .u 2, .rw, true, .num 0xFFFF, .ivs [(0, 255), (65535, 65535)]⟩
/-- 0x4800+m.14, R264: R254 -/
def E.MG_CMD : Entry := ⟨0x4800, 32, 0x14, 1, .u 1, .wo, false, .num 0, .enum [1, 2]⟩
/-- 0x4800+m.15, R264: State -/
def E.MG_STATE : Entry := ⟨0x4800, 32, 0x15, 1, .u 1, .ro, false, .num 0, .any⟩
/-- 0x4800+m.16, R264: Targets fired -/
def E.MG_FIRES : Entry := ⟨0x4800, 32, 0x16, 1, .u 8, .ro, false, .num 0, .any⟩
/-- 0x4800+m.17, R264: tf of the last fire -/
def E.MG_LAST_FIRE : Entry := ⟨0x4800, 32, 0x17, 1, .tw64, .ro, false, .num 0, .any⟩
/-- 0x4800+m.18, R264: Next target: counts in [31:0], or TW64 -/
def E.MG_NEXT : Entry := ⟨0x4800, 32, 0x18, 1, .u 8, .ro, false, .num 0, .any⟩
/-- 0x4800+m.19, R264: Targets behind (R258) -/
def E.BEHIND_COUNT : Entry := ⟨0x4800, 32, 0x19, 1, .u 4, .ro, false, .num 0, .any⟩
/-- 0x4800+m.1A, R264: Targets skipped -/
def E.SKIPPED : Entry := ⟨0x4800, 32, 0x1A, 1, .u 4, .ro, false, .num 0, .any⟩
/-- 0x4800+m.1B, R264: ACK statuses 1, 4, 5 (R260) -/
def E.TRIG_LATE_ACKS : Entry := ⟨0x4800, 32, 0x1B, 1, .u 4, .ro, false, .num 0, .any⟩
/-- 0x4800+m.1C, R264: Triggers without an ACK after resends -/
def E.TRIG_LOST : Entry := ⟨0x4800, 32, 0x1C, 1, .u 4, .ro, false, .num 0, .any⟩
/-- 0x4C00.01, R282: 0: no ring is read -/
def E.MALLET_ENABLE : Entry := ⟨0x4C00, 1, 0x01, 1, .bool, .rw, true, .num 0, .any⟩
/-- 0x4C00.02, R282: Furthest accepted fire time (R267) -/
def E.MAX_AHEAD : Entry := ⟨0x4C00, 1, 0x02, 1, .u 2, .rw, true, .num 1000, .ivs [(10, 60000)]⟩
/-- 0x4C00.03, R282: Schedule capacity (R272) -/
def E.SCHEDULE_SIZE : Entry := ⟨0x4C00, 1, 0x03, 1, .u 2, .const, false, .num 16384, .any⟩
/-- 0x4C00.04, R282: Pulses pending -/
def E.SCHEDULE_USED : Entry := ⟨0x4C00, 1, 0x04, 1, .u 2, .ro, false, .num 0, .any⟩
/-- 0x4C00.05, R282: Object memory per stream (R268) -/
def E.OBJ_SLOTS : Entry := ⟨0x4C00, 1, 0x05, 1, .u 4, .const, false, .num 65536, .any⟩
/-- 0x4C10+r.01, R282: Class C channel of ring r (R265) -/
def E.DEC_CHANNEL : Entry := ⟨0x4C10, 8, 0x01, 1, .u 1, .rw, true, .num 255, .ivs [(0, 127), (255, 255)]⟩
/-- 0x4C10+r.02, R282: Decisions read from ring r -/
def E.DEC_READ : Entry := ⟨0x4C10, 8, 0x02, 1, .u 8, .ro, false, .num 0, .any⟩
/-- 0x4C20.01, R282: Decisions read -/
def E.DECISIONS : Entry := ⟨0x4C20, 1, 0x01, 1, .u 8, .ro, false, .num 0, .any⟩
/-- 0x4C20.02, R282: Decisions scheduled -/
def E.ACCEPTED : Entry := ⟨0x4C20, 1, 0x02, 1, .u 8, .ro, false, .num 0, .any⟩
/-- 0x4C20.03, R282: Late decisions (R271) -/
def E.LATE_DECISIONS : Entry := ⟨0x4C20, 1, 0x03, 1, .u 4, .ro, false, .num 0, .any⟩
/-- 0x4C20.04, R282: Objects not found (R268) -/
def E.UNKNOWN_OBJECT : Entry := ⟨0x4C20, 1, 0x04, 1, .u 4, .ro, false, .num 0, .any⟩
/-- 0x4C20.05, R282: Fire times beyond MAX_AHEAD -/
def E.TOO_FAR : Entry := ⟨0x4C20, 1, 0x05, 1, .u 4, .ro, false, .num 0, .any⟩
/-- 0x4C20.06, R282: Decisions refused for space -/
def E.SCHEDULE_FULL : Entry := ⟨0x4C20, 1, 0x06, 1, .u 4, .ro, false, .num 0, .any⟩
/-- 0x4C20.07, R282: Decisions clamped (R267) -/
def E.DEC_CLAMPED : Entry := ⟨0x4C20, 1, 0x07, 1, .u 4, .ro, false, .num 0, .any⟩
/-- 0x4C20.08, R282: Invalid decisions -/
def E.DEC_BAD : Entry := ⟨0x4C20, 1, 0x08, 1, .u 4, .ro, false, .num 0, .any⟩
/-- 0x4C20.09, R282: Least Us − ta among accepted decisions -/
def E.MARGIN_MIN : Entry := ⟨0x4C20, 1, 0x09, 1, .i 4, .ro, false, .num 0x7FFFFFFF, .any⟩
/-- 0x4C20.0A, R282: [39:32] counter subindex, [31:0] HOST_TAG -/
def E.LAST_REJECT : Entry := ⟨0x4C20, 1, 0x0A, 1, .u 8, .ro, false, .num 0, .any⟩
/-- 0x4C40+v.01, R283: Port runs (R281) -/
def E.VP_ENABLE : Entry := ⟨0x4C40, 8, 0x01, 1, .bool, .rw, true, .num 0, .any⟩
/-- 0x4C40+v.02, R283: Chain length (R276) -/
def E.VP_LENGTH : Entry := ⟨0x4C40, 8, 0x02, 1, .u 2, .rw, true, .num 256, .ivs [(1, 256)]⟩
/-- 0x4C40+v.03, R283: Valve row of the port (R269) -/
def E.VP_ROW : Entry := ⟨0x4C40, 8, 0x03, 1, .u 1, .rw, true, .num 0, .ivs [(0, 3)]⟩
/-- 0x4C40+v.04, R283: Grid period (R270, R275) -/
def E.UPDATE_PERIOD : Entry := ⟨0x4C40, 8, 0x04, 1, .u 1, .rw, true, .num 10, .ivs [(5, 100)]⟩
/-- 0x4C40+v.05, R283: Grid anchor (R270) -/
def E.VP_ANCHOR : Entry := ⟨0x4C40, 8, 0x05, 1, .tw64, .rw, true, .num 0, .any⟩
/-- 0x4C40+v.06, R283: Tc in 350 MHz cycles -/
def E.VP_CLKDIV : Entry := ⟨0x4C40, 8, 0x06, 1, .u 1, .rw, true, .num 8, .ivs [(4, 64)]⟩
/-- 0x4C40+v.07, R283: Return sampling delay -/
def E.VP_RET_DELAY : Entry := ⟨0x4C40, 8, 0x07, 1, .u 1, .rw, true, .num 4, .ivs [(0, 255)]⟩
/-- 0x4C40+v.08, R283: Greatest on-time (R267, R273) -/
def E.MAX_ON : Entry := ⟨0x4C40, 8, 0x08, 1, .u 4, .rw, true, .num 10000, .ivs [(10, 10000000)]⟩
/-- 0x4C40+v.09, R283: Rest after a cut -/
def E.MIN_OFF : Entry := ⟨0x4C40, 8, 0x09, 1, .u 4, .rw, true, .num 1000, .ivs [(0, 10000000)]⟩
/-- 0x4C40+v.0A, R283: Persistence of valve faults (R277) -/
def E.FAULT_PERSIST : Entry := ⟨0x4C40, 8, 0x0A, 1, .u 1, .rw, true, .num 4, .ivs [(1, 255)]⟩
/-- 0x4C40+v.0B, R283: Event channel of the port -/
def E.VP_EC : Entry := ⟨0x4C40, 8, 0x0B, 1, .u 2, .rw, true, .num 0xFFFF, .ivs [(0, 255), (65535, 65535)]⟩
/-- 0x4C40+v.0C, R283: Port state -/
def E.VP_STATE : Entry := ⟨0x4C40, 8, 0x0C, 1, .u 1, .ro, false, .num 0, .any⟩
/-- 0x4C40+v.0D, R283: Last latched image (R274) -/
def E.VP_IMAGE : Entry := ⟨0x4C40, 8, 0x0D, 1, .dom 32, .ro, false, .bytes (zeros 32), .any⟩
/-- 0x4C40+v.0E, R283: Valves marked faulty, image layout -/
def E.VP_FAULTS : Entry := ⟨0x4C40, 8, 0x0E, 1, .dom 32, .ro, false, .bytes (zeros 32), .any⟩
/-- 0x4C40+v.0F, R283: Frames sent -/
def E.FRAMES : Entry := ⟨0x4C40, 8, 0x0F, 1, .u 8, .ro, false, .num 0, .any⟩
/-- 0x4C40+v.10, R283: Frames with a wrong marker -/
def E.CHAIN_ERRORS : Entry := ⟨0x4C40, 8, 0x10, 1, .u 4, .ro, false, .num 0, .any⟩
/-- 0x4C40+v.11, R283: Guard cuts (R273) -/
def E.ONTIME_CUTS : Entry := ⟨0x4C40, 8, 0x11, 1, .u 4, .ro, false, .num 0, .any⟩
/-- 0x4C40+v.12, R283: Valves newly marked faulty -/
def E.VALVE_FAULTS : Entry := ⟨0x4C40, 8, 0x12, 1, .u 4, .ro, false, .num 0, .any⟩
/-- 0x4C40+v.13, R283: Updates skipped by a time step (R280) -/
def E.GRID_SLIPS : Entry := ⟨0x4C40, 8, 0x13, 1, .u 4, .ro, false, .num 0, .any⟩
/-- 0x4C40+v.14, R283: Pulses scheduled on the port -/
def E.PULSES : Entry := ⟨0x4C40, 8, 0x14, 1, .u 8, .ro, false, .num 0, .any⟩
/-- 0x4C40+v.15, R283: Hash of the last update (R274) -/
def E.IMAGE_HASH : Entry := ⟨0x4C40, 8, 0x15, 1, .u 4, .ro, false, .num 0, .any⟩
/-- 0x4D00+s.01, R284: Flight delay of stream s to valve row 0 (R269) -/
def E.FLIGHT_ROW0 : Entry := ⟨0x4D00, 256, 0x01, 1, .u 4, .rw, true, .num 0, .ivs [(0, 4000000000)]⟩
/-- 0x4D00+s.02, R284: To valve row 1 -/
def E.FLIGHT_ROW1 : Entry := ⟨0x4D00, 256, 0x02, 1, .u 4, .rw, true, .num 0, .ivs [(0, 4000000000)]⟩
/-- 0x4D00+s.03, R284: To valve row 2 -/
def E.FLIGHT_ROW2 : Entry := ⟨0x4D00, 256, 0x03, 1, .u 4, .rw, true, .num 0, .ivs [(0, 4000000000)]⟩
/-- 0x4D00+s.04, R284: To valve row 3 -/
def E.FLIGHT_ROW3 : Entry := ⟨0x4D00, 256, 0x04, 1, .u 4, .rw, true, .num 0, .ivs [(0, 4000000000)]⟩
/-- 0x5000.01, R300: LTC at the read -/
def E.LTC : Entry := ⟨0x5000, 1, 0x01, 1, .u 8, .ro, false, .num 0, .any⟩
/-- 0x5000.02, R300: T at the read (R286) -/
def E.TW64_NOW : Entry := ⟨0x5000, 1, 0x02, 1, .tw64, .ro, false, .num 0, .any⟩
/-- 0x5000.03, R300: Era (R287) -/
def E.ERA : Entry := ⟨0x5000, 1, 0x03, 1, .u 2, .ro, false, .num 0, .any⟩
/-- 0x5000.04, R300: Offset in force -/
def E.OFS : Entry := ⟨0x5000, 1, 0x04, 1, .tw64, .ro, false, .num 0, .any⟩
/-- 0x5000.05, R300: Rate in force -/
def E.RATE : Entry := ⟨0x5000, 1, 0x05, 1, .u 8, .ro, false, .num RATE_NOM, .any⟩
/-- 0x5000.06, R300: Anchor in force -/
def E.LTC_ANCHOR : Entry := ⟨0x5000, 1, 0x06, 1, .u 8, .ro, false, .num 0, .any⟩
/-- 0x5000.07, R300: R291 -/
def E.TIME_STATE : Entry := ⟨0x5000, 1, 0x07, 1, .u 1, .ro, false, .num 0, .any⟩
/-- 0x5000.08, R300: Candidacy and source (R294) -/
def E.TIME_SOURCE : Entry := ⟨0x5000, 1, 0x08, 1, .u 1, .rw, true, .num 2, .enum [0, 1, 2, 3]⟩
/-- 0x5000.09, R300: Election rank; lower wins -/
def E.TIME_PRIORITY : Entry := ⟨0x5000, 1, 0x09, 1, .u 1, .rw, true, .num 128, .ivs [(0, 255)]⟩
/-- 0x5000.0A, R300: Grandmaster followed -/
def E.GM_EUI : Entry := ⟨0x5000, 1, 0x0A, 1, .u 8, .ro, false, .num 0, .any⟩
/-- 0x5000.0B, R300: Hops to the grandmaster -/
def E.GM_HOPS : Entry := ⟨0x5000, 1, 0x0B, 1, .u 1, .ro, false, .num 0, .any⟩
/-- 0x5000.0C, R300: Parent port -/
def E.PARENT_PORT : Entry := ⟨0x5000, 1, 0x0C, 1, .u 1, .ro, false, .num 255, .any⟩
/-- 0x5000.0D, R300: Last o (R293) -/
def E.OFFSET_LAST : Entry := ⟨0x5000, 1, 0x0D, 1, .i 8, .ro, false, .num 0, .any⟩
/-- 0x5000.0E, R300: Steps applied -/
def E.STEPS : Entry := ⟨0x5000, 1, 0x0E, 1, .u 4, .ro, false, .num 0, .any⟩
/-- 0x5000.0F, R300: Last step -/
def E.LAST_STEP : Entry := ⟨0x5000, 1, 0x0F, 1, .i 8, .ro, false, .num 0, .any⟩
/-- 0x5000.10, R300: Channel of time events (R299) -/
def E.TIME_EC : Entry := ⟨0x5000, 1, 0x10, 1, .u 2, .rw, true, .num 0xFFFF, .ivs [(0, 255), (65535, 65535)]⟩
/-- 0x5010.01, R300: A of a commanded change -/
def E.NEXT_ANCHOR : Entry := ⟨0x5010, 1, 0x01, 1, .u 8, .rw, false, .num 0, .any⟩
/-- 0x5010.02, R300: Rate of a commanded change -/
def E.NEXT_RATE : Entry := ⟨0x5010, 1, 0x02, 1, .u 8, .rw, false, .num RATE_NOM, .bound⟩
/-- 0x5010.03, R300: Step of a commanded change -/
def E.NEXT_STEP : Entry := ⟨0x5010, 1, 0x03, 1, .i 8, .rw, false, .num 0, .any⟩
/-- 0x5010.04, R300: Value for TIME_CMD 2 -/
def E.TIME_SET : Entry := ⟨0x5010, 1, 0x04, 1, .tw64, .rw, false, .num 0, .any⟩
/-- 0x5010.05, R300: R290 -/
def E.TIME_CMD : Entry := ⟨0x5010, 1, 0x05, 1, .u 1, .wo, false, .num 0, .ivs [(1, 2)]⟩
/-- 0x5020.01, R300: Exchange and announce period -/
def E.SYNC_PERIOD : Entry := ⟨0x5020, 1, 0x01, 1, .u 2, .rw, true, .num 1000, .ivs [(125, 10000)]⟩
/-- 0x5020.02, R300: Offset above which the servo steps -/
def E.STEP_LIMIT : Entry := ⟨0x5020, 1, 0x02, 1, .u 4, .rw, true, .num 1000, .ivs [(100, 1000000)]⟩
/-- 0x5020.03, R300: Rate bound -/
def E.RATE_LIMIT : Entry := ⟨0x5020, 1, 0x03, 1, .u 2, .rw, true, .num 200, .ivs [(10, 500)]⟩
/-- 0x5020.04, R300: Lock criterion -/
def E.LOCK_LIMIT : Entry := ⟨0x5020, 1, 0x04, 1, .u 2, .rw, true, .num 20, .ivs [(2, 10000)]⟩
/-- 0x5030.01, R300: Active edge -/
def E.PPS_IN_EDGE : Entry := ⟨0x5030, 1, 0x01, 1, .u 1, .rw, true, .num 0, .enum [0, 1]⟩
/-- 0x5030.02, R300: Cable and source delay -/
def E.PPS_IN_OFFSET : Entry := ⟨0x5030, 1, 0x02, 1, .i 4, .rw, true, .num 0, .ivs [(-1000000, 1000000)]⟩
/-- 0x5030.03, R300: R296 -/
def E.PPS_IN_VALID : Entry := ⟨0x5030, 1, 0x03, 1, .bool, .ro, false, .num 0, .any⟩
/-- 0x5030.04, R300: Stamp of the last edge -/
def E.PPS_IN_LAST : Entry := ⟨0x5030, 1, 0x04, 1, .tw64, .ro, false, .num 0, .any⟩
/-- 0x5030.05, R300: R297 -/
def E.PPS_OUT_WIDTH : Entry := ⟨0x5030, 1, 0x05, 1, .u 4, .rw, true, .num 0, .ivs [(0, 0), (1, 900000)]⟩
/-- 0x5030.06, R300: Phase of PPS_OUT -/
def E.PPS_OUT_OFFSET : Entry := ⟨0x5030, 1, 0x06, 1, .i 4, .rw, true, .num 0, .ivs [(-1000000, 1000000)]⟩
/-- 0x5040.01, R300: R298 -/
def E.PTM_ENABLE : Entry := ⟨0x5040, 1, 0x01, 1, .bool, .rw, true, .num 0, .any⟩
/-- 0x5040.02, R300: Dialog interval -/
def E.PTM_PERIOD : Entry := ⟨0x5040, 1, 0x02, 1, .u 2, .rw, true, .num 10, .ivs [(1, 1000)]⟩
/-- 0x5040.03, R300: H of the last dialog -/
def E.PTM_HOST_TIME : Entry := ⟨0x5040, 1, 0x03, 1, .u 8, .ro, false, .num 0, .any⟩
/-- 0x5040.04, R300: TW64 of the same instant -/
def E.PTM_TW64 : Entry := ⟨0x5040, 1, 0x04, 1, .tw64, .ro, false, .num 0, .any⟩
/-- 0x5040.05, R300: Failed dialogs -/
def E.PTM_FAILS : Entry := ⟨0x5040, 1, 0x05, 1, .u 4, .ro, false, .num 0, .any⟩
/-- 0x5100+p.01, R300: Link asymmetry (R293) -/
def E.FAB_ASYM_CORR : Entry := ⟨0x5100, 96, 0x01, 1, .i 4, .rw, true, .num 0, .ivs [(-25600, 25600)]⟩
/-- 0x5100+p.02, R300: dly of the last exchange -/
def E.FAB_LINK_DELAY : Entry := ⟨0x5100, 96, 0x02, 1, .u 4, .ro, false, .num 0, .any⟩
/-- 0x5100+p.03, R300: Incomplete exchanges -/
def E.SYNC_MISSES : Entry := ⟨0x5100, 96, 0x03, 1, .u 4, .ro, false, .num 0, .any⟩
/-- 0x5400.01, R312: Events delivered -/
def E.HUB_EVENTS : Entry := ⟨0x5400, 1, 0x01, 1, .u 8, .ro, false, .num 0, .any⟩
/-- 0x5400.02, R312: R311 -/
def E.GEN_DROPS : Entry := ⟨0x5400, 1, 0x02, 1, .u 4, .ro, false, .num 0, .any⟩
/-- 0x5400.03, R312: R310 -/
def E.LOOPS_REFUSED : Entry := ⟨0x5400, 1, 0x03, 1, .u 4, .ro, false, .num 0, .any⟩
/-- 0x5400.04, R312: Publishes a software event -/
def E.SW_PUBLISH : Entry := ⟨0x5400, 1, 0x04, 1, .u 8, .wo, false, .num 0, .mask 0xFFFFFFFF000000FF⟩
/-- 0x5400.05, R312: R311 -/
def E.PIN_GEN_WINDOW : Entry := ⟨0x5400, 1, 0x05, 1, .u 4, .rw, true, .num 20000, .ivs [(0, 1000000)]⟩
/-- 0x5401.01, R312: Levels 40–63 -/
def E.SW_LEVELS : Entry := ⟨0x5401, 1, 0x01, 1, .u 4, .rw, false, .num 0, .mask 0xFFFFFF⟩
/-- 0x5401.02, R312: Bit n is level n -/
def E.LEVELS_NOW : Entry := ⟨0x5401, 1, 0x02, 1, .u 8, .ro, false, .num 0, .any⟩
/-- 0x5402.01–.60, R312: Channel of port p − 1's CAM_EVENT -/
def E.CAM_EC : Entry := ⟨0x5402, 1, 0x01, 96, .u 2, .rw, true, .num 0xFFFF, .ivs [(0, 255), (65535, 65535)]⟩
/-- 0x5480+i.01, R312: Channel of pin i's edges -/
def E.DIN_EC : Entry := ⟨0x5480, 32, 0x01, 1, .u 2, .rw, true, .num 0xFFFF, .ivs [(0, 255), (65535, 65535)]⟩
/-- 0x5480+i.02, R312: Edges published -/
def E.DIN_EDGE : Entry := ⟨0x5480, 32, 0x02, 1, .u 1, .rw, true, .num 0, .enum [0, 1, 2, 3]⟩
/-- 0x5480+i.03, R312: Hold time for a level -/
def E.DIN_FILTER : Entry := ⟨0x5480, 32, 0x03, 1, .u 2, .rw, true, .num 0, .ivs [(0, 10000)]⟩
/-- 0x5500+c.01, R312: Events on the channel -/
def E.EC_EVENTS : Entry := ⟨0x5500, 256, 0x01, 1, .u 8, .ro, false, .num 0, .any⟩
/-- 0x5500+c.02, R312: R307 -/
def E.EC_MERGED : Entry := ⟨0x5500, 256, 0x02, 1, .u 4, .ro, false, .num 0, .any⟩
/-- 0x5500+c.03, R312: Stamp of the last event -/
def E.EC_LAST : Entry := ⟨0x5500, 256, 0x03, 1, .tw64, .ro, false, .num 0, .any⟩
/-- 0x5600+t.01, R312: R305 -/
def E.TASK_KIND : Entry := ⟨0x5600, 256, 0x01, 1, .u 1, .rw, true, .num 0, .ivs [(0, 5)]⟩
/-- 0x5600+t.02, R312: Target of the task -/
def E.TASK_PARAM : Entry := ⟨0x5600, 256, 0x02, 1, .u 4, .rw, true, .num 0, .bound⟩
/-- 0x5600+t.03, R312: Forced to 0 under R310 -/
def E.TASK_ENABLE : Entry := ⟨0x5600, 256, 0x03, 1, .bool, .rw, true, .num 0, .any⟩
/-- 0x5600+t.04, R312: Channel of slot 0 -/
def E.SLOT0 : Entry := ⟨0x5600, 256, 0x04, 1, .u 2, .rw, true, .num 0xFFFF, .ivs [(0, 255), (65535, 65535)]⟩
/-- 0x5600+t.05, R312: R304 -/
def E.SLOT0_GATE : Entry := ⟨0x5600, 256, 0x05, 1, .u 1, .rw, true, .num 0, .mask 0xFF⟩
/-- 0x5600+t.06, R312: Channel of slot 1 -/
def E.SLOT1 : Entry := ⟨0x5600, 256, 0x06, 1, .u 2, .rw, true, .num 0xFFFF, .ivs [(0, 255), (65535, 65535)]⟩
/-- 0x5600+t.07, R312: R304 -/
def E.SLOT1_GATE : Entry := ⟨0x5600, 256, 0x07, 1, .u 1, .rw, true, .num 0, .mask 0xFF⟩
/-- 0x5600+t.08, R312: Relay delay or pulse width -/
def E.TASK_DELAY : Entry := ⟨0x5600, 256, 0x08, 1, .u 4, .rw, true, .num 0, .ivs [(0, 1000000000)]⟩
/-- 0x5600+t.09, R312: R309 -/
def E.TASK_HOLDOFF : Entry := ⟨0x5600, 256, 0x09, 1, .u 4, .rw, true, .num 0, .ivs [(0, 1000000000)]⟩
/-- 0x5600+t.0A, R312: R310 -/
def E.TASK_FLAGS : Entry := ⟨0x5600, 256, 0x0A, 1, .u 1, .ro, false, .num 0, .any⟩
/-- 0x5600+t.0B, R312: Activations -/
def E.ACTIVATIONS : Entry := ⟨0x5600, 256, 0x0B, 1, .u 8, .ro, false, .num 0, .any⟩
/-- 0x5600+t.0C, R312: R308 -/
def E.COINCIDENCES : Entry := ⟨0x5600, 256, 0x0C, 1, .u 4, .ro, false, .num 0, .any⟩
/-- 0x5600+t.0D, R312: Events blocked by gates -/
def E.GATED : Entry := ⟨0x5600, 256, 0x0D, 1, .u 4, .ro, false, .num 0, .any⟩
/-- 0x5600+t.0E, R312: R309 -/
def E.HOLDOFF_MERGED : Entry := ⟨0x5600, 256, 0x0E, 1, .u 4, .ro, false, .num 0, .any⟩
/-- 0x5600+t.0F, R312: Stamp of the last activation -/
def E.TASK_LAST : Entry := ⟨0x5600, 256, 0x0F, 1, .tw64, .ro, false, .num 0, .any⟩
/-- 0x5600+t.10, R312: Actions not carried out -/
def E.TASK_DROPS : Entry := ⟨0x5600, 256, 0x10, 1, .u 4, .ro, false, .num 0, .any⟩
/-- 0x5700+s.01, R312: Channel of stream s's squall events -/
def E.SQUALL_EC : Entry := ⟨0x5700, 256, 0x01, 1, .u 2, .rw, true, .num 0xFFFF, .ivs [(0, 255), (65535, 65535)]⟩
/-- 0x5C00.01, R336: Highest rate advertised, in the codes of LINK_NOW (R315) -/
def E.MAX_LINK_RATE : Entry := ⟨0x5C00, 1, 0x01, 1, .u 1, .rw, true, .num 6, .ivs [(1, 6)]⟩
/-- 0x5C00.02, R336: Widest link advertised -/
def E.MAX_LINK_WIDTH : Entry := ⟨0x5C00, 1, 0x02, 1, .u 1, .rw, true, .num 16, .ivs [(4, 4), (8, 8), (16, 16)]⟩
/-- 0x5C00.03, R336: Rate in force -/
def E.LINK_RATE : Entry := ⟨0x5C00, 1, 0x03, 1, .u 1, .ro, false, .num 0, .any⟩
/-- 0x5C00.04, R336: Width in force -/
def E.LINK_WIDTH : Entry := ⟨0x5C00, 1, 0x04, 1, .u 1, .ro, false, .num 0, .any⟩
/-- 0x5C00.05, R336: Flit mode in force -/
def E.LINK_FLIT : Entry := ⟨0x5C00, 1, 0x05, 1, .bool, .ro, false, .num 0, .any⟩
/-- 0x5C00.06, R336: Changes of rate, width or Max_Payload_Size (R314) -/
def E.LINK_CHANGES : Entry := ⟨0x5C00, 1, 0x06, 1, .u 4, .ro, false, .num 0, .any⟩
/-- 0x5C00.07, R336: Link losses (R334) -/
def E.DL_DOWNS : Entry := ⟨0x5C00, 1, 0x07, 1, .u 4, .ro, false, .num 0, .any⟩
/-- 0x5C00.08, R336: Function Level Resets -/
def E.FLRS : Entry := ⟨0x5C00, 1, 0x08, 1, .u 4, .ro, false, .num 0, .any⟩
/-- 0x5C00.09, R336: Bus Master Enable cleared -/
def E.BME_CLEARS : Entry := ⟨0x5C00, 1, 0x09, 1, .u 4, .ro, false, .num 0, .any⟩
/-- 0x5C00.0A, R336: Writes discarded under R328, R332 and R334 -/
def E.BME_DISCARDS_ALL : Entry := ⟨0x5C00, 1, 0x0A, 1, .u 8, .ro, false, .num 0, .any⟩
/-- 0x5C00.0B, R336: Reads timed out -/
def E.TIMEOUTS_ALL : Entry := ⟨0x5C00, 1, 0x0B, 1, .u 8, .ro, false, .num 0, .any⟩
/-- 0x5C00.0C, R336: Completions discarded as late -/
def E.LATE_ALL : Entry := ⟨0x5C00, 1, 0x0C, 1, .u 8, .ro, false, .num 0, .any⟩
/-- 0x5C00.0D, R336: Completion timeout in force (R318) -/
def E.TIMEOUT_NOW : Entry := ⟨0x5C00, 1, 0x0D, 1, .u 4, .ro, false, .num 10000, .any⟩
/-- 0x5C00.0E, R336: Max_Payload_Size in force -/
def E.MPS_NOW : Entry := ⟨0x5C00, 1, 0x0E, 1, .u 2, .ro, false, .num 128, .any⟩
/-- 0x5C00.0F, R336: EUI-64 reported in the Device Serial Number capability -/
def E.DSN : Entry := ⟨0x5C00, 1, 0x0F, 1, .u 8, .const, false, .num Config.eui, .any⟩
/-- 0x5C01.01, R336: Vendor ID (R316) -/
def E.VENDOR_ID : Entry := ⟨0x5C01, 1, 0x01, 1, .u 2, .const, false, .num 0x1F6B, .any⟩
/-- 0x5C01.02, R336: Device ID (R316) -/
def E.DEVICE_ID : Entry := ⟨0x5C01, 1, 0x02, 1, .u 2, .const, false, .num 0x9601, .any⟩
/-- 0x5C01.03, R336: [15:0] subsystem vendor ID, [31:16] subsystem ID (R316) -/
def E.SUBSYS_ID : Entry := ⟨0x5C01, 1, 0x03, 1, .u 4, .const, false, .num 0x11F6B, .any⟩
/-- 0x5800+c.01, R365: Class (R337, R338) -/
def E.CH_CLASS : Entry := ⟨0x5800, 128, 0x01, 1, .u 1, .rw, true, .num 0, .enum [0, 1, 2]⟩
/-- 0x5800+c.02, R365: Class C direction -/
def E.RING_DIR : Entry := ⟨0x5800, 128, 0x02, 1, .u 1, .rw, true, .num 0, .enum [0, 1]⟩
/-- 0x5800+c.03, R365: First descriptor, or ring base (R346) -/
def E.CH_ADDR : Entry := ⟨0x5800, 128, 0x03, 1, .u 8, .rw, true, .num 0, .bound⟩
/-- 0x5800+c.04, R365: Ring of 2^n bytes -/
def E.RING_ORDER : Entry := ⟨0x5800, 128, 0x04, 1, .u 1, .rw, true, .num 16, .ivs [(12, 30)]⟩
/-- 0x5800+c.05, R365: Slot size (R347, R348) -/
def E.SLOT_BYTES : Entry := ⟨0x5800, 128, 0x05, 1, .u 1, .rw, true, .num 64, .ivs [(16, 16), (32, 32), (64, 64), (128, 128)]⟩
/-- 0x5800+c.06, R365: H[c] of the Forecast (R356) -/
def E.SHARE_FORECAST : Entry := ⟨0x5800, 128, 0x06, 1, .u 2, .ro, false, .num 0, .any⟩
/-- 0x5800+c.07, R365: Share beyond the Forecast -/
def E.SHARE_EXTRA : Entry := ⟨0x5800, 128, 0x07, 1, .u 2, .rw, true, .num 0, .bound⟩
/-- 0x5800+c.08, R365: Reshuffle (R357) -/
def E.SHUFFLE_MODE : Entry := ⟨0x5800, 128, 0x08, 1, .u 1, .rw, true, .num 0, .ivs [(0, 4)]⟩
/-- 0x5800+c.09, R365: Channel map (R358) -/
def E.SHUFFLE_MAP : Entry := ⟨0x5800, 128, 0x09, 1, .u 4, .rw, true, .num 0x76543210, .any⟩
/-- 0x5800+c.0A, R365: Longest wait of a unit (R349) -/
def E.SPACE_WAIT : Entry := ⟨0x5800, 128, 0x0A, 1, .u 4, .rw, true, .num 10000, .ivs [(100, 1000000)]⟩
/-- 0x5800+c.0B, R365: Event channel (R364) -/
def E.CH_EC : Entry := ⟨0x5800, 128, 0x0B, 1, .u 2, .rw, true, .num 0xFFFF, .ivs [(0, 255), (65535, 65535)]⟩
/-- 0x5800+c.0C, R365: R364 -/
def E.CH_EVENT_MODE : Entry := ⟨0x5800, 128, 0x0C, 1, .u 1, .rw, true, .num 0, .ivs [(0, 2)]⟩
/-- 0x5800+c.0D, R365: R340 -/
def E.CH_CMD : Entry := ⟨0x5800, 128, 0x0D, 1, .u 1, .wo, false, .num 0, .enum [1, 2, 3]⟩
/-- 0x5800+c.0E, R365: Next SEQ (R339) -/
def E.SEQ_NEXT : Entry := ⟨0x5800, 128, 0x0E, 1, .u 8, .ro, false, .num 0, .any⟩
/-- 0x5800+c.0F, R365: Units written -/
def E.UNITS : Entry := ⟨0x5800, 128, 0x0F, 1, .u 8, .ro, false, .num 0, .any⟩
/-- 0x5800+c.10, R365: Bytes written or read -/
def E.BYTES : Entry := ⟨0x5800, 128, 0x10, 1, .u 8, .ro, false, .num 0, .any⟩
/-- 0x5800+c.11, R365: R349 -/
def E.UNITS_DROPPED : Entry := ⟨0x5800, 128, 0x11, 1, .u 4, .ro, false, .num 0, .any⟩
/-- 0x5800+c.12, R365: R343 -/
def E.DESC_CLAMPS : Entry := ⟨0x5800, 128, 0x12, 1, .u 4, .ro, false, .num 0, .any⟩
/-- 0x5800+c.13, R365: R360 -/
def E.PARKS : Entry := ⟨0x5800, 128, 0x13, 1, .u 4, .ro, false, .num 0, .any⟩
/-- 0x5800+c.14, R365: R357 -/
def E.SHUFFLE_SKIPPED : Entry := ⟨0x5800, 128, 0x14, 1, .u 4, .ro, false, .num 0, .any⟩
/-- 0x5800+c.15, R365: Longest wait (R349) -/
def E.CH_WAIT_PEAK : Entry := ⟨0x5800, 128, 0x15, 1, .u 4, .ro, false, .num 0, .any⟩
/-- 0x5800+c.16, R365: Incoherent ring indices (R347, R348) -/
def E.INDEX_ERRORS : Entry := ⟨0x5800, 128, 0x16, 1, .u 4, .ro, false, .num 0, .any⟩
/-- 0x5800+c.17, R365: h in force (R356) -/
def E.LIMIT_NOW : Entry := ⟨0x5800, 128, 0x17, 1, .u 2, .ro, false, .num 0, .any⟩
/-- 0x5880.01, R366: R359, R360 -/
def E.ENGINE_STATE : Entry := ⟨0x5880, 1, 0x01, 1, .u 1, .ro, false, .num 0, .any⟩
/-- 0x5880.02, R366: Bus errors -/
def E.BUS_ERRORS : Entry := ⟨0x5880, 1, 0x02, 1, .u 4, .ro, false, .num 0, .any⟩
/-- 0x5880.03, R366: Recoveries that parked no channel -/
def E.RECOVERIES_BLIND : Entry := ⟨0x5880, 1, 0x03, 1, .u 4, .ro, false, .num 0, .any⟩
/-- 0x5880.04, R366: Duration of the last recovery -/
def E.LAST_RECOVERY : Entry := ⟨0x5880, 1, 0x04, 1, .u 4, .ro, false, .num 0, .any⟩
/-- 0x5880.05, R366: Probe limit (R360) -/
def E.PROBE_TIMEOUT : Entry := ⟨0x5880, 1, 0x05, 1, .u 4, .const, false, .num 15000, .any⟩
/-- 0x5880.06, R366: Power-down drain limit (R363) -/
def E.DRAIN_TIMEOUT : Entry := ⟨0x5880, 1, 0x06, 1, .u 2, .rw, true, .num 5000, .ivs [(100, 60000)]⟩
/-- 0x5880.07, R366: Units aborted (R363) -/
def E.DRAIN_ABORTS : Entry := ⟨0x5880, 1, 0x07, 1, .u 4, .ro, false, .num 0, .any⟩
/-- 0x5880.08, R366: Sum of SHARE_EXTRA (R356) -/
def E.EXTRA_USED : Entry := ⟨0x5880, 1, 0x08, 1, .u 2, .ro, false, .num 0, .any⟩
/-- 0x6000.01, R389: Factory EUI-64 -/
def E.FAB_EUI : Entry := ⟨0x6000, 1, 0x01, 1, .u 8, .const, false, .num Config.eui, .any⟩
/-- 0x6000.02, R389: Root election; lower wins (R372) -/
def E.FAB_PRIORITY : Entry := ⟨0x6000, 1, 0x02, 1, .u 1, .rw, true, .num 128, .ivs [(0, 255)]⟩
/-- 0x6000.03, R389: Pinned address -/
def E.FAB_ADDR_PIN : Entry := ⟨0x6000, 1, 0x03, 1, .u 2, .rw, true, .num 0, .ivs [(0, 0), (1, 4095)]⟩
/-- 0x6000.04, R389: Address in force -/
def E.FAB_ADDR : Entry := ⟨0x6000, 1, 0x04, 1, .u 4, .ro, false, .num 0, .any⟩
/-- 0x6000.05, R389: R371 -/
def E.HELLO_PERIOD : Entry := ⟨0x6000, 1, 0x05, 1, .u 2, .rw, true, .num 100, .ivs [(20, 1000)]⟩
/-- 0x6000.06, R389: Quiet time before a walk -/
def E.FAB_SETTLE : Entry := ⟨0x6000, 1, 0x06, 1, .u 2, .rw, true, .num 2000, .ivs [(500, 50000)]⟩
/-- 0x6000.07, R389: R386 -/
def E.MEMBERS_ENABLE : Entry := ⟨0x6000, 1, 0x07, 1, .bool, .rw, true, .num 0, .any⟩
/-- 0x6000.08, R389: Member list -/
def E.FAB_MEMBERS : Entry := ⟨0x6000, 1, 0x08, 1, .domVar 0 32760 8, .rw, true, .bytes [], .any⟩
/-- 0x6000.09, R389: EUI of the root in force -/
def E.ROOT_INFO : Entry := ⟨0x6000, 1, 0x09, 1, .u 8, .ro, false, .num 0, .any⟩
/-- 0x6000.0A, R389: Map in force -/
def E.MAP_STATE : Entry := ⟨0x6000, 1, 0x0A, 1, .u 8, .ro, false, .num 0, .any⟩
/-- 0x6000.0B, R389: Channels accepting imports (R384) -/
def E.FAB_EVENT_ACCEPT : Entry := ⟨0x6000, 1, 0x0B, 1, .dom 32, .rw, true, .bytes (zeros 32), .any⟩
/-- 0x6000.0C, R389: Output port per address (R374) -/
def E.ROUTE_TABLE : Entry := ⟨0x6000, 1, 0x0C, 1, .dom 4096, .ro, false, .bytes (List.replicate 4096 0xFF), .any⟩
/-- 0x6000.0D, R389: H per address -/
def E.ROUTE_HOPS : Entry := ⟨0x6000, 1, 0x0D, 1, .dom 4096, .ro, false, .bytes (zeros 4096), .any⟩
/-- 0x6000.0E, R389: R384 -/
def E.IMPORTS_REFUSED : Entry := ⟨0x6000, 1, 0x0E, 1, .u 4, .ro, false, .num 0, .any⟩
/-- 0x6000.0F, R389: Maps installed -/
def E.MAPS_INSTALLED : Entry := ⟨0x6000, 1, 0x0F, 1, .u 4, .ro, false, .num 0, .any⟩
/-- 0x6100+p.01, R389: Reason for FAULTED -/
def E.FAB_PORT_FAULT : Entry := ⟨0x6100, 96, 0x01, 1, .u 1, .ro, false, .num 0, .any⟩
/-- 0x6100+p.02, R389: Neighbour's EUI-64 -/
def E.NEIGHBOUR : Entry := ⟨0x6100, 96, 0x02, 1, .u 8, .ro, false, .num 0, .any⟩
/-- 0x6100+p.03, R389: Link state -/
def E.LINK_INFO : Entry := ⟨0x6100, 96, 0x03, 1, .u 4, .ro, false, .num 0, .any⟩
/-- 0x6100+p.04, R389: Committed D on the output -/
def E.TC2_RESERVED : Entry := ⟨0x6100, 96, 0x04, 1, .u 4, .ro, false, .num 0, .any⟩
/-- 0x6100+p.05, R389: Frames sent -/
def E.FRAMES_OUT : Entry := ⟨0x6100, 96, 0x05, 1, .u 8, .ro, false, .num 0, .any⟩
/-- 0x6100+p.06, R389: Frames received -/
def E.FRAMES_IN : Entry := ⟨0x6100, 96, 0x06, 1, .u 8, .ro, false, .num 0, .any⟩
/-- 0x6100+p.07, R389: R387 check 3 -/
def E.CREDIT_OVERRUNS : Entry := ⟨0x6100, 96, 0x07, 1, .u 4, .ro, false, .num 0, .any⟩
/-- 0x6100+p.08, R389: R377 -/
def E.CREDIT_STARVED : Entry := ⟨0x6100, 96, 0x08, 1, .u 4, .ro, false, .num 0, .any⟩
/-- 0x6100+p.09, R389: Check 1 -/
def E.FAB_HCRC_ERRORS : Entry := ⟨0x6100, 96, 0x09, 1, .u 4, .ro, false, .num 0, .any⟩
/-- 0x6100+p.0A, R389: Check 2 -/
def E.FAB_BAD_FRAMES : Entry := ⟨0x6100, 96, 0x0A, 1, .u 4, .ro, false, .num 0, .any⟩
/-- 0x6100+p.0B, R389: Check 4 -/
def E.FAB_CRC_ERRORS : Entry := ⟨0x6100, 96, 0x0B, 1, .u 4, .ro, false, .num 0, .any⟩
/-- 0x6100+p.0C, R389: Check 5 -/
def E.FOREIGN_SRC : Entry := ⟨0x6100, 96, 0x0C, 1, .u 4, .ro, false, .num 0, .any⟩
/-- 0x6100+p.0D, R389: Check 6 -/
def E.ROUTE_DROPS : Entry := ⟨0x6100, 96, 0x0D, 1, .u 4, .ro, false, .num 0, .any⟩
/-- 0x6100+p.0E, R389: Check 7 -/
def E.TC2_POLICED : Entry := ⟨0x6100, 96, 0x0E, 1, .u 4, .ro, false, .num 0, .any⟩
/-- 0x6100+p.0F, R389: Check 8 -/
def E.CLASS_POLICED : Entry := ⟨0x6100, 96, 0x0F, 1, .u 4, .ro, false, .num 0, .any⟩
/-- 0x6200+k.01, R389: R379 -/
def E.FWD_STATE : Entry := ⟨0x6200, 256, 0x01, 1, .u 1, .ro, false, .num 0, .any⟩
/-- 0x6200+k.02, R389: Flow forwarded -/
def E.FWD_FLOW : Entry := ⟨0x6200, 256, 0x02, 1, .u 4, .ro, false, .num 0, .any⟩
/-- 0x6200+k.03, R389: Lines sent -/
def E.FWD_LINES : Entry := ⟨0x6200, 256, 0x03, 1, .u 8, .ro, false, .num 0, .any⟩
/-- 0x6200+k.04, R389: Bucket refusals (R103) -/
def E.FWD_RATE_DROPS : Entry := ⟨0x6200, 256, 0x04, 1, .u 4, .ro, false, .num 0, .any⟩
/-- 0x6400.01, R422: R390, R395 -/
def E.PAIR_ENABLE : Entry := ⟨0x6400, 1, 0x01, 1, .bool, .rw, true, .num 0, .any⟩
/-- 0x6400.02, R422: R390 -/
def E.PAIR_SLOT : Entry := ⟨0x6400, 1, 0x02, 1, .u 1, .ro, false, .num 0, .any⟩
/-- 0x6400.03, R422: Role -/
def E.PAIR_ROLE : Entry := ⟨0x6400, 1, 0x03, 1, .u 1, .ro, false, .num 0, .any⟩
/-- 0x6400.04, R422: Interlock state -/
def E.PAIR_FLAGS : Entry := ⟨0x6400, 1, 0x04, 1, .u 2, .ro, false, .num 0, .any⟩
/-- 0x6400.05, R422: R391 -/
def E.XLINK_PORTS : Entry := ⟨0x6400, 1, 0x05, 1, .u 2, .rw, true, .num 0xFFFF, .bound⟩
/-- 0x6400.06, R422: R397 -/
def E.OWN_GUARD : Entry := ⟨0x6400, 1, 0x06, 1, .u 2, .const, false, .num 10, .any⟩
/-- 0x6400.07, R422: R400, R416 -/
def E.XLINK_TIMEOUT : Entry := ⟨0x6400, 1, 0x07, 1, .u 2, .const, false, .num 200, .any⟩
/-- 0x6400.08, R422: R396 -/
def E.KEEPALIVE : Entry := ⟨0x6400, 1, 0x08, 1, .u 2, .const, false, .num 100, .any⟩
/-- 0x6400.09, R422: Reasons 5 and 6 -/
def E.UPLINK_GRACE : Entry := ⟨0x6400, 1, 0x09, 1, .u 2, .rw, true, .num 1000, .ivs [(100, 60000)]⟩
/-- 0x6400.0A, R422: Reason 4 -/
def E.HOST_GRACE : Entry := ⟨0x6400, 1, 0x0A, 1, .u 2, .rw, true, .num 1000, .ivs [(100, 60000)]⟩
/-- 0x6400.0B, R422: R399 -/
def E.SWITCH_MASK : Entry := ⟨0x6400, 1, 0x0B, 1, .u 1, .rw, true, .num 30, .mask 0x1F⟩
/-- 0x6400.0C, R422: R399 -/
def E.SWITCH_HOLDOFF : Entry := ⟨0x6400, 1, 0x0C, 1, .u 4, .rw, true, .num 10000, .ivs [(1000, 3600000)]⟩
/-- 0x6400.0D, R422: R412 -/
def E.BAR_LIMIT : Entry := ⟨0x6400, 1, 0x0D, 1, .u 1, .rw, true, .num 3, .ivs [(1, 100)]⟩
/-- 0x6400.0E, R422: R399, R417, R419 -/
def E.PAIR_CMD : Entry := ⟨0x6400, 1, 0x0E, 1, .u 1, .wo, false, .num 0, .enum [1, 2, 3]⟩
/-- 0x6400.0F, R422: Event channel: DATA [7:0] code 1 takeover, 2 release, 3 divergence, 4  -/
def E.PAIR_EC : Entry := ⟨0x6400, 1, 0x0F, 1, .u 2, .rw, true, .num 0xFFFF, .ivs [(0, 255), (65535, 65535)]⟩
/-- 0x6400.10, R422: R412 -/
def E.UNATTR_POLICY : Entry := ⟨0x6400, 1, 0x10, 1, .u 1, .rw, true, .num 0, .enum [0, 1]⟩
/-- 0x6401.01, R422: R403 -/
def E.CONFIG_EPOCH : Entry := ⟨0x6401, 1, 0x01, 1, .u 8, .ro, false, .num 0, .any⟩
/-- 0x6401.02, R422: R403 -/
def E.CONFIG_CRC : Entry := ⟨0x6401, 1, 0x02, 1, .u 4, .ro, false, .num 0, .any⟩
/-- 0x6401.03, R422: R417 -/
def E.ALMANAC_GEN : Entry := ⟨0x6401, 1, 0x03, 1, .u 4, .ro, false, .num 0, .any⟩
/-- 0x6401.04, R422: Partner's EUI-64 -/
def E.PARTNER_EUI : Entry := ⟨0x6401, 1, 0x04, 1, .u 8, .ro, false, .num 0, .any⟩
/-- 0x6401.05, R422: From PAIR_STATE -/
def E.PARTNER_ROLE : Entry := ⟨0x6401, 1, 0x05, 1, .u 1, .ro, false, .num 0, .any⟩
/-- 0x6401.06, R422: R418 -/
def E.SYNC_PROGRESS : Entry := ⟨0x6401, 1, 0x06, 1, .u 1, .ro, false, .num 0, .any⟩
/-- 0x6402.01, R422: Ownership taken -/
def E.TAKEOVERS : Entry := ⟨0x6402, 1, 0x01, 1, .u 4, .ro, false, .num 0, .any⟩
/-- 0x6402.02, R422: Ownership released -/
def E.RELEASES : Entry := ⟨0x6402, 1, 0x02, 1, .u 4, .ro, false, .num 0, .any⟩
/-- 0x6402.03, R422: R399 -/
def E.LAST_SWITCH_REASON : Entry := ⟨0x6402, 1, 0x03, 1, .u 1, .ro, false, .num 0, .any⟩
/-- 0x6402.04, R422: Detection of the last takeover -/
def E.LAST_SWITCH_TIME : Entry := ⟨0x6402, 1, 0x04, 1, .tw64, .ro, false, .num 0, .any⟩
/-- 0x6402.05, R422: Detection to AUTH (R400) -/
def E.LAST_GAP : Entry := ⟨0x6402, 1, 0x05, 1, .u 4, .ro, false, .num 0, .any⟩
/-- 0x6402.06, R422: R408 -/
def E.STRIPES_COMPARED : Entry := ⟨0x6402, 1, 0x06, 1, .u 8, .ro, false, .num 0, .any⟩
/-- 0x6402.07, R422: R408 -/
def E.DIVERGENCES : Entry := ⟨0x6402, 1, 0x07, 1, .u 4, .ro, false, .num 0, .any⟩
/-- 0x6402.08, R422: R408 -/
def E.VALVE_MISMATCHES : Entry := ⟨0x6402, 1, 0x08, 1, .u 4, .ro, false, .num 0, .any⟩
/-- 0x6402.09, R422: R407 -/
def E.NOT_COMPARED : Entry := ⟨0x6402, 1, 0x09, 1, .u 8, .ro, false, .num 0, .any⟩
/-- 0x6402.0A, R422: R411 -/
def E.ATTRIB_SELF : Entry := ⟨0x6402, 1, 0x0A, 1, .u 4, .ro, false, .num 0, .any⟩
/-- 0x6402.0B, R422: R411 -/
def E.ATTRIB_PARTNER : Entry := ⟨0x6402, 1, 0x0B, 1, .u 4, .ro, false, .num 0, .any⟩
/-- 0x6402.0C, R422: R411 -/
def E.ATTRIB_INPUT : Entry := ⟨0x6402, 1, 0x0C, 1, .u 4, .ro, false, .num 0, .any⟩
/-- 0x6402.0D, R422: R411 -/
def E.UNATTRIBUTED : Entry := ⟨0x6402, 1, 0x0D, 1, .u 4, .ro, false, .num 0, .any⟩
/-- 0x6402.0E, R422: R401 -/
def E.PAIR_RESENDS : Entry := ⟨0x6402, 1, 0x0E, 1, .u 4, .ro, false, .num 0, .any⟩
/-- 0x6402.0F, R422: R395 -/
def E.RELEASE_DISCARDS : Entry := ⟨0x6402, 1, 0x0F, 1, .u 4, .ro, false, .num 0, .any⟩
/-- 0x6402.10, R422: R403 -/
def E.STANDBY_WRITES : Entry := ⟨0x6402, 1, 0x10, 1, .u 4, .ro, false, .num 0, .any⟩
/-- 0x6402.11, R422: R406 -/
def E.UNITS_EXPIRED : Entry := ⟨0x6402, 1, 0x11, 1, .u 4, .ro, false, .num 0, .any⟩
/-- 0x6402.12, R422: R416 -/
def E.XLINK_LOSSES : Entry := ⟨0x6402, 1, 0x12, 1, .u 4, .ro, false, .num 0, .any⟩
/-- 0x6402.13, R422: R398 -/
def E.OVERRIDE_SETS : Entry := ⟨0x6402, 1, 0x13, 1, .u 4, .ro, false, .num 0, .any⟩
/-- 0x6402.14, R422: [63:56] stream, [55:32] FRAME [23:0], [31:0] FIRST_LINE -/
def E.LAST_DIVERGENCE : Entry := ⟨0x6402, 1, 0x14, 1, .u 8, .ro, false, .num 0, .any⟩
/-- 0x1F80.01, R428: Writes clamped or without effect -/
def E.CLAMP_TALLY : Entry := ⟨0x1F80, 1, 0x01, 1, .u 4, .ro, false, .num 0, .any⟩
/-- 0x1F80.02, R428: [31:24] path (R435), [23:8] index, [7:0] subindex -/
def E.LAST_CLAMPED : Entry := ⟨0x1F80, 1, 0x02, 1, .u 4, .ro, false, .num 0, .any⟩
/-- 0x1F80.03, R428: 1 interval or set, 2 enumeration, 3 bit field, 4 bound by another entr -/
def E.LAST_CLAMP_KIND : Entry := ⟨0x1F80, 1, 0x03, 1, .u 1, .ro, false, .num 0, .any⟩
/-- 0x1F80.04, R428: Instant of the last counted write -/
def E.LAST_CLAMP_TIME : Entry := ⟨0x1F80, 1, 0x04, 1, .tw64, .ro, false, .num 0, .any⟩
/-- 0x1F80.05, R428: First 8 bytes of that write as received -/
def E.LAST_WRITTEN : Entry := ⟨0x1F80, 1, 0x05, 1, .u 8, .ro, false, .num 0, .any⟩
/-- 0x1F80.06, R428: U32 count per path 0–4 (R435), path p at byte offset 4p -/
def E.TALLY_BY_PATH : Entry := ⟨0x1F80, 1, 0x06, 1, .dom 20, .ro, false, .bytes (zeros 20), .any⟩
/-- 0x1000.00, R445: [15:0] no profile, [31:16] 0x0096 -/
def E.DEVICE_TYPE : Entry := ⟨0x1000, 1, 0x00, 1, .u 4, .const, false, .num 0x960000, .any⟩
/-- 0x1001.00, R445: Error register (R443) -/
def E.ERROR_REGISTER : Entry := ⟨0x1001, 1, 0x00, 1, .u 1, .ro, false, .num 0, .any⟩
/-- 0x1008.00, R445: Device name -/
def E.DEVICE_NAME : Entry := ⟨0x1008, 1, 0x00, 1, .str 32, .const, false, .bytes (ascii "Xevis Merleac XM96"), .any⟩
/-- 0x1009.00, R445: Stepping -/
def E.HW_VERSION : Entry := ⟨0x1009, 1, 0x00, 1, .str 8, .const, false, .bytes (ascii "A2"), .any⟩
/-- 0x100A.00, R445: Bench release running, as "B3.x.y" -/
def E.SW_VERSION : Entry := ⟨0x100A, 1, 0x00, 1, .str 16, .ro, false, .bytes swVersion, .any⟩
/-- 0x1011.01, R445: R433 -/
def E.RESTORE_DEFAULTS : Entry := ⟨0x1011, 1, 0x01, 1, .u 4, .wo, false, .num 0, .key 0x64616F6C⟩
/-- 0x1014.00, R445: Emergency identifier -/
def E.EMCY_COBID : Entry := ⟨0x1014, 1, 0x00, 1, .u 4, .rw, true, .num 0x80, .bound⟩
/-- 0x1015.00, R445: Least spacing of emergency messages -/
def E.EMCY_INHIBIT : Entry := ⟨0x1015, 1, 0x00, 1, .u 2, .rw, true, .num 0, .ivs [(0, 65535)]⟩
/-- 0x1017.00, R445: Heartbeat period -/
def E.HEARTBEAT_TIME : Entry := ⟨0x1017, 1, 0x00, 1, .u 2, .rw, true, .num 100, .ivs [(0, 0), (10, 65535)]⟩
/-- 0x1018.01, R445: Bexdulek's vendor code, the same for every XM96 -/
def E.VENDOR_CODE : Entry := ⟨0x1018, 1, 0x01, 1, .u 4, .const, false, .num 0xB5E, .any⟩
/-- 0x1018.02, R445: XM96 -/
def E.PRODUCT_CODE : Entry := ⟨0x1018, 1, 0x02, 1, .u 4, .const, false, .num 0x9601, .any⟩
/-- 0x1018.03, R445: [31:24] 0xA2, [23:16] 3, [15:8] x, [7:0] y of release B3.x.y -/
def E.REVISION : Entry := ⟨0x1018, 1, 0x03, 1, .u 4, .ro, false, .num (0xA2030000 + Config.releaseXY), .any⟩
/-- 0x1018.04, R445: Module serial number, unique to each module; equal to MODULE_EUI [31:0 -/
def E.SERIAL : Entry := ⟨0x1018, 1, 0x04, 1, .u 4, .const, false, .num Config.serial, .any⟩
/-- 0x1F00.00, R445: EUI-64, unique to each module, as FAB_EUI and the PCIe Device Serial N -/
def E.MODULE_EUI : Entry := ⟨0x1F00, 1, 0x00, 1, .u 8, .const, false, .num Config.eui, .any⟩
/-- 0x1F01.00, R445: "XM96-01" -/
def E.ORDER_CODE : Entry := ⟨0x1F01, 1, 0x00, 1, .str 16, .const, false, .bytes (ascii "XM96-01"), .any⟩
/-- 0x1F02.00, R445: Pair-kit serial; 0 outside a kit -/
def E.KIT_SERIAL : Entry := ⟨0x1F02, 1, 0x00, 1, .u 8, .const, false, .num Config.kitSerial, .any⟩
/-- 0x1F03.00, R445: Closing fuse -/
def E.FUSE_STATE : Entry := ⟨0x1F03, 1, 0x00, 1, .u 1, .ro, false, .num 0, .any⟩
/-- 0x1F10.00, R445: R438 -/
def E.REMOTE_WRITE : Entry := ⟨0x1F10, 1, 0x00, 1, .u 1, .rw, true, .num 1, .enum [0, 1, 2]⟩
/-- 0x1F11.00, R445: R438 -/
def E.CAN_WRITE : Entry := ⟨0x1F11, 1, 0x00, 1, .bool, .rw, true, .num 1, .any⟩
/-- 0x1F12.00, R445: R438 -/
def E.TWI_WRITE : Entry := ⟨0x1F12, 1, 0x00, 1, .bool, .rw, true, .num 1, .any⟩
/-- 0x1F20.01, R445: CAN FD path on -/
def E.CAN_ENABLE : Entry := ⟨0x1F20, 1, 0x01, 1, .bool, .rw, true, .num 0, .any⟩
/-- 0x1F20.02, R445: R442 -/
def E.CAN_NODE_BASE : Entry := ⟨0x1F20, 1, 0x02, 1, .u 1, .rw, true, .num 16, .ivs [(1, 120)]⟩
/-- 0x1F20.03, R445: Node ID in force -/
def E.CAN_NODE_ID : Entry := ⟨0x1F20, 1, 0x03, 1, .u 1, .ro, false, .num 0, .any⟩
/-- 0x1F20.04, R445: Nominal rate -/
def E.CAN_NOMINAL : Entry := ⟨0x1F20, 1, 0x04, 1, .u 2, .rw, true, .num 1000, .ivs [(125, 125), (250, 250), (500, 500), (1000, 1000)]⟩
/-- 0x1F20.05, R445: Data-phase rate -/
def E.CAN_DATA : Entry := ⟨0x1F20, 1, 0x05, 1, .u 2, .rw, true, .num 8000, .ivs [(1000, 1000), (2000, 2000), (4000, 4000), (5000, 5000), (8000, 8000)]⟩
/-- 0x1F20.06, R445: Nominal sample point -/
def E.CAN_NOM_SP : Entry := ⟨0x1F20, 1, 0x06, 1, .u 2, .rw, true, .num 800, .ivs [(500, 900)]⟩
/-- 0x1F20.07, R445: Data-phase sample point -/
def E.CAN_DATA_SP : Entry := ⟨0x1F20, 1, 0x07, 1, .u 2, .rw, true, .num 700, .ivs [(500, 900)]⟩
/-- 0x1F20.08, R445: Fault confinement state -/
def E.CAN_STATE : Entry := ⟨0x1F20, 1, 0x08, 1, .u 1, .ro, false, .num 0, .any⟩
/-- 0x1F20.09, R445: Bus-off events -/
def E.CAN_BUS_OFFS : Entry := ⟨0x1F20, 1, 0x09, 1, .u 4, .ro, false, .num 0, .any⟩
/-- 0x1F20.0A, R445: State in the heartbeat -/
def E.NMT_STATE : Entry := ⟨0x1F20, 1, 0x0A, 1, .u 1, .ro, false, .num 127, .any⟩
/-- 0x1F30.01, R445: Generation of the store in force -/
def E.STORE_GEN : Entry := ⟨0x1F30, 1, 0x01, 1, .u 4, .ro, false, .num 0, .any⟩
/-- 0x1F30.02, R445: Store writes since manufacture -/
def E.STORE_WRITES : Entry := ⟨0x1F30, 1, 0x02, 1, .u 8, .ro, false, .num 0, .any⟩
/-- 0x1F30.03, R445: R431 -/
def E.STORE_PENDING : Entry := ⟨0x1F30, 1, 0x03, 1, .bool, .ro, false, .num 0, .any⟩
/-- 0x1F40.01–.04, R445: Requests served on paths 0 to 3 -/
def E.DICT_REQUESTS : Entry := ⟨0x1F40, 1, 0x01, 4, .u 8, .ro, false, .num 0, .any⟩
/-- 0x6800.01, R462: Target address (R447) -/
def E.TWI_ADDRESS : Entry := ⟨0x6800, 1, 0x01, 1, .u 1, .ro, false, .num 0, .any⟩
/-- 0x6800.02, R462: Digital filter (R448) -/
def E.TWI_FILTER : Entry := ⟨0x6800, 1, 0x02, 1, .u 1, .rw, true, .num 4, .ivs [(0, 31)]⟩
/-- 0x6800.03, R462: Held until cleared -/
def E.TWI_FLAGS : Entry := ⟨0x6800, 1, 0x03, 1, .u 1, .ro, false, .num 0, .any⟩
/-- 0x6800.04, R462: Clears each TWI_FLAGS bit written as 1 -/
def E.TWI_FLAG_CLEAR : Entry := ⟨0x6800, 1, 0x04, 1, .u 1, .wo, false, .num 0, .mask 7⟩
/-- 0x6800.05, R462: Transfers addressed to the target -/
def E.TWI_TRANSFERS : Entry := ⟨0x6800, 1, 0x05, 1, .u 8, .ro, false, .num 0, .any⟩
/-- 0x6800.06, R462: R453 -/
def E.SCL_TIMEOUTS : Entry := ⟨0x6800, 1, 0x06, 1, .u 4, .ro, false, .num 0, .any⟩
/-- 0x6800.07, R462: R453 -/
def E.SDA_TIMEOUTS : Entry := ⟨0x6800, 1, 0x07, 1, .u 4, .ro, false, .num 0, .any⟩
/-- 0x6800.08, R462: R450 -/
def E.ACK_ABORTS : Entry := ⟨0x6800, 1, 0x08, 1, .u 4, .ro, false, .num 0, .any⟩
/-- 0x6800.09, R462: R452 -/
def E.WAKES : Entry := ⟨0x6800, 1, 0x09, 1, .u 4, .ro, false, .num 0, .any⟩
/-- 0x6800.0A, R462: R452 -/
def E.WAKE_STRETCH_MAX : Entry := ⟨0x6800, 1, 0x0A, 1, .u 4, .ro, false, .num 0, .any⟩
/-- 0x6800.0B, R462: Pointer in force -/
def E.TWI_POINTER : Entry := ⟨0x6800, 1, 0x0B, 1, .u 1, .ro, false, .num 0, .any⟩
/-- 0x6800.0C, R462: R452 -/
def E.WAKE_FAILS : Entry := ⟨0x6800, 1, 0x0C, 1, .u 4, .ro, false, .num 0, .any⟩
/-- 0x6810.01, R463: Local bus rate (R458) -/
def E.TWC_RATE : Entry := ⟨0x6810, 1, 0x01, 1, .u 2, .rw, true, .num 400, .ivs [(100, 100), (400, 400), (1000, 1000)]⟩
/-- 0x6810.02, R463: R460 -/
def E.ARB_LOSSES : Entry := ⟨0x6810, 1, 0x02, 1, .u 4, .ro, false, .num 0, .any⟩
/-- 0x6810.03, R463: R459 -/
def E.BUS_RECOVERIES : Entry := ⟨0x6810, 1, 0x03, 1, .u 4, .ro, false, .num 0, .any⟩
/-- 0x6810.04, R463: R459 -/
def E.BUS_STUCK : Entry := ⟨0x6810, 1, 0x04, 1, .u 4, .ro, false, .num 0, .any⟩
/-- 0x6810.05, R463: Last transfer's conditions -/
def E.TWC_FLAGS : Entry := ⟨0x6810, 1, 0x05, 1, .u 1, .ro, false, .num 0, .any⟩
/-- 0x6810.06, R463: R461 -/
def E.TWC_NACKS : Entry := ⟨0x6810, 1, 0x06, 1, .u 4, .ro, false, .num 0, .any⟩
/-- 0x6810.07, R463: R461 -/
def E.TWC_FAILS : Entry := ⟨0x6810, 1, 0x07, 1, .u 4, .ro, false, .num 0, .any⟩
/-- 0x6810.08, R463: Sensor poll period -/
def E.TWC_POLL : Entry := ⟨0x6810, 1, 0x08, 1, .u 2, .rw, true, .num 1000, .ivs [(100, 60000)]⟩
/-- 0x6820+k.01, R463: Sensor address -/
def E.SENSOR_ADDR : Entry := ⟨0x6820, 8, 0x01, 1, .u 1, .rw, true, .num 255, .ivs [(8, 119), (255, 255)]⟩
/-- 0x6820+k.02, R463: Register read -/
def E.SENSOR_REG : Entry := ⟨0x6820, 8, 0x02, 1, .u 1, .rw, true, .num 0, .ivs [(0, 255)]⟩
/-- 0x6820+k.03, R463: Last value, first byte in [15:8] -/
def E.SENSOR_VALUE : Entry := ⟨0x6820, 8, 0x03, 1, .u 2, .ro, false, .num 0, .any⟩
/-- 0x6820+k.04, R463: Instant of the last successful poll -/
def E.SENSOR_TIME : Entry := ⟨0x6820, 8, 0x04, 1, .tw64, .ro, false, .num 0, .any⟩
/-- 0x6C00.01, R488: R467 -/
def E.MODULE_STATE : Entry := ⟨0x6C00, 1, 0x01, 1, .u 1, .ro, false, .num 0, .any⟩
/-- 0x6C00.02, R488: R468, R471, R475 -/
def E.MODULE_CMD : Entry := ⟨0x6C00, 1, 0x02, 1, .u 1, .wo, false, .num 0, .enum [1, 2, 3]⟩
/-- 0x6C00.03, R488: R468 -/
def E.BOOT_POLICY : Entry := ⟨0x6C00, 1, 0x03, 1, .u 1, .rw, true, .num 0, .enum [0, 1]⟩
/-- 0x6C00.04, R488: R471 -/
def E.WAKE_SOURCE : Entry := ⟨0x6C00, 1, 0x04, 1, .u 1, .ro, false, .num 0, .any⟩
/-- 0x6C00.05, R488: Cause of the last warm restart -/
def E.LAST_RESTART : Entry := ⟨0x6C00, 1, 0x05, 1, .u 1, .ro, false, .num 0, .any⟩
/-- 0x6C00.06, R488: R476 -/
def E.BENCH_RESETS : Entry := ⟨0x6C00, 1, 0x06, 1, .u 4, .ro, false, .num 0, .any⟩
/-- 0x6C00.07, R488: Input voltage, ±1 % -/
def E.SUPPLY_V : Entry := ⟨0x6C00, 1, 0x07, 1, .u 2, .ro, false, .num 0, .any⟩
/-- 0x6C00.08, R488: Input power, ±3 % -/
def E.INPUT_POWER : Entry := ⟨0x6C00, 1, 0x08, 1, .u 2, .ro, false, .num 0, .any⟩
/-- 0x6C00.09, R488: R473 -/
def E.REMOVAL_ABORTS : Entry := ⟨0x6C00, 1, 0x09, 1, .u 4, .ro, false, .num 0, .any⟩
/-- 0x6C00.0A, R488: Cold-plate temperature, ±2 °C -/
def E.PLATE_TEMP : Entry := ⟨0x6C00, 1, 0x0A, 1, .i 2, .ro, false, .num 0, .any⟩
/-- 0x6C00.0B, R488: Hottest junction, ±2 °C -/
def E.TJ_MAX : Entry := ⟨0x6C00, 1, 0x0B, 1, .i 2, .ro, false, .num 0, .any⟩
/-- 0x6C10+i.01, R488: R474, R475 -/
def E.ISLAND_STATE : Entry := ⟨0x6C10, 54, 0x01, 1, .u 1, .ro, false, .num 0, .any⟩
/-- 0x6C10+i.02, R488: Junction temperature, ±2 °C -/
def E.TJ_NOW : Entry := ⟨0x6C10, 54, 0x02, 1, .i 2, .ro, false, .num 0, .any⟩
/-- 0x6C10+i.03, R488: Recoveries of the island -/
def E.RECOVERIES : Entry := ⟨0x6C10, 54, 0x03, 1, .u 4, .ro, false, .num 0, .any⟩
/-- 0x6C10+i.04, R488: Heartbeats missing for 20 µs -/
def E.HEARTBEAT_MISSES : Entry := ⟨0x6C10, 54, 0x04, 1, .u 4, .ro, false, .num 0, .any⟩
/-- 0x7000.01, R489: R484 -/
def E.POWERED_HOURS : Entry := ⟨0x7000, 1, 0x01, 1, .u 4, .ro, false, .num 0, .any⟩
/-- 0x7000.02, R489: Insertions -/
def E.MATINGS : Entry := ⟨0x7000, 1, 0x02, 1, .u 4, .ro, false, .num 0, .any⟩
/-- 0x7000.03, R489: Takeovers and releases -/
def E.SWITCHOVERS : Entry := ⟨0x7000, 1, 0x03, 1, .u 4, .ro, false, .num 0, .any⟩
/-- 0x7000.04, R489: Log occupied -/
def E.LOG_USED : Entry := ⟨0x7000, 1, 0x04, 1, .u 4, .ro, false, .num 0, .any⟩
/-- 0x7000.05, R489: R487 -/
def E.ADVICE_DAYS : Entry := ⟨0x7000, 1, 0x05, 1, .u 2, .rw, true, .num 180, .ivs [(90, 730)]⟩
/-- 0x7000.06, R489: R487 -/
def E.HBM_CE_LIMIT : Entry := ⟨0x7000, 1, 0x06, 1, .u 4, .rw, true, .num 10000, .ivs [(100, 10000000)]⟩
/-- 0x7010.01, R489: R485, staged -/
def E.CAL_ERA : Entry := ⟨0x7010, 1, 0x01, 1, .u 2, .rw, false, .num 0, .any⟩
/-- 0x7010.02, R489: Staged -/
def E.CAL_TW64 : Entry := ⟨0x7010, 1, 0x02, 1, .tw64, .rw, false, .num 0, .any⟩
/-- 0x7010.03, R489: Staged -/
def E.CAL_TAI : Entry := ⟨0x7010, 1, 0x03, 1, .i 8, .rw, false, .num 0, .any⟩
/-- 0x7010.04, R489: Staged -/
def E.CAL_UTC : Entry := ⟨0x7010, 1, 0x04, 1, .i 2, .rw, false, .num 37, .ivs [(0, 1000)]⟩
/-- 0x7010.05, R489: R485 -/
def E.CAL_CMD : Entry := ⟨0x7010, 1, 0x05, 1, .u 1, .wo, false, .num 0, .key 1⟩
/-- 0x7100+k.01, R489: days(k), for k = 0x00–0x40 -/
def E.PART_DAYS : Entry := ⟨0x7100, 65, 0x01, 1, .u 2, .ro, false, .num 65535, .any⟩
/-- 0x7100+k.02, R489: used(k) / 219,150 -/
def E.PART_USED : Entry := ⟨0x7100, 65, 0x02, 1, .u 4, .ro, false, .num 0, .any⟩
/-- 0x7100+k.03, R489: R487 -/
def E.PART_ADVICE : Entry := ⟨0x7100, 65, 0x03, 1, .u 1, .ro, false, .num 0, .any⟩
/-- 0x7040.01, R489: Active bank -/
def E.FW_ACTIVE : Entry := ⟨0x7040, 1, 0x01, 1, .u 1, .ro, false, .num 0, .any⟩
/-- 0x7040.02, R489: RELEASE of bank A -/
def E.FW_RELEASE_A : Entry := ⟨0x7040, 1, 0x02, 1, .u 4, .ro, false, .num (0x030000 + Config.releaseXY), .any⟩
/-- 0x7040.03, R489: RELEASE of bank B -/
def E.FW_RELEASE_B : Entry := ⟨0x7040, 1, 0x03, 1, .u 4, .ro, false, .num (0x030000 + Config.releaseXY), .any⟩
/-- 0x7040.04, R489: R480 -/
def E.FW_SIZE : Entry := ⟨0x7040, 1, 0x04, 1, .u 4, .rw, false, .num 0, .ivs [(256, 16777216)]⟩
/-- 0x7040.05, R489: R480 -/
def E.FW_OFFSET : Entry := ⟨0x7040, 1, 0x05, 1, .u 4, .ro, false, .num 0, .any⟩
/-- 0x7040.06, R489: R480 -/
def E.FW_DATA : Entry := ⟨0x7040, 1, 0x06, 1, .domVar 1 4096 1, .wo, false, .bytes [], .any⟩
/-- 0x7040.07, R489: R480 -/
def E.FW_CMD : Entry := ⟨0x7040, 1, 0x07, 1, .u 1, .wo, false, .num 0, .enum [1, 2, 3, 4]⟩
/-- 0x7040.08, R489: R479–R481 -/
def E.FW_STATE : Entry := ⟨0x7040, 1, 0x08, 1, .u 1, .ro, false, .num 0, .any⟩
/-- 0x7040.0A, R489: R479, R481 -/
def E.SEC_MIN : Entry := ⟨0x7040, 1, 0x0A, 1, .u 4, .ro, false, .num Config.factorySecurity, .any⟩
/-- 0x7050.01, R489: R483 -/
def E.FUSE_CMD : Entry := ⟨0x7050, 1, 0x01, 1, .u 4, .wo, false, .num 0, .bound⟩
/-- 0x7080+m.01, R489: Corrected errors per channel -/
def E.HBM_CE : Entry := ⟨0x7080, 8, 0x01, 1, .dom 128, .ro, false, .bytes (zeros 128), .any⟩
/-- 0x70C0+i.01, R489: R484 -/
def E.TJ_HIST : Entry := ⟨0x70C0, 54, 0x01, 1, .dom 312, .ro, false, .bytes (zeros 312), .any⟩

/-- Rows 0 to 39 of the dictionary, in the order of the chapters. -/
def entryTable0 : List Entry :=
  [E.QUAD_ROLE, E.QUAD_PORTS, E.REF_POLICY, E.REF_SELECTED, E.REF_VALID, E.REF_HOLDOVER,
   E.REF_SWITCHES, E.SPREAD_DEPTH, E.EYE_PERIOD, E.EQ_TABLE_STATUS, E.EQ_TABLE_REV, E.SEARCH_DWELL,
   E.LANE_STATE, E.TX_FIR, E.RX_EQ, E.RX_DFE, E.LANE_FLAGS, E.EQ_SOURCE,
   E.LOOP_MODE, E.SEARCH_MODE, E.SLIP, E.BLK_LOCK, E.SLIPS, E.LOCK_LOSSES,
   E.SEARCH_FAILS, E.CW_CORRECTED, E.SYM_CORRECTED, E.CW_UNCORRECTABLE, E.AM_BAD, E.AM_ID_MISMATCH,
   E.EYE_LAST, E.PORT_STATE, E.PORT_WIDTH, E.PORT_SKEW, E.PORT_HOLD, E.FRAMING_ERRORS,
   E.NET_RATE, E.LINK_SETTLE, E.BEACON_PERIOD, E.SQUALL_CALM]

/-- Rows 40 to 79 of the dictionary, in the order of the chapters. -/
def entryTable1 : List Entry :=
  [E.SILENCE_LINES, E.PORT_FAULT, E.HCRC_ERRORS, E.UNKNOWN_DT, E.UNKNOWN_VC, E.CTRL_EXCESS,
   E.UNSOLICITED, E.CTRL_CRC_ERRORS, E.CAM_IDENTIFIED, E.CAM_IDENTITY, E.CAM_UPLINK, E.REG_CMD,
   E.REG_ADDR, E.REG_COUNT, E.REG_DATA, E.REG_STATUS, E.REG_CAM_STATUS, E.LAST_TAG,
   E.LAST_EXEC, E.REG_RESENDS, E.REG_FAILURES, E.TRIG_LATE, E.TRIG_FULL, E.TRIG_RESENDS,
   E.LINK_DELAY, E.ASYM_CORR, E.CAM_OFFSET, E.BEACON_MISSES, E.TAG_UNCERTAIN, E.CAM_EVENTS,
   E.LAST_CAM_EVENT, E.REG_TIMEOUT, E.REG_RETRIES, E.POLICE_STATE, E.RATE_DROPS, E.DT_MISMATCH,
   E.OVERSIZE, E.MISSING_LINES, E.OUT_OF_ORDER, E.RESYNCS]

/-- Rows 80 to 119 of the dictionary, in the order of the chapters. -/
def entryTable2 : List Entry :=
  [E.DAMAGED_LINES, E.SQUALL_ENTRIES, E.LINES_ACCEPTED, E.PORT, E.VC, E.SCAN_MODE,
   E.DT, E.ROW_PIXELS, E.ROWS_PER_LINE, E.LINE_ORDER, E.FRAME_LINES, E.SOURCE_NODE,
   E.PACKETS_PER_LINE, E.LINE_RATE_MAX, E.LINE_RATE_MIN, E.FRAME_RATE_MAX, E.STRIPE_ROWS, E.PROFILE,
   E.OUTPUTS, E.DMA_VENEER, E.DMA_STRIPE, E.DMA_STATS, E.DMA_RECORD, E.DMA_TILE,
   E.SHARE_VENEER, E.SHARE_STRIPE, E.SHARE_STATS, E.SHARE_RECORD, E.SHARE_TILE, E.OBJ_MAX,
   E.TILE_BYTES, E.DEADLINE, E.LOOK_GRACE, E.CREDIT_STALL, E.RETAIN, E.PLANER_MASK,
   E.MAX_HOPS, E.SET_LATENCY, E.TRIG_RATE, E.PHASE_GROUP]

/-- Rows 120 to 159 of the dictionary, in the order of the chapters. -/
def entryTable3 : List Entry :=
  [E.PHASE_NS, E.HOST_SHARE_LIMIT, E.MEM_LIMIT, E.RETAIN_POOL, E.AUTO_RESUME, E.CONTRACT_STATE,
   E.CONTRACT_CMD, E.CHANGE_STATE, E.REJECT_REASON, E.REJECT_DETAIL, E.REJECT_BOUND, E.SUSPEND_REASON,
   E.IN_FORCE, E.APPLY_LINE, E.CONTRACT_EPOCH, E.SHARE_USED, E.MEM_USED, E.RETAIN_USED,
   E.HOST_RATE, E.VERDICTS, E.REFORECASTS, E.BOUND_NS, E.PLANER, E.STRIPE_TIME,
   E.PLANER_TERM, E.LOOK_TERM, E.DMA_TERM, E.FABRIC_TERM, E.UTIL, E.MEM_DEMAND,
   E.ADMIT_EPOCH, E.WORST_SEEN, E.MISSES, E.LAST_MISS_CAUSE, E.PHASE_VIOLATIONS, E.PLANER_UTIL,
   E.PLANER_STREAMS, E.PLANER_BUSY, E.BUDGET_DEPTH, E.WATCHDOG_FACTOR]

/-- Rows 160 to 199 of the dictionary, in the order of the chapters. -/
def entryTable4 : List Entry :=
  [E.SET_SLOTS, E.PLANER_STATE, E.PLANER_CONTEXT, E.PLANER_STRIPES, E.KERFS, E.BUSY_CYCLES,
   E.SLICES_TAKEN, E.READY_PEAK, E.PL_WATCHDOG_TRIPS, E.SCHED_STATE, E.STRIPES_DONE, E.LAST_STRIPE,
   E.OVER_BUDGET, E.EARLY_RELEASES, E.SET_SPLITS, E.SET_DEFERRED, E.TAG_UNKNOWN, E.LATE_BINDS,
   E.SET_IN_USE, E.SLOTS_USED, E.FRAME_PARAMS, E.PARAMS_APPLY, E.WATCHDOG_TRIPS, E.PROVISIONAL_STRIPES,
   E.WAIT_PEAK, E.PERIOD_W, E.PERIOD_H, E.BANDS, E.PATTERN, E.PHASE,
   E.SIG_BITS, E.STAGE_FLAGS, E.OUT_K, E.SNR_K, E.SNR_STR, E.TNR_K,
   E.TNR_ALPHA, E.DETAIL, E.BANDS_MISSING, E.FF_DIMS]

/-- Rows 200 to 239 of the dictionary, in the order of the chapters. -/
def entryTable5 : List Entry :=
  [E.DEFECT_COUNT, E.DEFECT_DROPPED, E.FRAME_DEFAULTS, E.TBL_PROFILE, E.TBL_KIND, E.TBL_SIZE,
   E.TBL_OFFSET, E.TBL_DATA, E.TBL_CMD, E.TBL_STATE, E.TBL_POOL_FREE, E.TABLE_POOL,
   E.DEFECTS_REPLACED, E.DEFECTS_UNREPAIRED, E.OUTLIERS_HIGH, E.OUTLIERS_LOW, E.WB_CLIP_LOW, E.WB_CLIP_HIGH,
   E.TNR_MOTION, E.TNR_NO_POOL, E.OUT_CH, E.TONE_MASK, E.CSC_MODE, E.CSC_MATRIX,
   E.CSC_OFFSET, E.OUT_FORMAT, E.STATS_SRC, E.STATS_CH, E.STATS_EN, E.ZONES_X,
   E.ZONES_Y, E.CLIP_LO, E.CLIP_HI, E.SHARP_CH, E.TONE_LUTS, E.MATRIX_CLIPS,
   E.STATS_RECORDS, E.STATS_SATURATED, E.THR_MODE, E.THRESHOLDS]

/-- Rows 240 to 279 of the dictionary, in the order of the chapters. -/
def entryTable6 : List Entry :=
  [E.MASK_LOGIC, E.BG_SHIFT, E.BG_LEARN, E.BG_STALL, E.BG_CMD, E.MIN_AREA,
   E.OBJ_MAX_ROWS, E.TILE_MARGIN, E.TILE_FORMAT, E.TILE_MIN_AREA, E.POS_SRC, E.OBJ_SEQ_BASE,
   E.NEXT_SEQ, E.BG_STATE, E.OPEN_NOW, E.OBJECTS, E.SMALL_DROPPED, E.OPEN_OVERFLOW,
   E.NEW_OVERFLOW, E.TRUNCATIONS, E.EDGE_CLOSES, E.LATE_RECORDS, E.OPEN_PEAK, E.TILES,
   E.TILES_CLIPPED, E.RELEARNS, E.BG_FORCED, E.RESERVED_UNUSED, E.POS_MODE, E.INTERP_BITS,
   E.POS_INVERT, E.SIN_OFS, E.COS_OFS, E.COS_GAIN, E.AMP_LO, E.AMP_HI,
   E.AMP_DWELL, E.SSI_BITS, E.SSI_CODE, E.SSI_ERR_BITS]

/-- Rows 280 to 319 of the dictionary, in the order of the chapters. -/
def entryTable7 : List Entry :=
  [E.SSI_ERR_MASK, E.SSI_PARITY, E.SSI_CLOCK, E.SSI_POLL, E.SSI_MONOFLOP, E.SSI_JUMP,
   E.SSI_LATCH_DELAY, E.GATE, E.SPEED_UP, E.SPEED_DOWN, E.STILL_TIME, E.REV_HYST,
   E.DIV_N, E.DIV_M, E.DIV_PIN, E.DIV_MIN_GAP, E.DIR_EC, E.AMP_EC,
   E.POS_CMD, E.COUNT, E.SPEED, E.POS_STATUS, E.SAMPLE_TIME, E.AMP_NOW,
   E.REVERSALS, E.AMP_FAULTS, E.OVERSPEEDS, E.SSI_ERRORS, E.DIV_OVERFLOWS, E.MOTION_STARTS,
   E.MG_MODE, E.MG_SOURCE, E.MG_DIR, E.MG_TARGET_POS, E.MG_PITCH, E.MG_TARGET_TIME,
   E.MG_PERIOD, E.MG_COUNT, E.MG_BEHIND, E.MG_ACTIONS]

/-- Rows 320 to 359 of the dictionary, in the order of the chapters. -/
def entryTable8 : List Entry :=
  [E.MG_PORTS, E.MG_TRIG_KIND, E.MG_TRIG_ACTION, E.MG_LEAD, E.MG_TRIG_DELAY, E.MG_PIN,
   E.MG_PULSE, E.MG_POLARITY, E.MG_EVENT, E.MG_CMD, E.MG_STATE, E.MG_FIRES,
   E.MG_LAST_FIRE, E.MG_NEXT, E.BEHIND_COUNT, E.SKIPPED, E.TRIG_LATE_ACKS, E.TRIG_LOST,
   E.MALLET_ENABLE, E.MAX_AHEAD, E.SCHEDULE_SIZE, E.SCHEDULE_USED, E.OBJ_SLOTS, E.DEC_CHANNEL,
   E.DEC_READ, E.DECISIONS, E.ACCEPTED, E.LATE_DECISIONS, E.UNKNOWN_OBJECT, E.TOO_FAR,
   E.SCHEDULE_FULL, E.DEC_CLAMPED, E.DEC_BAD, E.MARGIN_MIN, E.LAST_REJECT, E.VP_ENABLE,
   E.VP_LENGTH, E.VP_ROW, E.UPDATE_PERIOD, E.VP_ANCHOR]

/-- Rows 360 to 399 of the dictionary, in the order of the chapters. -/
def entryTable9 : List Entry :=
  [E.VP_CLKDIV, E.VP_RET_DELAY, E.MAX_ON, E.MIN_OFF, E.FAULT_PERSIST, E.VP_EC,
   E.VP_STATE, E.VP_IMAGE, E.VP_FAULTS, E.FRAMES, E.CHAIN_ERRORS, E.ONTIME_CUTS,
   E.VALVE_FAULTS, E.GRID_SLIPS, E.PULSES, E.IMAGE_HASH, E.FLIGHT_ROW0, E.FLIGHT_ROW1,
   E.FLIGHT_ROW2, E.FLIGHT_ROW3, E.LTC, E.TW64_NOW, E.ERA, E.OFS,
   E.RATE, E.LTC_ANCHOR, E.TIME_STATE, E.TIME_SOURCE, E.TIME_PRIORITY, E.GM_EUI,
   E.GM_HOPS, E.PARENT_PORT, E.OFFSET_LAST, E.STEPS, E.LAST_STEP, E.TIME_EC,
   E.NEXT_ANCHOR, E.NEXT_RATE, E.NEXT_STEP, E.TIME_SET]

/-- Rows 400 to 439 of the dictionary, in the order of the chapters. -/
def entryTable10 : List Entry :=
  [E.TIME_CMD, E.SYNC_PERIOD, E.STEP_LIMIT, E.RATE_LIMIT, E.LOCK_LIMIT, E.PPS_IN_EDGE,
   E.PPS_IN_OFFSET, E.PPS_IN_VALID, E.PPS_IN_LAST, E.PPS_OUT_WIDTH, E.PPS_OUT_OFFSET, E.PTM_ENABLE,
   E.PTM_PERIOD, E.PTM_HOST_TIME, E.PTM_TW64, E.PTM_FAILS, E.FAB_ASYM_CORR, E.FAB_LINK_DELAY,
   E.SYNC_MISSES, E.HUB_EVENTS, E.GEN_DROPS, E.LOOPS_REFUSED, E.SW_PUBLISH, E.PIN_GEN_WINDOW,
   E.SW_LEVELS, E.LEVELS_NOW, E.CAM_EC, E.DIN_EC, E.DIN_EDGE, E.DIN_FILTER,
   E.EC_EVENTS, E.EC_MERGED, E.EC_LAST, E.TASK_KIND, E.TASK_PARAM, E.TASK_ENABLE,
   E.SLOT0, E.SLOT0_GATE, E.SLOT1, E.SLOT1_GATE]

/-- Rows 440 to 479 of the dictionary, in the order of the chapters. -/
def entryTable11 : List Entry :=
  [E.TASK_DELAY, E.TASK_HOLDOFF, E.TASK_FLAGS, E.ACTIVATIONS, E.COINCIDENCES, E.GATED,
   E.HOLDOFF_MERGED, E.TASK_LAST, E.TASK_DROPS, E.SQUALL_EC, E.MAX_LINK_RATE, E.MAX_LINK_WIDTH,
   E.LINK_RATE, E.LINK_WIDTH, E.LINK_FLIT, E.LINK_CHANGES, E.DL_DOWNS, E.FLRS,
   E.BME_CLEARS, E.BME_DISCARDS_ALL, E.TIMEOUTS_ALL, E.LATE_ALL, E.TIMEOUT_NOW, E.MPS_NOW,
   E.DSN, E.VENDOR_ID, E.DEVICE_ID, E.SUBSYS_ID, E.CH_CLASS, E.RING_DIR,
   E.CH_ADDR, E.RING_ORDER, E.SLOT_BYTES, E.SHARE_FORECAST, E.SHARE_EXTRA, E.SHUFFLE_MODE,
   E.SHUFFLE_MAP, E.SPACE_WAIT, E.CH_EC, E.CH_EVENT_MODE]

/-- Rows 480 to 519 of the dictionary, in the order of the chapters. -/
def entryTable12 : List Entry :=
  [E.CH_CMD, E.SEQ_NEXT, E.UNITS, E.BYTES, E.UNITS_DROPPED, E.DESC_CLAMPS,
   E.PARKS, E.SHUFFLE_SKIPPED, E.CH_WAIT_PEAK, E.INDEX_ERRORS, E.LIMIT_NOW, E.ENGINE_STATE,
   E.BUS_ERRORS, E.RECOVERIES_BLIND, E.LAST_RECOVERY, E.PROBE_TIMEOUT, E.DRAIN_TIMEOUT, E.DRAIN_ABORTS,
   E.EXTRA_USED, E.FAB_EUI, E.FAB_PRIORITY, E.FAB_ADDR_PIN, E.FAB_ADDR, E.HELLO_PERIOD,
   E.FAB_SETTLE, E.MEMBERS_ENABLE, E.FAB_MEMBERS, E.ROOT_INFO, E.MAP_STATE, E.FAB_EVENT_ACCEPT,
   E.ROUTE_TABLE, E.ROUTE_HOPS, E.IMPORTS_REFUSED, E.MAPS_INSTALLED, E.FAB_PORT_FAULT, E.NEIGHBOUR,
   E.LINK_INFO, E.TC2_RESERVED, E.FRAMES_OUT, E.FRAMES_IN]

/-- Rows 520 to 559 of the dictionary, in the order of the chapters. -/
def entryTable13 : List Entry :=
  [E.CREDIT_OVERRUNS, E.CREDIT_STARVED, E.FAB_HCRC_ERRORS, E.FAB_BAD_FRAMES, E.FAB_CRC_ERRORS, E.FOREIGN_SRC,
   E.ROUTE_DROPS, E.TC2_POLICED, E.CLASS_POLICED, E.FWD_STATE, E.FWD_FLOW, E.FWD_LINES,
   E.FWD_RATE_DROPS, E.PAIR_ENABLE, E.PAIR_SLOT, E.PAIR_ROLE, E.PAIR_FLAGS, E.XLINK_PORTS,
   E.OWN_GUARD, E.XLINK_TIMEOUT, E.KEEPALIVE, E.UPLINK_GRACE, E.HOST_GRACE, E.SWITCH_MASK,
   E.SWITCH_HOLDOFF, E.BAR_LIMIT, E.PAIR_CMD, E.PAIR_EC, E.UNATTR_POLICY, E.CONFIG_EPOCH,
   E.CONFIG_CRC, E.ALMANAC_GEN, E.PARTNER_EUI, E.PARTNER_ROLE, E.SYNC_PROGRESS, E.TAKEOVERS,
   E.RELEASES, E.LAST_SWITCH_REASON, E.LAST_SWITCH_TIME, E.LAST_GAP]

/-- Rows 560 to 599 of the dictionary, in the order of the chapters. -/
def entryTable14 : List Entry :=
  [E.STRIPES_COMPARED, E.DIVERGENCES, E.VALVE_MISMATCHES, E.NOT_COMPARED, E.ATTRIB_SELF, E.ATTRIB_PARTNER,
   E.ATTRIB_INPUT, E.UNATTRIBUTED, E.PAIR_RESENDS, E.RELEASE_DISCARDS, E.STANDBY_WRITES, E.UNITS_EXPIRED,
   E.XLINK_LOSSES, E.OVERRIDE_SETS, E.LAST_DIVERGENCE, E.CLAMP_TALLY, E.LAST_CLAMPED, E.LAST_CLAMP_KIND,
   E.LAST_CLAMP_TIME, E.LAST_WRITTEN, E.TALLY_BY_PATH, E.DEVICE_TYPE, E.ERROR_REGISTER, E.DEVICE_NAME,
   E.HW_VERSION, E.SW_VERSION, E.RESTORE_DEFAULTS, E.EMCY_COBID, E.EMCY_INHIBIT, E.HEARTBEAT_TIME,
   E.VENDOR_CODE, E.PRODUCT_CODE, E.REVISION, E.SERIAL, E.MODULE_EUI, E.ORDER_CODE,
   E.KIT_SERIAL, E.FUSE_STATE, E.REMOTE_WRITE, E.CAN_WRITE]

/-- Rows 600 to 639 of the dictionary, in the order of the chapters. -/
def entryTable15 : List Entry :=
  [E.TWI_WRITE, E.CAN_ENABLE, E.CAN_NODE_BASE, E.CAN_NODE_ID, E.CAN_NOMINAL, E.CAN_DATA,
   E.CAN_NOM_SP, E.CAN_DATA_SP, E.CAN_STATE, E.CAN_BUS_OFFS, E.NMT_STATE, E.STORE_GEN,
   E.STORE_WRITES, E.STORE_PENDING, E.DICT_REQUESTS, E.TWI_ADDRESS, E.TWI_FILTER, E.TWI_FLAGS,
   E.TWI_FLAG_CLEAR, E.TWI_TRANSFERS, E.SCL_TIMEOUTS, E.SDA_TIMEOUTS, E.ACK_ABORTS, E.WAKES,
   E.WAKE_STRETCH_MAX, E.TWI_POINTER, E.WAKE_FAILS, E.TWC_RATE, E.ARB_LOSSES, E.BUS_RECOVERIES,
   E.BUS_STUCK, E.TWC_FLAGS, E.TWC_NACKS, E.TWC_FAILS, E.TWC_POLL, E.SENSOR_ADDR,
   E.SENSOR_REG, E.SENSOR_VALUE, E.SENSOR_TIME, E.MODULE_STATE]

/-- Rows 640 to 679 of the dictionary, in the order of the chapters. -/
def entryTable16 : List Entry :=
  [E.MODULE_CMD, E.BOOT_POLICY, E.WAKE_SOURCE, E.LAST_RESTART, E.BENCH_RESETS, E.SUPPLY_V,
   E.INPUT_POWER, E.REMOVAL_ABORTS, E.PLATE_TEMP, E.TJ_MAX, E.ISLAND_STATE, E.TJ_NOW,
   E.RECOVERIES, E.HEARTBEAT_MISSES, E.POWERED_HOURS, E.MATINGS, E.SWITCHOVERS, E.LOG_USED,
   E.ADVICE_DAYS, E.HBM_CE_LIMIT, E.CAL_ERA, E.CAL_TW64, E.CAL_TAI, E.CAL_UTC,
   E.CAL_CMD, E.PART_DAYS, E.PART_USED, E.PART_ADVICE, E.FW_ACTIVE, E.FW_RELEASE_A,
   E.FW_RELEASE_B, E.FW_SIZE, E.FW_OFFSET, E.FW_DATA, E.FW_CMD, E.FW_STATE,
   E.SEC_MIN, E.FUSE_CMD, E.HBM_CE, E.TJ_HIST]

/-- Every entry of the dictionary (R434). -/
def entryTable : List Entry :=
  entryTable0 ++ entryTable1 ++ entryTable2 ++ entryTable3 ++ entryTable4 ++ entryTable5 ++ entryTable6 ++ entryTable7 ++ entryTable8 ++ entryTable9 ++ entryTable10 ++ entryTable11 ++ entryTable12 ++ entryTable13 ++ entryTable14 ++ entryTable15 ++ entryTable16

end Sys2Proof.Machine
end

