-- ==== Sys2Proof/Machine/Ops.lean ====
section
/-! DEFINITION. The named operations over the module's state: dictionary entries, HBM, time, outputs, the
sparse records of lanes, ports, streams and the other resources. -/

namespace Sys2Proof.Machine

/-! ### HBM -/

/-- What a byte of HBM that nothing has written reads as (R470 clears the retention pool; elsewhere DESIGN
CHOICE, notes/assumptions/4.md). -/
def Memory.blank : Byte := 0

/-- The byte at address `a`. -/
def Memory.read : Memory → Nat → Byte
  | [], _ => Memory.blank
  | (k, v) :: t, a => if a = k then v else Memory.read t a

/-- Write one byte, keeping the canonical form. -/
def Memory.write : Memory → Nat → Byte → Memory
  | [], a, b => if b = Memory.blank then [] else [(a, b)]
  | (k, v) :: t, a, b =>
    if a < k then (if b = Memory.blank then (k, v) :: t else (a, b) :: (k, v) :: t)
    else if a = k then (if b = Memory.blank then t else (k, b) :: t)
    else (k, v) :: Memory.write t a b

/-- Write bytes at rising addresses from `a`. -/
def Memory.writeBytes (h : Memory) (a : Nat) : Bytes → Memory
  | [] => h
  | b :: bs => Memory.writeBytes (h.write a b) (a + 1) bs

/-- The `n` bytes from address `a`. -/
def Memory.readBytes (h : Memory) (a n : Nat) : Bytes := (List.range n).map fun i => h.read (a + i)

/-- The canonical form: addresses strictly rising, from `lo` on, and no listed byte equal to the blank. -/
def Memory.wfFrom : Nat → Memory → Bool
  | _, [] => true
  | lo, (k, v) :: t => decide (lo ≤ k) && decide (v ≠ Memory.blank) && Memory.wfFrom (k + 1) t

/-- The canonical form of HBM contents. -/
def Memory.wf (h : Memory) : Bool := Memory.wfFrom 0 h

/-- Drop every listed byte from address `lo` to before `hi` (R470). -/
def Memory.clear (h : Memory) (lo hi : Nat) : Memory := h.filter fun c => decide (c.1 < lo ∨ hi ≤ c.1)

/-! ### Dictionary entries -/

/-- Bytes of a numeric type (R424). -/
def Ty.bytes : Ty → Nat
  | .bool => 1
  | .u n => n
  | .i n => n
  | .real32 => 4
  | .tw64 => 8
  | .q m n => let w := m + n; if w ≤ 8 then 1 else if w ≤ 16 then 2 else if w ≤ 32 then 4 else 8
  | .s m n => let w := m + n; if w ≤ 8 then 1 else if w ≤ 16 then 2 else if w ≤ 32 then 4 else 8
  | .str n => n
  | .dom n => n
  | .domVar _ n _ => n

/-- Is the type numeric? -/
def Ty.numeric : Ty → Bool
  | .str _ => false
  | .dom _ => false
  | .domVar _ _ _ => false
  | _ => true

/-- Is the type signed? -/
def Ty.signed : Ty → Bool
  | .i _ => true
  | .s _ _ => true
  | _ => false

/-- The value of instance `k` of an entry. -/
def Mach.val (m : Mach) (e : Entry) (k : Nat) : Val := m.dict.get e.dflt (e.key k)

/-- Put a value of instance `k` of an entry in force. -/
def Mach.setVal (m : Mach) (e : Entry) (k : Nat) (v : Val) : Mach :=
  { m with dict := SMap.set e.dflt m.dict (e.key k) v }

/-- The number in a value; the number of its bytes for a DOMAIN. -/
def Val.toNat : Val → Nat
  | .num n => n
  | .bytes b => leNat b

/-- The bytes of a value. -/
def Val.toBytes : Val → Bytes
  | .num _ => []
  | .bytes b => b

/-- Read a numeric entry, as its unsigned pattern. -/
def Mach.rd (m : Mach) (e : Entry) (k : Nat := 0) : Nat := (m.val e k).toNat

/-- Read a signed entry. -/
def Mach.rdI (m : Mach) (e : Entry) (k : Nat := 0) : Int := signedOf (8 * e.ty.bytes) (m.rd e k)

/-- Read a DOMAIN or STRING entry. -/
def Mach.rdB (m : Mach) (e : Entry) (k : Nat := 0) : Bytes := (m.val e k).toBytes

/-- Put a number in force, at the width of the entry. -/
def Mach.wr (m : Mach) (e : Entry) (k n : Nat) : Mach :=
  m.setVal e k (.num (n % 2 ^ (8 * e.ty.bytes)))

/-- Put a signed number in force. -/
def Mach.wrI (m : Mach) (e : Entry) (k : Nat) (i : Int) : Mach := m.wr e k (patternOf (8 * e.ty.bytes) i)

/-- Put bytes in force. -/
def Mach.wrB (m : Mach) (e : Entry) (k : Nat) (b : Bytes) : Mach := m.setVal e k (.bytes b)

/-- Count in a counter, which wraps at its width. -/
def Mach.inc (m : Mach) (e : Entry) (k : Nat) (by_ : Nat := 1) : Mach := m.wr e k (m.rd e k + by_)

/-- Keep the greater of the entry and `n`. -/
def Mach.peak (m : Mach) (e : Entry) (k n : Nat) : Mach := if m.rd e k < n then m.wr e k n else m

/-- Put the default of an entry back in force. -/
def Mach.toDefault (m : Mach) (e : Entry) (k : Nat) : Mach := { m with dict := SMap.del (e.key k) m.dict }

/-! ### Time -/

/-- The instant of an LTC value under OFS, RATE and LTC_ANCHOR (R286). -/
def twAt (ofs rate anchor l : Nat) : TW64 :=
  BitVec.ofNat 64 (ofs + (BitVec.ofNat 64 l - BitVec.ofNat 64 anchor).toNat * rate / 2 ^ 32)

/-- A change whose anchor is reached (R288, R289). -/
def Mach.due (m : Mach) (c : TimeChange) : Bool := decide (0 ≤ (m.ltc - BitVec.ofNat 64 c.anchor).toInt)

/-- The change that is pending: its anchor lies ahead (R289). -/
def Mach.pendingChange (m : Mach) : Option TimeChange := m.time.change.filter fun c => !m.due c

/-- T_old(A) + STEP of a change (R289). -/
def Mach.changeOfs (m : Mach) (c : TimeChange) : TW64 := twAt (m.rd E.OFS) (m.rd E.RATE) (m.rd E.LTC_ANCHOR) c.anchor + c.step

/-- The set (OFS, RATE, LTC_A) in force: that of a change from its anchor on (R286, R289). -/
def Mach.timeSet (m : Mach) : Nat × Nat × Nat :=
  match m.time.change with
  | some c => if m.due c then ((m.changeOfs c).toNat, c.rate, c.anchor) else (m.rd E.OFS, m.rd E.RATE, m.rd E.LTC_ANCHOR)
  | none => (m.rd E.OFS, m.rd E.RATE, m.rd E.LTC_ANCHOR)

/-- TW64 at tick `l` under the set in force (R286). -/
def Mach.twOf (m : Mach) (l : Nat) : TW64 := let t := m.timeSet; twAt t.1 t.2.1 t.2.2 l

/-- TW64 at this instant (R286). -/
def Mach.now (m : Mach) : TW64 := m.twOf m.ltc.toNat

/-- The first tick at which the time in force is `t` or later, for a `t` not before the anchor (R286). -/
def Mach.tickOf (m : Mach) (t : TW64) : Nat :=
  let x := m.timeSet
  x.2.2 + cdiv ((t - BitVec.ofNat 64 x.1).toNat * 2 ^ 32) x.2.1

/-- An island is powered and not in recovery: its crossings let through (R464 to R466). -/
def Mach.islandOn (m : Mach) (i : Nat) : Bool := m.rd E.ISLAND_STATE i == 1

/-- The module drains toward DORMANT (R469). -/
def Mach.draining (m : Mach) : Bool := m.rd E.MODULE_STATE == 8 && m.drainTo == 1

/-- The I/O island runs (R465, R466). -/
def Mach.ioOn (m : Mach) : Bool := decide (3 ≤ m.rd E.MODULE_STATE) && m.islandOn 0x34

/-- The event hub runs (R465, R466). -/
def Mach.hubOn (m : Mach) : Bool := decide (3 ≤ m.rd E.MODULE_STATE) && m.islandOn 0x32

/-- The instant of the first I/O cycle at or after `t`, no earlier than the present one: I/O cycles lie at the ticks that are
multiples of 4 (R256, R257, notes/assumptions/53.md). -/
def Mach.ioCycle (m : Mach) (t : TW64) : TW64 :=
  let now := m.ltc.toNat
  let l := if 0 < twDiff t m.now then max now (m.tickOf t) else now
  m.twOf (cdiv l 4 * 4)

/-- Picoseconds of the local tick counter: one tick is 5,000/7 ps (R286). -/
def Mach.ps (m : Mach) : Nat := m.ltc.toNat * 5000 / 7

/-- Whole nanoseconds of the local tick counter. -/
def Mach.ns (m : Mach) : Nat := m.ltc.toNat * 5 / 7

/-- The signed difference of two instants as a natural number, 0 when `a` is not after `b` (R288). -/
def twAfter (a b : TW64) : Nat := (twDiff a b).toNat

/-! ### The Almanac log -/

/-- Bytes of an Almanac record in the layout of notes/assumptions/17.md. -/
def LogRec.size (r : LogRec) : Nat := 16 + 4 * r.args.length

/-- A record of the Almanac log (R484): kinds in the order of its table, from 0. -/
def Mach.record (m : Mach) (kind : Nat) (args : List Nat) : Mach :=
  let l := m.almanac.log ++ [{ kind := kind, time := m.now, era := m.rd E.ERA, args := args }]
  { m with almanac.log := l }.wr E.LOG_USED 0 (cdiv (l.map LogRec.size).sum 1024)

/-! ### Outputs and free values -/

/-- Record an output. -/
def Mach.emit (m : Mach) (o : Out) : Mach := { m with out := m.out ++ [o] }

/-- Take the next free value, at `w` bits. -/
def Mach.take (m : Mach) (w : Nat) : Nat × Mach :=
  ((Config.freeValue m.free).toNat % 2 ^ w, { m with free := m.free + 1 })

/-! ### Resources -/

/-- Lane L. -/
def Mach.lane (m : Mach) (l : Nat) : Lane := m.lanes.get {} l
/-- Replace lane L. -/
def Mach.setLane (m : Mach) (l : Nat) (x : Lane) : Mach := { m with lanes := SMap.set {} m.lanes l x }
/-- Port p. -/
def Mach.port (m : Mach) (p : Nat) : Port := m.ports.get {} p
/-- Replace port p. -/
def Mach.setPort (m : Mach) (p : Nat) (x : Port) : Mach := { m with ports := SMap.set {} m.ports p x }
/-- Stream s. -/
def Mach.strm (m : Mach) (s : Nat) : Stream := m.streams.get {} s
/-- Replace stream s. -/
def Mach.setStrm (m : Mach) (s : Nat) (x : Stream) : Mach := { m with streams := SMap.set {} m.streams s x }
/-- Planer n. -/
def Mach.planer (m : Mach) (n : Nat) : Planer := m.planers.get {} n
/-- Replace planer n. -/
def Mach.setPlaner (m : Mach) (n : Nat) (x : Planer) : Mach := { m with planers := SMap.set {} m.planers n x }
/-- Quad q. -/
def Mach.quad (m : Mach) (q : Nat) : Quad := m.quads.get {} q
/-- Replace quad q. -/
def Mach.setQuad (m : Mach) (q : Nat) (x : Quad) : Mach := { m with quads := SMap.set {} m.quads q x }

/-- Apply `f` for each number of a list in order. -/
def Mach.each (m : Mach) (l : List Nat) (f : Nat → Mach → Mach) : Mach := l.foldl (fun m k => f k m) m

/-! ### Outcomes -/

/-- The outcome of a command on the module: next when the named resources exist (R13). -/
def State.onMach (s : State) (ok : Bool) (f : Mach → Mach) : Host.Outcome State Fault Refusal :=
  if ok then .next { s with m := f s.m } else .fault .noSuchResource

/-- The outcome of a command on HBM and the module. -/
def State.onAll (s : State) (ok : Bool) (f : Memory → Mach → Memory × Mach) : Host.Outcome State Fault Refusal :=
  if ok then .next { s with hbm := (f s.hbm s.m).1, m := (f s.hbm s.m).2 } else .fault .noSuchResource

/-- A Boolean condition on the module chooses whether an event has its effect; otherwise it did not take
place and nothing changes (notes/assumptions/5.md). -/
def Mach.when (m : Mach) (c : Bool) (f : Mach → Mach) : Mach := if c then f m else m

end Sys2Proof.Machine
end

