-- ==== Sys2Proof/Machine/Operands.lean ====
section
/-! DEFINITION. The operand forms of a dictionary write: conversion of the written bytes to the entry's
type (R425), clamping to its range (R427) and the clamp tally (R428). -/

namespace Sys2Proof.Machine

/-- Round a value to the nearest of a set of intervals; a tie goes to the smaller value (R427). -/
def nearest (l : List (Int × Int)) (v : Int) : Int :=
  let pts := l.map fun iv => clampInt v iv.1 iv.2
  match pts with
  | [] => v
  | p :: ps => ps.foldl (fun best q =>
      let db := (v - best).natAbs
      let dq := (v - q).natAbs
      if dq < db then q else if dq = db ∧ q < best then q else best) p

/-- The number that written bytes give at a numeric type (R425): short writes are extended, bytes beyond the
eighth are ignored, a BOOL becomes 0 or 1. -/
def writtenInt (ty : Ty) (data : Bytes) : Int :=
  let d := data.take 8
  let n := leNat d
  match ty with
  | .bool => if n = 0 then 0 else 1
  | _ => if ty.signed then signedOf (8 * d.length) n else (n : Int)

/-- The interval of a numeric type (R424). -/
def typeInterval (ty : Ty) : Int × Int :=
  let w := 8 * ty.bytes
  match ty with
  | .bool => (0, 1)
  | _ => if ty.signed then (-(2 ^ (w - 1) : Nat), ((2 ^ (w - 1) : Nat) : Int) - 1) else (0, ((2 ^ w : Nat) : Int) - 1)

/-- Length of STRING bytes cut to `n` at a character boundary (R425). -/
def cutString (b : Bytes) : Nat → Nat
  | 0 => 0
  | n + 1 => if b.length ≤ n + 1 then b.length
             else if (b.getD (n + 1) 0).toNat / 64 = 2 then cutString b n else n + 1

/-- What a write gives: the value to put in force and the kind of its clamp, 0 for none (R428). -/
structure Clamped where
  val : Val
  kind : Nat := 0
  deriving DecidableEq, Repr

/-- Sum of SHARE_EXTRA over every channel but `c` (R356). -/
def Mach.extraOthers (m : Mach) (c : Nat) : Nat :=
  (List.range 128).foldl (fun r k => if k = c then r else r + m.rd E.SHARE_EXTRA k) 0

/-- Put one byte of XLINK_PORTS in its range 0 to 95 or 0xFF. -/
def clampPortByte (n : Nat) : Nat := (nearest [(0, 95), (255, 255)] n).toNat

/-- A number brought into the interval of its type and then rounded down to an alignment, and the kind of the first change (R427). -/
def alignDown (ty : Ty) (a : Nat) (v : Int) : Int × Nat :=
  let t := typeInterval ty
  let x := clampInt v t.1 t.2
  let w := x - x % (a : Int)
  (w, if x ≠ v then 1 else if w ≠ x then 5 else 0)

/-- Clamp under a range that another entry or the owning chapter decides: the value and its kind (R427). -/
def Mach.boundRange (m : Mach) (e : Entry) (k : Nat) (v : Int) : Int × Nat :=
  let within (lo hi : Int) (kind : Nat) : Int × Nat := let w := clampInt v lo hi; (w, if w = v then 0 else kind)
  let down (a : Nat) : Int × Nat := alignDown e.ty a v
  if e = E.NEXT_RATE then
    let lim : Int := (RATE_NOM * m.rd E.RATE_LIMIT / 1000000 : Nat)
    within (RATE_NOM - lim) (RATE_NOM + lim) 4
  else if e = E.SPEED_DOWN then within 1000 (m.rd E.SPEED_UP k) 4
  else if e = E.DIV_N then within 1 (m.rd E.DIV_M k) 4
  else if e = E.TBL_OFFSET then within 0 (m.rd E.TBL_SIZE) 4
  else if e = E.SHARE_EXTRA then
    within 0 ((1024 - m.rd E.HOST_SHARE_LIMIT - m.extraOthers k : Nat) : Int) 4
  else if e = E.MG_PERIOD then
    if m.rd E.MG_MODE k = 5 then
      let w := clampInt v 2560 0xFFFFFFFF
      (w, if w = v then 0 else if v < 2560 ∨ v > 2 ^ 40 then 1 else 4)
    else within 2560 (2 ^ 40) 1
  else if e = E.CH_ADDR then down (if m.rd E.CH_CLASS k = 2 then 4096 else 32)
  else if e = E.EMCY_COBID then
    let n := v.toNat
    let id := clampInt (n % 2048 : Nat) 0x81 0xFF
    let masked := n &&& 0x800007FF
    let w : Int := (masked - masked % 2048 : Nat) + id
    (w, if id ≠ ((n % 2048 : Nat) : Int) then 1 else if masked ≠ n then 3 else 0)
  else if e = E.XLINK_PORTS then
    let n := (clampInt v 0 0xFFFF).toNat
    let w : Int := (clampPortByte (n % 256) + 256 * clampPortByte (n / 256) : Nat)
    (w, if w = v then 0 else 1)
  else if e = E.TASK_PARAM then
    -- The fields that the task's kind names (R305); the other bits are reserved.
    let mask := match m.rd E.TASK_KIND k with
      | 1 => 0x7FF | 2 => 0xFF | 3 => 0x1F | 4 => 0x7F | 5 => 0xFF0FFF | _ => 0xFFFFFFFF
    let n := v.toNat
    ((n &&& mask : Nat), if n &&& mask = n then 0 else 3)
  else (v, 0)

/-- Clamp a number to the entry's range and type (R427). -/
def Mach.clampNum (m : Mach) (e : Entry) (k : Nat) (v : Int) : Clamped :=
  let w := 8 * e.ty.bytes
  let fit (x : Int) (kind : Nat) : Clamped :=
    let t := typeInterval e.ty
    let y := clampInt x t.1 t.2
    ⟨.num (patternOf w y), if kind ≠ 0 then kind else if y = x then 0 else 1⟩
  match e.rng with
  | .any => fit v 0
  | .ivs l => let y := nearest l v; fit y (if y = v then 0 else 1)
  | .enum l => if 0 ≤ v ∧ l.contains v.toNat then fit v 0 else ⟨e.dflt, 2⟩
  | .mask b => let n := patternOf 64 v; fit ((n &&& b : Nat) : Int) (if n &&& b = n then 0 else 3)
  | .align a => let r := alignDown e.ty a v; fit r.1 r.2
  | .key _ => fit v 0
  | .bound => let r := m.boundRange e k v; fit r.1 r.2

/-- REAL32 (R425): NaN takes the default; an infinity takes the nearest limit, here the greatest finite number. -/
def clampReal (e : Entry) (data : Bytes) : Clamped :=
  let n := leNat (data.take 4)
  let ex := bitsOf n 30 23
  if ex = 255 then
    if bitsOf n 22 0 ≠ 0 then ⟨e.dflt, 2⟩
    else ⟨.num (n - 2 ^ 31 * bn (bitOf n 31) - 1 + 2 ^ 31 * bn (bitOf n 31)), 1⟩
  else ⟨.num n, 0⟩

/-- The value that a whole-value write of `data` puts in force, before the owning chapter's own rules (R425, R427). -/
def Mach.convert (m : Mach) (e : Entry) (k : Nat) (data : Bytes) : Clamped :=
  match e.ty with
  | .real32 => clampReal e data
  | .str n =>
    let l := if data.length ≤ n then data.length else cutString data n
    ⟨.bytes (data.take l), if l = data.length then 0 else 5⟩
  | .dom n =>
    let old := m.rdB e k
    ⟨.bytes (data.take n ++ old.drop data.length), if data.length ≤ n then 0 else 5⟩
  | .domVar lo hi el =>
    let l := (Nat.min data.length hi) / el * el
    let b := data.take l ++ zeros (lo - l)
    ⟨.bytes b, if l = data.length then 0 else 5⟩
  | _ => m.clampNum e k (writtenInt e.ty data)

/-- Count one write in the clamp tally (R428). -/
def Mach.tally (m : Mach) (path index sub kind : Nat) (data : Bytes) : Mach :=
  let m := m.inc E.CLAMP_TALLY 0
  let m := m.wr E.LAST_CLAMPED 0 (path * 2 ^ 24 + index * 2 ^ 8 + sub)
  let m := m.wr E.LAST_CLAMP_KIND 0 kind
  let m := m.wr E.LAST_CLAMP_TIME 0 m.now.toNat
  let m := m.wr E.LAST_WRITTEN 0 (leNat (data.take 8))
  let t := m.rdB E.TALLY_BY_PATH
  m.wrB E.TALLY_BY_PATH 0 (putBytes t (4 * path) (leBytes 4 (leAt t (4 * path) 4 + 1)))

/-- Count a write when its kind is not 0. -/
def Mach.tallyIf (m : Mach) (path index sub kind : Nat) (data : Bytes) : Mach :=
  if kind = 0 then m else m.tally path index sub kind data

/-- The index and subindex of instance `k` of an entry. -/
def Entry.at (e : Entry) (k : Nat) : Nat × Nat := (e.key k / 256, e.key k % 256)

/-- Count a write of instance `k` of an entry. -/
def Mach.tallyE (m : Mach) (path : Nat) (e : Entry) (k kind : Nat) (data : Bytes) : Mach :=
  m.tally path (e.at k).1 (e.at k).2 kind data

/-- Clamp a dependent again after the entry that bounds it was written (R427): counts with kind 4, and
LAST_WRITTEN holds the dependent's value before. -/
def Mach.reclamp (m : Mach) (path : Nat) (e : Entry) (k : Nat) : Mach :=
  let old := m.rd e k
  let c := m.clampNum e k (if e.ty.signed then m.rdI e k else (old : Int))
  if c.val = m.val e k then m
  else (m.setVal e k c.val).tallyE path e k 4 (leBytes 8 old)

/-- Find the entry row that holds index and subindex, with its instance number (R423). -/
def findEntry (index sub : Nat) : Option (Entry × Nat) :=
  entryTable.findSome? fun e =>
    if e.subs = 1 then
      if e.base ≤ index ∧ index < e.base + e.count ∧ e.sub = sub then some (e, index - e.base) else none
    else if e.base = index ∧ e.sub ≤ sub ∧ sub < e.sub + e.subs then some (e, sub - e.sub) else none

/-- The highest subindex present at an index, when its entries begin at subindex 1 (R423). -/
def highestSub (index : Nat) : Option Nat :=
  let subs := entryTable.filterMap fun e =>
    if e.base ≤ index ∧ index < e.base + e.count then some (e.sub, e.sub + e.subs - 1) else none
  if subs.isEmpty ∨ subs.any (fun x => x.1 = 0) then none
  else some (subs.foldl (fun r x => max r x.2) 0)

end Sys2Proof.Machine
end

