-- ==== Sys2Proof/Machine/HostPath.lean ====
section
/-! DEFINITION. The path to the host: authority (R395), mastering (R327), posted writes and their discard
(R318, R328, R362), MSI-X (R323), endpoint causes (R320), channel limiters (R356). -/

namespace Sys2Proof.Machine

/-! ### Authority and mastering -/

/-- The module takes part in a pair (R390). -/
def Mach.paired (m : Mach) : Bool := m.rd E.PAIR_ENABLE == 1

/-- AUTH (R395): held at 1 outside a pair, but for a removal (R473). -/
def Mach.auth (m : Mach) : Bool :=
  if m.rd E.PAIR_ENABLE = 0 then m.drainTo != 2
  else (bitOf (m.rd E.PAIR_FLAGS) 2 && (!bitOf (m.rd E.PAIR_FLAGS) 3 || bitOf (m.rd E.PAIR_FLAGS) 6))

/-- The module is READY or ACTIVE (R467). -/
def Mach.readyOrActive (m : Mach) : Bool := m.rd E.MODULE_STATE == 4 || m.rd E.MODULE_STATE == 7

/-- The module may master host memory (R327, R395). -/
def Mach.mayMaster (m : Mach) : Bool := m.readyOrActive && m.auth

/-- The units staged for the engine are still delivered in a drain toward DORMANT (R363 step 3, R469 step 3, notes/assumptions/23.md). -/
def Mach.delivers (m : Mach) : Bool := m.mayMaster || (m.draining && m.auth)

/-- Memory requests may leave: Bus Master Enable is set, no drain, reset or D3hot stands, and the host island runs (R328, R332, R333, R465). -/
def Mach.mayRequest (m : Mach) : Bool :=
  m.delivers && m.ep.up && m.ep.bme && !m.ep.drain && !m.ep.d3 && !m.ep.flr && m.islandOn 0x31

/-! ### MSI-X and endpoint causes -/

/-- Entry `k` of the MSI-X table. -/
def Mach.msixEntry (m : Mach) (k : Nat) : MsixEntry := m.ep.msix.get {} k

/-- The third row of R323 holds for vector `k`; D3hot has the effects of R328 (R333). -/
def Mach.msixHeld (m : Mach) (k : Nat) : Bool :=
  m.ep.msixFmask || (m.msixEntry k).mask || !m.ep.bme || m.ep.drain || m.ep.d3 || !m.mayMaster

/-- Queue the message of vector `k`, which takes its place in the posted-write order (R323). -/
def Mach.sendMsix (m : Mach) (k : Nat) : Mach :=
  { m with ep.writes := m.ep.writes ++ [{ chan := none, addr := 0, data := [], vector := some k }] }

/-- The message of vector `k` leaves: its address and data are read now (R323). -/
def Mach.emitMsix (m : Mach) (k : Nat) : Mach :=
  let e := m.msixEntry k
  m.emit (.msix k (e.addrHi * 2 ^ 32 + e.addrLo) e.data)

/-- Insert a number in a rising list without repeats. -/
def insertNat (k : Nat) : List Nat → List Nat
  | [] => [k]
  | a :: t => if k < a then k :: a :: t else if k = a then a :: t else a :: insertNat k t

/-- A raise of vector `k`, by the rows of R323 in order; one of a module without authority is not sent afterwards (R413). -/
def Mach.raise (m : Mach) (k : Nat) : Mach :=
  if m.ep.msixEnable = false then { m with ep.msixDropped := (m.ep.msixDropped + 1) % 2 ^ 32 }
  else if m.ep.pba.contains k then { m with ep.msixMerged := (m.ep.msixMerged + 1) % 2 ^ 32 }
  else if m.msixHeld k then
    { m with ep.pba := insertNat k m.ep.pba, ep.muted := if m.auth then m.ep.muted else insertNat k m.ep.muted }
  else m.sendMsix k

/-- Send every pending message whose conditions have ended (R323), lowest vector first. -/
def Mach.flushMsix (m : Mach) : Mach :=
  if m.ep.msixEnable then
    m.each m.ep.pba fun k m =>
      if m.msixHeld k then m else { m.sendMsix k with ep.pba := m.ep.pba.erase k, ep.muted := m.ep.muted.erase k }
  else m

/-- Set bit `b` of INT_CAUSE; an enabled cause that goes from 0 to 1 raises INT_VECTOR (R320). -/
def Mach.cause (m : Mach) (b : Nat) : Mach :=
  if bitOf m.ep.intCause b then m
  else
    let m := { m with ep.intCause := putBit m.ep.intCause b true }
    if bitOf m.ep.intEnable b then m.raise m.ep.intVector else m

/-- Bit of an error in the AER uncorrectable status (R335). -/
def aerBit (code : Nat) : Nat := match code with | 1 => 14 | 2 => 16 | 3 => 12 | 4 => 15 | _ => 20

/-- Log an error through AER, and signal it unless it is masked or not to be reported (R335, notes/assumptions/54.md). One that is advisory
non-fatal is logged as correctable too and signalled as such, unless its severity has been made fatal. -/
def Mach.report (m : Mach) (code : Nat) (advisory : Bool) : Mach :=
  let b := aerBit code
  let c := m.ep.cfg
  let fatal := bitOf c.aerUncSev b
  let adv := advisory && !fatal
  let m := { m with ep.cfg := { c with aerUnc := putBit c.aerUnc b true, aerCor := if adv then putBit c.aerCor 13 true else c.aerCor } }
  let on := bitOf c.report (if adv then 0 else if fatal then 2 else 1) && !bitOf c.aerUncMask b && !(adv && bitOf c.aerCorMask 13)
  if on then m.emit (.aer code) else m

/-- Errors that are advisory non-fatal by the table of R335: an unexpected completion and a Completer Abort. -/
def Mach.aer (m : Mach) (code : Nat) : Mach := m.report code (code == 2 || code == 4)

/-- Correctable errors of the link are logged only (R335): `errors` holds their bits in the AER correctable status, receiver 0, bad TLP 6, bad DLLP 7,
replay rollover 8 and replay timer 12; a Flit error counts as a receiver error (notes/assumptions/54.md). -/
def Mach.linkErrors (m : Mach) (errors : Nat) : Mach := { m with ep.cfg := { m.ep.cfg with aerCor := m.ep.cfg.aerCor ||| (errors &&& 0x11C1) } }

/-- The configuration space answers: the data link is up, the module is powered and the host island runs (R327, R465). -/
def Mach.configured (m : Mach) : Bool := m.ep.up && m.rd E.MODULE_STATE != 0 && m.islandOn 0x31

/-- BAR0 and BAR2 are open to requests: Memory Space Enable is 1 and the function is not in D3hot (R327, R333, R335). -/
def Mach.bar0 (m : Mach) : Bool := m.configured && !m.ep.d3 && m.ep.cfg.mse

/-- A request to BAR0 or BAR2 that is not served: it is unsupported, or not received (R335). -/
def Mach.unsupported (m : Mach) : Mach := m.when m.configured fun m => m.aer 5

/-- A write to BAR0 or BAR2. -/
def Mach.barWrite (m : Mach) (f : Mach → Mach) : Mach := if m.bar0 then f m else m.unsupported

/-- A read of BAR0 or BAR2: served, or answered with Unsupported Request, an advisory non-fatal error as the base specification requires for a
non-posted request (R333, R335, notes/assumptions/54.md). -/
def Mach.barRead (m : Mach) (f : Mach → Mach) : Mach :=
  if m.bar0 then f m else m.when m.configured fun m => (m.emit (.readErr 1)).report 5 true

/-! ### Channels and limiters -/

/-- Channel DCc. -/
def Mach.chan (m : Mach) (c : Nat) : Chan := m.chans.get {} c
/-- Replace channel DCc. -/
def Mach.setChan (m : Mach) (c : Nat) (x : Chan) : Mach := { m with chans := SMap.set {} m.chans c x }

/-- The limiter share h of a channel (R356). -/
def Mach.share (m : Mach) (c : Nat) : Nat := m.rd E.SHARE_FORECAST c + m.rd E.SHARE_EXTRA c

/-- DEPTH of the limiter: 4,096 bytes in 1/1,024 byte (R356). -/
def limiterDepth : Nat := 4096 * 1024

/-- Bring a channel's credit up to this instant (R356): h × E units per ns, at most DEPTH. -/
def Mach.refill (m : Mach) (c : Nat) : Mach :=
  let x := m.chan c
  m.setChan c { x with cred := Nat.min limiterDepth (x.cred + (m.ns - x.credAt) * (m.share c * m.ep.e)), credAt := m.ns }

/-- Bring every channel's credit up to this instant, before the shares or E change (R356). -/
def Mach.refillAll (m : Mach) : Mach := m.each (m.chans.map Prod.fst) fun c m => m.refill c

/-- A channel leaves IDLE with a full bucket (R356). -/
def Mach.fillLimiter (m : Mach) (c : Nat) : Mach :=
  m.setChan c { m.chan c with cred := limiterDepth, credAt := m.ns }

/-- Class of a channel in force (R337). -/
def Mach.chClass (m : Mach) (c : Nat) : Nat := m.rd E.CH_CLASS c

/-- A to-host Class C channel (R337). -/
def Mach.toHostC (m : Mach) (c : Nat) : Bool := m.chClass c == 2 && m.rd E.RING_DIR c == 0

/-- SLOT_BYTES in force: 32 for a channel that a decision ring names (R348). -/
def Mach.slotBytes (m : Mach) (c : Nat) : Nat :=
  if (List.range 8).any fun r => m.rd E.DEC_CHANNEL r == c then 32 else m.rd E.SLOT_BYTES c

/-- Slots Z of a ring (R346). -/
def Mach.ringSlots (m : Mach) (c : Nat) : Nat := 2 ^ m.rd E.RING_ORDER c / m.slotBytes c

/-- Slots a unit of `n` bytes takes (R347). -/
def Mach.slotsOf (m : Mach) (c n : Nat) : Nat := cdiv n (m.slotBytes c)

/-! ### The channel queue (R337, R339, R349) -/

/-- SEQ `a` lies before `b`: their difference modulo 2^48 as a signed number (R339). -/
def seqLess (a b : Nat) : Bool := decide (2 ^ 47 ≤ (a + 2 ^ 48 - b) % 2 ^ 48)

/-- The lesser of two SEQ values. -/
def seqMin (a b : Nat) : Nat := if seqLess b a then b else a

/-- The delivery of a stream with an id. -/
def Stream.deliv (x : Stream) (id : Nat) : Option Deliv := x.delivs.find? fun d => d.id == id

/-- A unit may follow its stripe's veneer now: the veneer is posted. -/
def Mach.veneerOut (m : Mach) (u : Unit) : Bool :=
  match (m.strm u.stream).deliv u.deliv with
  | some d => d.posted
  | none => true

/-- The unit that the channel writes next (R337): one in progress that precedes a veneer, one that has its SEQ and no place yet
(R362, R414) behind a logged one in progress, the first that precedes a veneer, one in progress that follows its veneer, the first whose veneer is posted. A
channel in DRAINING goes on with its units in progress. Behind a unit that a new active awaits, none (R414). -/
def Mach.headUnit (m : Mach) (c : Nat) : Option Unit :=
  let x := m.chan c
  let q := x.queue
  let busy := fun (u : Unit) => decide (0 < u.placed)
  let early := q.find? fun u => busy u && !u.late
  let late := q.find? busy
  let u := early.or ((if x.state = 5 then late else none).or
    ((q.find? fun u => busy u && u.logged).or ((q.find? fun u => !busy u && u.seq.isSome).or ((q.find? fun u => !u.late).or (late.or (q.find? m.veneerOut))))))
  u.filter fun u => !u.awaited

/-- The head of the queue starts its wait (R349). -/
def Mach.markHead (m : Mach) (c : Nat) : Mach :=
  match m.headUnit c with
  | none => m
  | some u =>
    if u.headAt.isSome then m
    else
      let x := m.chan c
      m.setChan c { x with queue := x.queue.map fun (v : Unit) => if v = u then { v with headAt := some m.ns } else v }

/-! ### Posted writes -/

/-- Split bytes for the host at Max_Payload_Size and at 4 KiB boundaries (R318). -/
def splitWrite (mps : Nat) : Nat → Nat → Bytes → List (Nat × Bytes)
  | 0, _, _ => []
  | fuel + 1, a, b =>
    if b.isEmpty then []
    else
      let n := Nat.max 1 (Nat.min mps (4096 - a % 4096))
      (a, b.take n) :: splitWrite mps fuel (a + n) (b.drop n)

/-- Queue a posted write of channel `c` (R318). -/
def Mach.post (m : Mach) (c seq : Nat) (writeBack : Bool) (a : Nat) (b : Bytes) : Mach :=
  { m with ep.writes := m.ep.writes ++ (splitWrite (m.rd E.MPS_NOW) b.length a b).map fun w =>
      { chan := some c, seq := seq, writeBack := writeBack, addr := w.1, data := w.2 } }

/-- The oldest posted write may leave now: requests may, and the engine is not stopped, whose writes go on at its restart (R359). -/
def Mach.mayLeave (m : Mach) (w : HostWrite) : Bool := m.mayRequest && (w.vector.isSome || m.rd E.ENGINE_STATE == 0)

/-- Send the oldest posted write when it may leave (notes/assumptions/7.md): it becomes an output, and a
unit none of whose writes is left is complete. -/
def Mach.sendOldest (m : Mach) : Mach :=
  match m.ep.writes with
  | [] => m
  | w :: ws =>
    if m.mayLeave w then
      let m := { m with ep.writes := ws }
      match w.vector with
      | some k => if m.mayMaster then m.emitMsix k else { m with ep.pba := insertNat k m.ep.pba }
      | none =>
        let m := m.emit (.hostWrite w.addr w.data)
        match w.chan with
        | none => m
        | some c =>
          if ws.any fun v => v.chan == some c && v.seq == w.seq && !v.writeBack then m
          else if w.writeBack then m
          else
            let x := m.chan c
            let partly := x.queue.any fun u => u.seq == some w.seq && decide (0 < u.placed)
            if partly then m else m.setChan c { x with issued := x.issued.filter fun i => i.seq ≠ w.seq }
    else m

/-- DONE write-backs of a unit that are issued (R344). -/
def Unit.closed (u : Unit) : Nat := ((u.plan.take u.done).filter Planned.closes).length

/-- A unit that is to be written again in full, from its place (R362). -/
def Unit.again (u : Unit) : Unit := { u with done := 0 }

/-- A unit that gives its place up: it is written in full wherever its channel takes it next, with its SEQ (R341, R362). -/
def Unit.afresh (u : Unit) : Unit := { u.again with placed := 0, place := 0, plan := [] }

/-- HW_INDEX of a ring (R347): in front of the units that hold a place and are not wholly issued. -/
def Chan.ringIndex (x : Chan) : Nat :=
  match x.queue.find? fun u => decide (0 < u.placed) with
  | some u => u.place
  | none => x.alloc

/-- The writes of a channel that are not sent are discarded (R328, R362): the units that had a data write discarded and those not
wholly issued are to be written again in full from their places, in the order in which they started; a write-back of a unit that
stays complete is issued again alone. -/
def Chan.restore (x : Chan) (c : Nat) (ring : Bool) (lost : List HostWrite) : Chan :=
  let mine := lost.filter fun w => w.chan == some c
  let hit := fun (seq : Nat) => mine.any fun w => w.seq == seq && !w.writeBack
  let back := (x.issued.filter fun i => hit i.seq).map fun i => { i.unit with seq := some i.seq, headAt := none }
  let live := x.queue.filter fun u => decide (0 < u.placed)
  let alone := fun (w : HostWrite) => w.writeBack && !hit w.seq && !(live.any fun u => u.seq == some w.seq)
  let y : Chan := { x with issued := [], queue := (back ++ x.queue).map fun (u : Unit) => if 0 < u.placed then u.again else u,
                           redo := ((mine.filter alone).map fun w => { write := w }) ++ x.redo }
  { y with hw := if ring then y.ringIndex else (x.hw + 2 ^ 32 - (((back ++ live).map Unit.closed).sum)) % 2 ^ 32 }

/-- Discard every posted write not yet sent (R328, R332, R395): data writes are dropped and their units
restored, messages become pending again (R323). Answers the number of writes discarded. -/
def Mach.discardWrites (m : Mach) : Nat × Mach :=
  let lost := m.ep.writes.filter fun w => w.vector == none
  let msgs := m.ep.writes.filterMap fun w => w.vector
  let m := { m with ep.writes := [], ep.pba := msgs.foldl (fun l k => insertNat k l) m.ep.pba }
  (lost.length, m.each (List.range 128) fun c m => (m.setChan c ((m.chan c).restore c (m.toHostC c) lost)).markHead c)

/-- Every channel in RUN or TAIL_WAIT goes to HELD (R328, R340). -/
def Mach.holdChannels (m : Mach) : Mach :=
  m.each (List.range 128) fun c m =>
    let x := m.chan c
    if x.state = 1 ∨ x.state = 2 then m.setChan c { x with state := 3 } else m

/-- Channels in HELD resume once every cause has ended (R329, R340, R362). -/
def Mach.resumeChannels (m : Mach) : Mach :=
  if m.mayRequest then
    m.each (List.range 128) fun c m =>
      if (m.chan c).state = 3 then m.setChan c { m.chan c with state := 1 } else m
  else m

/-- Reads outstanding and waiting are no longer wanted (R328, R359). A tail read thrown away is issued again (R362). -/
def Mach.abandonReads (m : Mach) : Mach :=
  let m := { m with ep.reads := m.ep.reads.map (fun (r : HostRead) => { r with wanted := false }), ep.waiting := [] }
  m.each (List.range 128) fun c m =>
    let x := m.chan c
    if x.fetching then m.setChan c { x with fetching := false, doorbell := x.doorbell || x.atTail } else m

/-! ### Fabric frames -/

/-- Fabric port p. -/
def Mach.fport (m : Mach) (p : Nat) : FPort := m.fports.get {} p
/-- Replace fabric port p. -/
def Mach.setFport (m : Mach) (p : Nat) (x : FPort) : Mach := { m with fports := SMap.set {} m.fports p x }

/-- The module's own fabric address (R370). -/
def Mach.fabAddr (m : Mach) : Nat := m.rd E.FAB_ADDR % 2 ^ 16

/-- The output port toward an address, when there is one (R374). -/
def Mach.route (m : Mach) (dst : Nat) : Option Nat :=
  let p := ((m.rdB E.ROUTE_TABLE).getD dst 0xFF).toNat
  if dst < 4096 ∧ p < 96 then some p else none

/-- Queue a frame on a port. -/
def Mach.queueFrame (m : Mach) (p : Nat) (f : FabMsg) : Mach :=
  m.setFport p { m.fport p with tx := (m.fport p).tx ++ [f] }

/-- Take the module's next frame number (R368): per flow on TC2, one sequence otherwise. -/
def Mach.nextFseq (m : Mach) (tc flow : Nat) : Nat × Mach :=
  if tc = 2 then
    let n := m.flowSeq.get 0 flow
    (n, { m with flowSeq := SMap.set 0 m.flowSeq flow ((n + 1) % 2 ^ 32) })
  else (m.fseq, { m with fseq := (m.fseq + 1) % 2 ^ 32 })

/-- Send a frame of the module's own to an address; answers whether there is a route. -/
def Mach.sendTo (m : Mach) (dst tc kind argA argB : Nat) (payload : Bytes) (flow : Nat := 0) : Bool × Mach :=
  match m.route dst with
  | none => (false, m)
  | some p =>
    let (n, m) := m.nextFseq tc flow
    (true, m.queueFrame p { tc := tc, kind := kind, dst := dst, src := m.fabAddr, flow := flow, fseq := n,
                            argA := argA, argB := argB, payload := payload })

/-- Send a frame to the neighbour of a port (DST 0xFFFF, R370). -/
def Mach.sendNeighbour (m : Mach) (p tc kind argA argB : Nat) (payload : Bytes) : Mach :=
  let (n, m) := m.nextFseq (if tc = 2 then 3 else tc) 0
  m.queueFrame p { tc := tc, kind := kind, dst := 0xFFFF, src := if m.fabAddr = 0 then 0xFFFF else m.fabAddr,
                   fseq := n, argA := argA, argB := argB, payload := payload }

end Sys2Proof.Machine
end

