-- ==== Sys2Proof/Machine/Hub.lean ====
section
/-! DEFINITION. The event hub: publication, gates, tasks and their actions (R301 to R311), the discrete
pins with their pulses (R257, R262), and the arms SW_PUBLISH, DIN_EDGE, RELAY_PUBLISH, TASK_PULSE_END,
HOLDOFF_END and PIN_GEN_WINDOW_END. -/

namespace Sys2Proof.Machine

/-! ### Pins -/

/-- Discrete pin DIO(i). -/
def Mach.pin (m : Mach) (i : Nat) : Pin := m.pins.get {} i
/-- Replace discrete pin DIO(i). -/
def Mach.setPin (m : Mach) (i : Nat) (x : Pin) : Mach := { m with pins := SMap.set {} m.pins i x }

/-- An enabled divider names the pin (R253): the channel runs and the pin is its A or B output. -/
def Mach.dividerPin (m : Mach) (i : Nat) : Bool :=
  (List.range 8).any fun n =>
    m.rd E.POS_MODE n != 0 && m.rd E.DIV_PIN n != 0xFF && (m.rd E.DIV_PIN n == i || m.rd E.DIV_PIN n + 1 == i)

/-- Is the level inverted: MG_POLARITY of the lowest-numbered sequencer naming the pin (R257). -/
def Mach.pinInverted (m : Mach) (i : Nat) : Bool :=
  match (List.range 32).find? fun k => m.rd E.MG_PIN k == i with
  | some k => m.rd E.MG_POLARITY k == 1
  | none => false

/-- Drive a pin to a level at an instant, while the module has output authority (R262). -/
def Mach.drive (m : Mach) (i : Nat) (level : Bool) (t : TW64) : Mach :=
  if m.auth ∧ (m.pin i).level ≠ level then
    (m.setPin i { m.pin i with level := level }).emit (.pin i level t)
  else m

/-- A pulse of the pin has started by `t`; each is on until its end is commanded. -/
def Pin.on (x : Pin) (t : TW64) : Bool := x.pulses.any fun q => decide (0 ≤ twDiff t q.2.1)

/-- The earliest start among the pulses of a pin. -/
def Pin.nextStart (x : Pin) : Option TW64 :=
  x.pulses.foldl (fun r q => match r with
    | none => some q.2.1
    | some t => if twDiff q.2.1 t < 0 then some q.2.1 else some t) none

/-- The pin's level from `t` on: the OR of the pulses on it, inverted where it says so (R257); where none is on, it changes at the next start. A
pin that an enabled divider names ignores pulses (R253). -/
def Mach.showPulses (m : Mach) (i : Nat) (t : TW64) : Mach :=
  if m.dividerPin i then m
  else
    let x := m.pin i
    let inv := m.pinInverted i
    let m := m.drive i (xor (x.on t) inv) t
    match x.nextStart with
    | some u => if x.on t then m else m.drive i (!inv) u
    | none => m

/-- Add a pulse from `t0` to `t1` to those of producer `who`: one still on at `t0` is prolonged to the later end (R257). -/
def Pin.addPulse (x : Pin) (who : Nat) (t0 t1 : TW64) : Pin :=
  match x.pulses.find? fun q => q.1 == who && decide (0 ≤ twDiff q.2.2 t0) with
  | none => { x with pulses := x.pulses ++ [(who, t0, t1)] }
  | some old => { x with pulses := x.pulses.map fun q =>
      if q = old then (who, (if twDiff t0 q.2.1 < 0 then t0 else q.2.1), (if 0 < twDiff q.2.2 t1 then q.2.2 else t1)) else q }

/-- A pulse of producer `who` on a pin from `t0` to `t1` (R257); where others are to start later, the pin changes at `t0`. -/
def Mach.pulse (m : Mach) (i who : Nat) (t0 t1 : TW64) : Mach :=
  if m.dividerPin i then m
  else
    let x := m.pin i
    let m := m.setPin i (x.addPulse who t0 t1)
    if x.pulses.isEmpty then m.showPulses i t0
    else if x.on t0 ∨ m.auth = false then m else m.emit (.pin i (!m.pinInverted i) t0)

/-- The pulse of producer `who` on a pin whose end is reached (R257). -/
def Mach.pulseOver (m : Mach) (i who : Nat) : Option (Nat × TW64 × TW64) :=
  (m.pin i).pulses.find? fun q => q.1 == who && decide (0 ≤ twDiff m.now q.2.2)

/-- A pulse of a pin ends. -/
def Mach.endPulse (m : Mach) (i : Nat) (q : Nat × TW64 × TW64) : Mach :=
  let x := m.pin i
  (m.setPin i { x with pulses := x.pulses.erase q }).showPulses i q.2.2

/-! ### Levels and gates -/

/-- Level signal `n` of R303. -/
def Mach.level (m : Mach) (n : Nat) : Bool :=
  if n < 32 then (m.pin n).input
  else if n = 32 then m.auth
  else if n = 33 then m.readyOrActive
  else if n = 34 then m.rd E.TIME_STATE == 2
  else if n = 35 then m.rd E.GM_EUI == m.rd E.MODULE_EUI
  else if n = 36 then m.rd E.PPS_IN_VALID == 1
  else if n = 37 then m.ep.bme
  else if n < 40 then false
  else bitOf (m.rd E.SW_LEVELS) (n - 40)

/-- A slot's gate is true: [7] gate used, [6] invert, [5:0] level (R304). -/
def Mach.gateOpen (m : Mach) (g : Nat) : Bool := !bitOf g 7 || xor (m.level (g % 64)) (bitOf g 6)

/-! ### Tasks -/

/-- Task TKt. -/
def Mach.task (m : Mach) (t : Nat) : Task := m.tasks.get {} t
/-- Replace task TKt. -/
def Mach.setTask (m : Mach) (t : Nat) (x : Task) : Mach := { m with tasks := SMap.set {} m.tasks t x }

/-- The 16-byte event record (R301). -/
def Event.record (e : Event) : Bytes :=
  leBytes 4 (e.ch + e.gen * 2 ^ 8 + e.src * 2 ^ 16) ++ leBytes 4 e.data ++ leBytes 8 e.stamp.toNat

/-- The slots of the units queued for a channel that have no place yet. -/
def Mach.queuedSlots (m : Mach) (c : Nat) : Nat :=
  (m.chan c).queue.foldl (fun r (u : Unit) => if u.placed = 0 then r + m.slotsOf c u.data.length else r) 0

/-- The fill of a ring (R347): HW_INDEX − SW_INDEX modulo 2^32, with the places taken behind HW_INDEX (R337). -/
def Chan.fill (x : Chan) : Nat := (x.alloc + 2 ^ 32 - x.sw) % 2 ^ 32

/-- A LOG action: the record enters the channel's queue when the channel is RUN and its ring holds it after
every unit ahead of it (R305, R349). -/
def Mach.logEvent (m : Mach) (t : Nat) (e : Event) : Mach :=
  let c := m.rd E.TASK_PARAM t % 128
  if m.mayMaster = false then m
  else if m.toHostC c ∧ (m.chan c).state = 1 ∧
      (m.chan c).fill + m.queuedSlots c + m.slotsOf c 16 ≤ m.ringSlots c then
    m.setChan c { m.chan c with queue := (m.chan c).queue ++
      [{ kind := 7, data := e.record, key := e.stamp.toNat, readyAt := m.ns,
         headAt := if (m.chan c).queue.any fun u => !u.late then none else some m.ns }] }
  else m.inc E.TASK_DROPS t

/-- LTC at which a relay publishes that is activated now: the action leaves the hub with the cycle behind the activation's, and TASK_DELAY after it,
rounded up to whole hub cycles of 2 ticks (R305, R306). -/
def Mach.relayDue (m : Mach) (t : Nat) : Nat := m.ltc.toNat + 2 + 2 * cdiv (m.rd E.TASK_DELAY t * 7) 10

/-- What an activation does (R305). -/
def Mach.act (m : Mach) (t : Nat) (e : Event) : Mach :=
  let prm := m.rd E.TASK_PARAM t
  match m.rd E.TASK_KIND t with
  | 1 => m.raise (prm % 2048)
  | 2 =>
    let x := m.task t
    if x.relays.length < 4 then
      m.setTask t { x with relays := x.relays ++ [({ e with ch := prm % 256, src := 0x8000 + t }, m.relayDue t)] }
    else m.inc E.TASK_DROPS t
  | 3 =>
    let i := prm % 32
    if m.auth ∧ m.dividerPin i = false then
      let t0 := m.ioCycle m.now
      let m := m.pulse i (256 + t) t0 (t0 + BitVec.ofNat 64 (m.rd E.TASK_DELAY t * 256))
      m.setPin i { m.pin i with marks := (m.pin i).marks ++ [(t, e.gen, none)] }
    else m.inc E.TASK_DROPS t
  | 4 => m.logEvent t e
  | 5 =>
    let r := m.sendTo (prm % 4096) 1 0x20 (prm / 2 ^ 16 % 256) 0 e.record
    if r.1 then r.2 else m.inc E.TASK_DROPS t
  | _ => m

/-- An activation of a task (R305, R309). -/
def Mach.activate (m : Mach) (t : Nat) (e : Event) : Mach :=
  let m := m.inc E.ACTIVATIONS t
  let m := m.wr E.TASK_LAST t e.stamp.toNat
  let m := m.setTask t { m.task t with lastAt := some m.ltc.toNat }
  m.act t e

/-- The task's last activation lies within TASK_HOLDOFF (R309). -/
def Mach.heldOff (m : Mach) (t : Nat) : Bool :=
  (m.task t).lastAt.any fun a => decide ((m.ltc.toNat - a) * 5 < m.rd E.TASK_HOLDOFF t * 7)

/-- Once the holdoff is over, the task makes one activation with the latest deferred event; the next holdoff counts from the end of this one (R309). -/
def Mach.endHoldoff (m : Mach) (t : Nat) : Mach :=
  match (m.task t).deferred with
  | none => m
  | some e =>
    if m.heldOff t then m
    else
      let ended := (m.task t).lastAt.map fun a => Nat.min m.ltc.toNat (a + cdiv (m.rd E.TASK_HOLDOFF t * 7) 5)
      let m := (m.setTask t { m.task t with deferred := none }).activate t e
      m.setTask t { m.task t with lastAt := ended.or (m.task t).lastAt }

/-- An event reaches a task that it passes: behind the activation that the end of a holdoff brings, and deferred by a holdoff (R309). -/
def Mach.reach (m : Mach) (t : Nat) (e : Event) : Mach :=
  let m := m.endHoldoff t
  if m.heldOff t then (m.setTask t { m.task t with deferred := some e }).inc E.HOLDOFF_MERGED t
  else m.activate t e

/-- One slot of a task in a hub cycle: the event on its channel, and whether its gate lets it pass (R304). -/
def Mach.slotMeets (m : Mach) (es : List Event) (ch gate : Nat) : Option (Event × Bool) :=
  (es.find? fun (e : Event) => e.ch == ch).map fun e => (e, m.gateOpen gate)

/-- The events delivered in a hub cycle meet the two slots of a task (R304, R308). -/
def Mach.meetTask (es : List Event) (t : Nat) (m : Mach) : Mach :=
  if m.rd E.TASK_ENABLE t = 0 then m
  else
    let a := m.slotMeets es (m.rd E.SLOT0 t) (m.rd E.SLOT0_GATE t)
    let b := m.slotMeets es (m.rd E.SLOT1 t) (m.rd E.SLOT1_GATE t)
    let m := m.inc E.GATED t (bn (a.any fun x => !x.2) + bn (b.any fun x => !x.2))
    match a.filter (·.2), b.filter (·.2) with
    | some x, some y => (m.inc E.COINCIDENCES t).reach t { x.1 with gen := max x.1.gen y.1.gen }
    | some x, none => m.reach t x.1
    | none, some y => m.reach t y.1
    | none, none => m

/-- Publish an event: it enters the hub in the present cycle, unless the crossing to the hub is isolated (R465). A generation of 8 is not published
(R311). -/
def Mach.publish (m : Mach) (e : Event) : Mach :=
  if 256 ≤ e.ch ∨ m.hubOn = false then m
  else if 8 ≤ e.gen then m.inc E.GEN_DROPS 0
  else { m with hub := m.hub ++ [e] }

/-- The event that a channel delivers of those that entered in one cycle: the first of least SOURCE (R307). -/
def leastSource (es : List Event) (ch : Nat) : Option Event :=
  (es.filter fun (e : Event) => e.ch == ch).foldl (fun (r : Option Event) e => match r with
    | some x => if e.src < x.src then some e else r
    | none => some e) none

/-- The channels of a list of events, each once. -/
def channelsOf (es : List Event) : List Nat := es.foldl (fun (r : List Nat) e => if r.contains e.ch then r else r ++ [e.ch]) []

/-- A hub cycle ends (R304, R306, R307): every channel delivers one of the events that entered, the others count as merged, and every
task sees all that are delivered at once. -/
def Mach.hubCycle (m : Mach) : Mach :=
  let es := m.hub
  let out := (channelsOf es).filterMap (leastSource es)
  let m := out.foldl (fun (m : Mach) e =>
    let m := (m.inc E.HUB_EVENTS 0).inc E.EC_EVENTS e.ch
    let m := m.inc E.EC_MERGED e.ch ((es.filter fun (x : Event) => x.ch == e.ch).length - 1)
    m.wr E.EC_LAST e.ch e.stamp.toNat) { m with hub := [] }
  if out.isEmpty then m else m.each (List.range 256) (Mach.meetTask out)

/-- Publish as a producer of a kind and number on the channel that its entry names; 0xFFFF publishes nothing (R302). -/
def Mach.produce (m : Mach) (kind num ch data : Nat) (t : TW64) : Mach :=
  m.publish { ch := ch, src := kind * 4096 + num, data := data % 2 ^ 32, stamp := t }

/-- A mark's window is over: PIN_GEN_WINDOW has passed after the end of its pulse (R311). -/
def Mach.markOver (m : Mach) (k : Nat × Nat × Option Nat) : Bool :=
  k.2.2.any fun a => decide (m.rd E.PIN_GEN_WINDOW * 7 ≤ (m.ltc.toNat - a) * 5)

/-- The generation of a discrete-input event: one above the greatest open mark (R311). -/
def Mach.pinGen (m : Mach) : Nat :=
  (List.range 32).foldl (fun g i => (m.pin i).marks.foldl (fun g k => if m.markOver k then g else max g (k.2.1 + 1)) g) 0

/-- The pins among `l` are driven as the sequencers that now name them, and their polarity, ask (R257); one that no sequencer, task
or divider drives is left as it is. -/
def Mach.pinsNamed (m : Mach) (l : List Nat) : Mach :=
  m.each (l.filter fun i => decide (i < 32)) fun i m => m.showPulses i m.now

/-! ### Arms -/

/-- A software event on a channel (R302): SW_PUBLISH [7:0] with DATA [63:32]. -/
def Mach.swPublish (m : Mach) (v : Nat) : Mach := m.produce 0 0 (v % 256) (v / 2 ^ 32) m.now

/-- DIN_EDGE: an input level passes its filter at `t`; the event is stamped with the edge's sample, DIN_FILTER earlier (R302, R311).
Pins in the off I/O domain see nothing (R466). -/
def execDinEdge (i : Nat) (rising : Bool) (t : TW64) (s : State) : Host.Outcome State Fault Refusal :=
  s.onMach (i < 32) fun m =>
    m.when (m.ioOn && (m.pin i).input != rising) fun m =>
      let m := m.setPin i { m.pin i with input := rising }
      let sel := m.rd E.DIN_EDGE i
      if sel = 3 ∨ (sel = 1 ∧ rising = true) ∨ (sel = 2 ∧ rising = false) then
        m.publish { ch := m.rd E.DIN_EC i, gen := m.pinGen, src := 0x7000 + i, data := bn rising,
                    stamp := t - BitVec.ofNat 64 (m.rd E.DIN_FILTER i * 256) }
      else m

/-- RELAY_PUBLISH: the oldest publication of a relay task that is due (R305). -/
def execRelayPublish (t : Nat) (s : State) : Host.Outcome State Fault Refusal :=
  s.onMach (t < 256) fun m =>
    match (m.task t).relays.find? fun e => decide (e.2 ≤ m.ltc.toNat) with
    | none => m
    | some e => (m.setTask t { m.task t with relays := (m.task t).relays.erase e }).publish { e.1 with stamp := m.now }

/-- TASK_PULSE_END: the pulse reaches TASK_DELAY and the pin is released; its marks' window starts (R305, R311). -/
def execTaskPulseEnd (t : Nat) (s : State) : Host.Outcome State Fault Refusal :=
  s.onMach (t < 256) fun m =>
    m.each (List.range 32) fun i m =>
      match m.pulseOver i (256 + t) with
      | none => m
      | some q =>
        let m := m.endPulse i q
        m.setPin i { m.pin i with marks := (m.pin i).marks.map fun k =>
          if k.1 = t ∧ k.2.2.isNone then (k.1, k.2.1, some m.ltc.toNat) else k }

/-- HOLDOFF_END: at the end of the holdoff, one activation with the latest deferred event (R309). -/
def execHoldoffEnd (t : Nat) (s : State) : Host.Outcome State Fault Refusal :=
  s.onMach (t < 256) fun m => m.endHoldoff t

/-- PIN_GEN_WINDOW_END: the marks of a pin whose window is over close (R311). -/
def execPinGenWindowEnd (i : Nat) (s : State) : Host.Outcome State Fault Refusal :=
  s.onMach (i < 32) fun m =>
    m.setPin i { m.pin i with marks := (m.pin i).marks.filter fun k => !m.markOver k }

end Sys2Proof.Machine
end

