-- ==== Sys2Proof/Machine/Terms.lean ====
section
/-! DEFINITION. The terms of a contract (R108) as its 38 field values in subindex order, and what step 1 of
R120 derives from them. -/

namespace Sys2Proof.Machine

/-- The values of 0x3100+s.01 to .26 in subindex order. -/
abbrev Terms := List Nat

/-- The staging fields of a contract in subindex order (R108). -/
def contractFields : List Entry :=
  [E.PORT, E.VC, E.SCAN_MODE, E.DT, E.ROW_PIXELS, E.ROWS_PER_LINE, E.LINE_ORDER, E.FRAME_LINES,
   E.SOURCE_NODE, E.PACKETS_PER_LINE, E.LINE_RATE_MAX, E.LINE_RATE_MIN, E.FRAME_RATE_MAX, E.STRIPE_ROWS,
   E.PROFILE, E.OUTPUTS, E.DMA_VENEER, E.DMA_STRIPE, E.DMA_STATS, E.DMA_RECORD, E.DMA_TILE,
   E.SHARE_VENEER, E.SHARE_STRIPE, E.SHARE_STATS, E.SHARE_RECORD, E.SHARE_TILE, E.OBJ_MAX, E.TILE_BYTES,
   E.DEADLINE, E.LOOK_GRACE, E.CREDIT_STALL, E.RETAIN, E.PLANER_MASK, E.MAX_HOPS, E.SET_LATENCY,
   E.TRIG_RATE, E.PHASE_GROUP, E.PHASE_NS]

/-- The defaults of R108. -/
def Terms.dflt : Terms := contractFields.map fun e => e.dflt.toNat

/-- The staged terms of stream s. -/
def Mach.staged (m : Mach) (s : Nat) : Terms := contractFields.map fun e => m.rd e s

/-- Put staged values back from terms (R111 discard). -/
def Mach.stage (m : Mach) (s : Nat) (t : Terms) : Mach :=
  (contractFields.zip t).foldl (fun m x => m.wr x.1 s x.2) m

/-- The terms of the contract as last admitted: IN_FORCE (R108). -/
def Mach.force (m : Mach) (s : Nat) : Terms :=
  let f := (m.strm s).force
  if f.isEmpty then Terms.dflt else f

/-- IN_FORCE as bytes (R133): each field at its type's width, unpadded. -/
def Mach.inForce (m : Mach) (s : Nat) : Bytes :=
  ((contractFields.zip (m.force s)).map fun x => leBytes x.1.ty.bytes x.2).flatten

namespace Terms

/-- Field at subindex `i` of 0x3100+s. -/
def f (t : Terms) (i : Nat) : Nat := List.getD t (i - 1) 0

def port (t : Terms) := t.f 0x01
def vc (t : Terms) := t.f 0x02
/-- Area-scan (R108). -/
def area (t : Terms) : Bool := t.f 0x03 == 1
def dt (t : Terms) := t.f 0x04
def rowPixels (t : Terms) := t.f 0x05
def rowsPerLine (t : Terms) := t.f 0x06
def lineOrder (t : Terms) := t.f 0x07
def frameLines (t : Terms) := t.f 0x08
def sourceNode (t : Terms) := t.f 0x09
def packetsPerLine (t : Terms) := t.f 0x0A
def lineRateMax (t : Terms) := t.f 0x0B
def lineRateMin (t : Terms) := t.f 0x0C
def frameRateMax (t : Terms) := t.f 0x0D
def stripeRows (t : Terms) := t.f 0x0E
def profile (t : Terms) := t.f 0x0F
def outputs (t : Terms) := t.f 0x10
def dma (t : Terms) (role : Nat) := t.f (0x11 + role)
def shareOf (t : Terms) (role : Nat) := t.f (0x16 + role)
def objMax (t : Terms) := t.f 0x1B
def tileBytes (t : Terms) := t.f 0x1C
def deadline (t : Terms) := t.f 0x1D
def lookGrace (t : Terms) := t.f 0x1E
def creditStall (t : Terms) := t.f 0x1F
def retain (t : Terms) := t.f 0x20
def planerMask (t : Terms) := t.f 0x21
def maxHops (t : Terms) := t.f 0x22
def setLatency (t : Terms) := t.f 0x23
def trigRate (t : Terms) := t.f 0x24
def phaseGroup (t : Terms) := t.f 0x25
def phaseNs (t : Terms) := t.f 0x26
/-- The stream is received on another node (R379). -/
def remote (t : Terms) : Bool := t.sourceNode != 0xFFFF

/-- Bits per pixel b of a data type (R70). -/
def bits (t : Terms) : Nat :=
  match t.dt with
  | 0x08 => 8 | 0x09 => 10 | 0x0A => 12 | 0x0B => 14 | _ => 16

/-- Is role 0 veneer, 1 stripe, 2 statistics, 3 record or 4 tile produced? -/
def produced (t : Terms) (role : Nat) : Bool := role == 0 || bitOf t.outputs (role - 1)

/-- LB, payload bytes per line (R120). -/
def lb (t : Terms) : Nat := cdiv (t.rowPixels * t.rowsPerLine * t.bits) 8
/-- Lmin (R120). -/
def lmin (t : Terms) : Nat :=
  if 0 < t.lineRateMin ∧ t.lineRateMin ≤ t.lineRateMax then t.lineRateMin else t.lineRateMax
def pline (t : Terms) : Nat := cdiv (10 ^ 12) t.lineRateMax
def pslow (t : Terms) : Nat := cdiv (10 ^ 12) t.lmin
def pstr (t : Terms) : Nat := t.stripeRows / t.rowsPerLine * t.pline
def sr (t : Terms) : Nat := cdiv (t.lineRateMax * t.rowsPerLine) t.stripeRows
/-- Cycles of a stripe with its kerf: Cc of R142. -/
def cycles (t : Terms) : Nat := (t.stripeRows + 12) * cdiv t.rowPixels 16 + 32
/-- C, ps of a stripe on its planer (R120). -/
def c (t : Terms) : Nat := cdiv (t.cycles * 4000) 7
def nlook (t : Terms) : Nat := cdiv 6 t.rowsPerLine
def tlook (t : Terms) : Nat := t.nlook * t.pslow + t.lookGrace * 1000
/-- Release jitter J (R120). -/
def j (t : Terms) : Nat := t.nlook * (t.pslow - t.pline) + t.lookGrace * 1000
/-- D, kbit/s on the port's link (R120 step 2). -/
def d (t : Terms) : Nat :=
  cdiv (8 * (t.lineRateMax * (t.lb + 33 * t.packetsPerLine) + cdiv t.frameRateMax 1000 * 58)) 1000
/-- Ret, bytes of the retention ring (R120 step 4). -/
def ret (t : Terms) : Nat := cdiv (t.lb * t.lineRateMax * t.retain) (1000 * 2097152) * 2097152
/-- Q, bytes of a slot of the retention ring (R325). -/
def slotQ (t : Terms) : Nat := cdiv t.lb 64 * 64

end Terms

/-- Bits per pixel of an output format (R210). -/
def formatBits (fmt ch : Nat) : Nat :=
  match fmt with
  | 0 => 8 | 1 => 16 | 2 => 8 * ch | 3 => 16 * ch | 4 => 12 * ch | 5 => 16 | _ => 16

/-- RB, bytes of a row of the stripe output (R211). -/
def rowBytesOut (rowPixels fmt ch : Nat) : Nat := cdiv (rowPixels * formatBits fmt ch) 512 * 64

/-- Number of ones among bits 0 to 7. -/
def popcount8 (n : Nat) : Nat := (List.range 8).foldl (fun r i => r + bn (bitOf n i)) 0

/-- S, bytes of a statistics record (R208). -/
def statsBytes (n zx zy en : Nat) : Nat :=
  32 + bn (bitOf en 0) * 1024 * n + bn (bitOf en 1) * 8 * n + bn (bitOf en 2) * (cdiv (2 * n * zx * zy) 8 * 8) +
    bn (bitOf en 3) * 8 * zx * zy

/-- U of a role of the terms, under the profile in force (R120 step 1). -/
def Mach.unitBytes (m : Mach) (t : Terms) (role : Nat) : Nat :=
  let n := t.profile
  if t.produced role = false then 0
  else match role with
    | 0 => 64
    | 1 => t.stripeRows * rowBytesOut t.rowPixels (m.rd E.OUT_FORMAT n) (m.rd E.OUT_CH n)
    | 2 => statsBytes (popcount8 (m.rd E.STATS_CH n)) (m.rd E.ZONES_X n) (if t.area then m.rd E.ZONES_Y n else 1)
             (m.rd E.STATS_EN n)
    | 3 => 128 * t.objMax
    | _ => t.tileBytes

/-- M, bytes per second of HBM traffic (R120 step 4). -/
def Mach.memDemand (m : Mach) (t : Terms) : Nat :=
  let w := t.lb * t.lineRateMax
  let hff := if t.area then t.stripeRows + 12 else m.rd E.PERIOD_H t.profile
  let tb := 65536 + 4 * t.rowPixels * hff
  let u := m.unitBytes t 1 + m.unitBytes t 2 + m.unitBytes t 3 + m.unitBytes t 4
  cdiv (w * (2 * t.stripeRows + 12)) t.stripeRows + (tb + 2 * u) * t.sr

/-- Terms as the payload of a RESERVE: the layout of IN_FORCE (R133, notes/assumptions/17.md). -/
def Terms.bytes (t : Terms) : Bytes := ((contractFields.zip t).map fun x => leBytes x.1.ty.bytes x.2).flatten

/-- Contract states (R110). -/
def cDRAFT : Nat := 0
/-- See `cDRAFT`. -/
def cFORECAST : Nat := 1
/-- See `cDRAFT`. -/
def cADMITTED : Nat := 2
/-- See `cDRAFT`. -/
def cRUNNING : Nat := 3
/-- See `cDRAFT`. -/
def cSUSPENDED : Nat := 4
/-- See `cDRAFT`. -/
def cREJECTED : Nat := 5

/-- State of the contract of stream s. -/
def Mach.cstate (m : Mach) (s : Nat) : Nat := m.rd E.CONTRACT_STATE s

/-- The contract is SUSPENDED with reason 2 (R110). -/
def Mach.suspended2 (m : Mach) (s : Nat) : Bool := m.cstate s == cSUSPENDED && m.rd E.SUSPEND_REASON s == 2

/-- The stream holds a context (R145): from its admission to its release, and while a re-forecast has SUSPENDED it too. -/
def Mach.hasContext (m : Mach) (s : Nat) : Bool := (m.strm s).admitted || m.suspended2 s

end Sys2Proof.Machine
end

