-- ==== Sys2Proof/Machine/Routes.lean ====
section
/-! DEFINITION. Routes over the fabric map: depth, up and down links, hop counts and ports (R373, R374). -/

namespace Sys2Proof.Machine

/-- A node's links as (neighbour, own port, link). -/
def FabMap.adj (g : FabMap) (n : Nat) : List (Nat × Nat × FabLink) :=
  g.links.flatMap fun l =>
    (if l.a = n then [(l.b, l.aPort, l)] else []) ++ (if l.b = n then [(l.a, l.bPort, l)] else [])

/-- Breadth-first distances over a neighbour function, 255 where there is none. -/
def bfs (nb : Nat → List Nat) : Nat → Nat → List Nat → SMap Nat → SMap Nat
  | 0, _, _, seen => seen
  | fuel + 1, k, fr, seen =>
    let r := fr.foldl (fun acc n => (nb n).foldl (fun (acc : List Nat × SMap Nat) x =>
      if SMap.get 255 acc.2 x = 255 then (acc.1 ++ [x], SMap.put x (k + 1) acc.2) else acc) acc) ([], seen)
    if r.1.isEmpty then r.2 else bfs nb fuel (k + 1) r.1 r.2

/-- Depth of every node: least hop count from the root over all links (R373). -/
def FabMap.depths (g : FabMap) (root : Nat) : SMap Nat :=
  bfs (fun n => (g.adj n).map fun x => x.1) 254 0 [root] [(root, 0)]

/-- Is the step from `n` to `x` up: from the end of greater depth, on equal depths of greater address (R373). -/
def isUp (depth : SMap Nat) (n x : Nat) : Bool :=
  let a := SMap.get 255 depth n
  let b := SMap.get 255 depth x
  decide (b < a) || (a == b && decide (x < n))

/-- Links of a node that routes may use: every link but those flagged DOVETAIL (R373). -/
def FabMap.open_ (g : FabMap) (n : Nat) : List (Nat × Nat × FabLink) := (g.adj n).filter fun x => !x.2.2.dovetail

/-- Ddown(·, d) of R374 for every node: distances from d over reversed down links. -/
def FabMap.downTo (g : FabMap) (depth : SMap Nat) (d : Nat) : SMap Nat :=
  bfs (fun n => ((g.open_ n).filter fun x => isUp depth n x.1).map fun x => x.1) 254 0 [d] [(d, 0)]

/-- Insert by a rising key. -/
def insertBy (key : Nat → Nat × Nat) (n : Nat) : List Nat → List Nat
  | [] => [n]
  | x :: t =>
    let a := key n
    let b := key x
    if a.1 < b.1 ∨ (a.1 = b.1 ∧ a.2 ≤ b.2) then n :: x :: t else x :: insertBy key n t

/-- H(·, d) of R374 for every node, without the DOVETAIL exception: nodes in rising order of depth and address,
so that the up neighbours come first. -/
def FabMap.hopsTo (g : FabMap) (depth : SMap Nat) (d : Nat) : SMap Nat :=
  let down := g.downTo depth d
  let order := (g.nodes.map fun x => x.2).foldr (insertBy fun n => (SMap.get 255 depth n, n)) []
  order.foldl (fun h n =>
    let dn := SMap.get 255 down n
    let v := if n = d then 0 else if dn < 255 then dn
      else ((g.open_ n).filter fun x => isUp depth n x.1).foldl (fun r x => min r (1 + SMap.get 254 h x.1)) 255
    SMap.put n (min v 255) h) []

/-- The DOVETAIL link from `n` to `d`, which the route between its two ends always uses (R373). -/
def FabMap.dovetailPort (g : FabMap) (n d : Nat) : Option Nat :=
  ((g.adj n).find? fun x => x.1 == d && x.2.2.dovetail).map fun x => x.2.1

/-- The least port of a list, when there is one. -/
def leastPort (l : List Nat) : Option Nat := l.foldl (fun r p => match r with | none => some p | some q => some (min p q)) none

/-- port(n, d) and H(n, d) of R374 over the links that are not flagged DOVETAIL: so go the frames of third nodes (R373). -/
def FabMap.openRoute (g : FabMap) (depth : SMap Nat) (n d : Nat) : Option (Nat × Nat) :=
  if n = d then none
  else
    let down := g.downTo depth d
    let h := g.hopsTo depth d
    let dn := SMap.get 255 down n
    if dn < 255 then
      (leastPort (((g.open_ n).filter fun x => !isUp depth n x.1 && SMap.get 255 down x.1 == dn - 1).map fun x => x.2.1)).map
        fun p => (p, dn)
    else
      let ups := (g.open_ n).filter fun x => isUp depth n x.1
      let best := ups.foldl (fun r x => min r (SMap.get 254 h x.1)) 254
      if best ≥ 254 then none
      else (leastPort ((ups.filter fun x => SMap.get 254 h x.1 == best).map fun x => x.2.1)).map fun p => (p, 1 + best)

/-- port(n, d) and H(n, d) of R374: the route from one end of a DOVETAIL link to the other always uses it (R373). -/
def FabMap.routeOf (g : FabMap) (depth : SMap Nat) (n d : Nat) : Option (Nat × Nat) :=
  match g.dovetailPort n d with
  | some p => if n = d then none else some (p, 1)
  | none => g.openRoute depth n d

/-- The root's address: that of the node with the least EUI among those of least priority; the map lists it
first in walk order (R372). -/
def FabMap.root (g : FabMap) : Nat :=
  match g.nodes with
  | [] => 0
  | x :: _ => x.2

/-- The links of the route from `n` to `d` without DOVETAIL links, at most `fuel` hops; none where there is no route. -/
def FabMap.openPath (g : FabMap) (depth : SMap Nat) : Nat → Nat → Nat → Option (List FabLink)
  | 0, _, _ => none
  | fuel + 1, n, d =>
    if n = d then some []
    else match g.openRoute depth n d with
    | none => none
    | some (p, _) =>
      match (g.adj n).find? fun x => x.2.1 == p with
      | none => none
      | some x => (g.openPath depth fuel x.1 d).map fun l => x.2.2 :: l

/-- The links of the route of frames of `n` to `d`: a DOVETAIL link between the two alone, where there is one (R373). -/
def FabMap.path (g : FabMap) (depth : SMap Nat) (fuel n d : Nat) : Option (List FabLink) :=
  match (g.adj n).find? fun x => x.1 == d && x.2.2.dovetail with
  | some x => if n = d then some [] else some [x.2.2]
  | none => g.openPath depth fuel n d

/-- The port by which this node sends frames of `src` to `dst`: those of other nodes never over a DOVETAIL link (R373, R374). -/
def Mach.routeFor (m : Mach) (src dst : Nat) : Option Nat :=
  if src ≠ m.fabAddr ∧ (m.fabMap.dovetailPort m.fabAddr dst).isSome then
    (m.fabMap.openRoute (m.fabMap.depths m.fabMap.root) m.fabAddr dst).map fun x => x.1
  else m.route dst

/-- The links of the route of a remote stream from a node to this module; none where there is no route. -/
def Mach.pathOf (m : Mach) (src : Nat) : Option (List FabLink) :=
  if m.fabAddr = 0 ∨ src = m.fabAddr then none else m.fabMap.path (m.fabMap.depths m.fabMap.root) 15 src m.fabAddr

/-- NET_RATE of every hop of that route, in order. -/
def Mach.routeRates (m : Mach) (src : Nat) : Option (List Nat) := (m.pathOf src).map fun l => l.map fun x => x.net

end Sys2Proof.Machine
end

