-- ==== Sys2Proof/Machine/Forecast.lean ====
section
/-! DEFINITION. The Forecast's admission arithmetic: static rules (R109), the computation of R120, placement
(R121), the order of the checks (R122), the live sets of a change (R129), and its results (R123, R134). -/

namespace Sys2Proof.Machine

/-- A contract as the Forecast counts it: its stream and its live sets, oldest first (R129). -/
structure Counted where
  s : Nat
  sets : List Live
  deriving DecidableEq, Repr

/-- A failed check: its reason, REJECT_DETAIL and REJECT_BOUND (R122). -/
structure Fail where
  reason : Nat
  detail : Nat
  bound : Nat := 0
  deriving DecidableEq, Repr

/-- REJECT_DETAIL of a kind and number (R122). -/
def detailOf (kind num : Nat) : Nat := kind * 2 ^ 16 + num % 2 ^ 16

/-- Place of a reason in the order of R122. -/
def reasonRank (r : Nat) : Nat :=
  [0x01, 0x02, 0x03, 0x40, 0x10, 0x12, 0x11, 0x30, 0x31, 0x41, 0x42, 0x20, 0x21, 0x23, 0x22, 0x50, 0x51].idxOf r

/-- The greatest of a list, 0 for none. -/
def maxOf (l : List Nat) : Nat := l.foldl max 0
/-- The least of a list, 0 for none. -/
def minOf : List Nat → Nat
  | [] => 0
  | x :: xs => xs.foldl min x
/-- The sum of a list. -/
def sumOf (l : List Nat) : Nat := l.foldl (· + ·) 0
/-- The sum over the keys of a list of the greatest value under each. -/
def sumGreatest {α : Type} (key : α → Nat × Nat) (val : α → Nat) (l : List α) : Nat :=
  sumOf ((l.map key).eraseDups.map fun k => maxOf ((l.filter fun a => key a == k).map val))

/-- Every admitted contract but that of stream `skip`, under its live sets, in ascending stream number. -/
def Mach.admittedBut (m : Mach) (skip : Nat) : List Counted :=
  (List.range 256).filterMap fun s =>
    let x := m.strm s
    if s ≠ skip ∧ x.admitted then some ⟨s, x.live⟩ else none

/-- Put a contract in its place by stream number. -/
def insertCounted (c : Counted) : List Counted → List Counted
  | [] => [c]
  | x :: t => if c.s < x.s then c :: x :: t else x :: insertCounted c t

/-! ### Static rules (R109) -/

/-- Is port p a camera port of this module (R109)? -/
def Mach.cameraPort (m : Mach) (p : Nat) : Bool :=
  p < 96 && m.rd E.PORT_WIDTH p != 0 && m.rd E.QUAD_ROLE (p / 4) == 1

/-- Class of channel of a role: 2 Class C, 1 Class S (R108). -/
def roleClass (role : Nat) : Nat := if role = 1 ∨ role = 4 then 1 else 2

/-- Reason 0x01 for a local stream. -/
def Mach.checkPort (m : Mach) (t : Terms) : Option Fail :=
  if t.remote ∨ m.cameraPort t.port then none else some ⟨0x01, detailOf 4 t.port, 0⟩

/-- Reason 0x02: the triple (SOURCE_NODE, PORT, VC) belongs to another admitted contract. -/
def checkInUse (others : List Counted) (t : Terms) : Option Fail :=
  match others.find? fun c => c.sets.any fun l =>
    Terms.sourceNode l.terms == t.sourceNode && Terms.port l.terms == t.port && Terms.vc l.terms == t.vc with
  | some c => some ⟨0x02, detailOf 1 c.s, 0⟩
  | none => none

/-- Reason 0x03. -/
def Mach.checkGeometry (m : Mach) (s : Nat) (t : Terms) : Option Fail :=
  if t.rowPixels * t.rowsPerLine ≤ 65536 ∧ t.stripeRows % t.rowsPerLine = 0 ∧
      t.stripeRows % m.rd E.PERIOD_H t.profile = 0 ∧
      (t.area = false ∨ t.stripeRows ≤ t.frameLines * t.rowsPerLine) then none
  else some ⟨0x03, detailOf 1 s, 0⟩

/-- Reason 0x40: every produced role names a channel of its class with a share of at least 1. -/
def Mach.checkChannels (m : Mach) (s : Nat) (t : Terms) : Option Fail :=
  (List.range 5).findSome? fun role =>
    if t.produced role = false then none
    else if t.dma role = 0xFF then some ⟨0x40, detailOf 1 s, 0⟩
    else if m.chClass (t.dma role) ≠ roleClass role ∨ t.shareOf role = 0 then some ⟨0x40, detailOf 3 (t.dma role), 0⟩
    else none

/-! ### Steps 2 to 5 -/

/-- D that a contract counts on port `p` of a source node (0xFFFF this module): the greatest of its live sets (R129). -/
def Counted.dOn (c : Counted) (node p : Nat) : Nat :=
  maxOf (c.sets.map fun l => if Terms.sourceNode l.terms = node ∧ Terms.port l.terms = p then Terms.d l.terms else 0)

/-- TRIG_RATE that a contract counts on port `p`. -/
def Counted.trigOn (c : Counted) (p : Nat) : Nat :=
  maxOf (c.sets.map fun l => if Terms.remote l.terms = false ∧ Terms.port l.terms = p then Terms.trigRate l.terms else 0)

/-- The occupied forward entries (R379). -/
def Mach.forwards (m : Mach) : List Fwd := (m.fwds.map fun x => x.2).filter fun (x : Fwd) => x.state != 0

/-- What the forward entries of port `p` count: the greatest value of each flow, for a change is counted with its live sets (R129). -/
def fwdSum (l : List Fwd) (p : Nat) (val : Fwd → Nat) : Nat :=
  sumGreatest (fun (x : Fwd) => (x.node, x.flow)) val (l.filter fun x => x.port == p)

/-- Cctl of step 2 for a port. -/
def Mach.cctl (m : Mach) (trig : Nat) : Nat := 16000 + cdiv (424 * (1000000 / m.rd E.BEACON_PERIOD + trig)) 1000

/-- Step 2 on port `p` of this module: may it carry the contracts `k` and the forward entries `l`? -/
def Mach.lanesFit (m : Mach) (k : List Counted) (l : List Fwd) (p : Nat) : Bool :=
  decide (sumOf (k.map fun c => c.dOn 0xFFFF p) + fwdSum l p Fwd.d +
    m.cctl (sumOf (k.map fun c => c.trigOn p) + fwdSum l p fun (x : Fwd) => Terms.trigRate x.terms) ≤ m.rd E.NET_RATE p)

/-- The first camera port of this module that fails step 2. -/
def Mach.tightPort (m : Mach) (k : List Counted) (l : List Fwd) : Option Nat :=
  (List.range 96).find? fun p => m.cameraPort p && !m.lanesFit k l p

/-- Step 2 (reason 0x10) for each camera port; a remote stream's is its source node's (R122). -/
def Mach.checkLanes (m : Mach) (k : List Counted) (t : Terms) : Option Fail :=
  if t.remote then none else (m.tightPort k m.forwards).map fun p => ⟨0x10, detailOf 4 p, 0⟩

/-- Tfab of terms, ps (step 3). -/
def Mach.tfab (m : Mach) (t : Terms) : Nat :=
  if t.remote then
    match m.routeRates t.sourceNode with
    | some l => sumOf (l.map fun r => 400000 + cdiv (16896 * 10 ^ 9) r)
    | none => 0
  else 0

/-- Step 3: the route, which crosses no Dovetail link (R391), and its length (reason 0x12). -/
def Mach.checkRoute (m : Mach) (t : Terms) : Option Fail :=
  if t.remote then
    match m.pathOf t.sourceNode with
    | some l => if l.length ≤ t.maxHops ∧ (l.any FabLink.dovetail) = false then none else some ⟨0x12, detailOf 5 t.sourceNode, 0⟩
    | none => some ⟨0x12, detailOf 5 t.sourceNode, 0⟩
  else none

/-- M that a contract counts: the greatest of its live sets. -/
def Mach.countedM (m : Mach) (c : Counted) : Nat := maxOf (c.sets.map fun l => m.memDemand l.terms)
/-- Retention that a contract counts. -/
def Counted.ret (c : Counted) : Nat := maxOf (c.sets.map fun l => Terms.ret l.terms)

/-- Step 4 (reasons 0x30, 0x31). -/
def Mach.checkMemory (m : Mach) (k : List Counted) (s : Nat) : Option Fail :=
  if m.rd E.MEM_LIMIT * 10 ^ 9 < sumOf (k.map m.countedM) then some ⟨0x30, detailOf 1 s, 0⟩
  else if m.rd E.RETAIN_POOL * 1048576 < sumOf (k.map Counted.ret) then some ⟨0x31, detailOf 1 s, 0⟩
  else none

/-- Share that terms map to channel `c` (step 5). -/
def Terms.shareOn (t : Terms) (c : Nat) : Nat :=
  sumOf ((List.range 5).map fun r => if t.produced r ∧ t.dma r = c then t.shareOf r else 0)

/-- U that terms map to channel `c` (step 5). -/
def Mach.unitOn (m : Mach) (t : Terms) (c : Nat) : Nat :=
  sumOf ((List.range 5).map fun r => if t.produced r ∧ t.dma r = c then m.unitBytes t r else 0)

/-- H[c]: per contract the greatest share among the live sets (R129). -/
def chanShare (k : List Counted) (c : Nat) : Nat :=
  sumOf (k.map fun x => maxOf (x.sets.map fun l => Terms.shareOn l.terms c))

/-- V[c]. -/
def Mach.chanUnits (m : Mach) (k : List Counted) (c : Nat) : Nat :=
  sumOf (k.map fun x => maxOf (x.sets.map fun l => m.unitOn l.terms c))

/-- Step 5 (reasons 0x41, 0x42). Where E is 0 no share meets a demand (notes/assumptions/16.md). -/
def Mach.checkHost (m : Mach) (k : List Counted) (s : Nat) : Option Fail :=
  if m.rd E.HOST_SHARE_LIMIT < sumOf ((List.range 128).map (chanShare k)) then some ⟨0x41, detailOf 1 s, 0⟩
  else
    k.findSome? fun c => c.sets.findSome? fun l => (List.range 5).findSome? fun r =>
      let t : Terms := l.terms
      let u := m.unitBytes t r
      if u = 0 ∨ (0 < m.ep.e * t.shareOf r ∧ cdiv (u * 1024000) (t.shareOf r * m.ep.e) ≤ t.pstr) then none
      else some ⟨0x42, detailOf 3 (t.dma r), 0⟩

/-- T[c], ps. -/
def Mach.chanTime (m : Mach) (k : List Counted) (c : Nat) : Nat :=
  cdiv (m.chanUnits k c * 1024000) (chanShare k c * m.ep.e)

/-- Tdma of terms, ps (step 5). -/
def Mach.tdma (m : Mach) (k : List Counted) (t : Terms) : Nat :=
  let roles := (List.range 5).filter t.produced
  let data := roles.filter fun r => r != 0
  maxOf (data.map fun r => m.chanTime k (t.dma r)) + m.chanTime k (t.dma 0) +
    500000 * ((roles.map t.dma).eraseDups).length

/-! ### Step 6 -/

/-- A stream as it counts on one planer (R129). -/
structure View where
  s : Nat
  c : Nat
  pstr : Nat
  j : Nat
  /-- Its single live set on the planer; none while it counts with more than one. -/
  single : Option Terms
  deriving DecidableEq, Repr

/-- The views of planer `p`. -/
def viewsOn (k : List Counted) (p : Nat) : List View :=
  k.filterMap fun x =>
    let ts := (x.sets.filter fun l => l.planer == p).map fun l => l.terms
    match ts with
    | [] => none
    | [t] => some { s := x.s, c := Terms.c t, pstr := Terms.pstr t, j := Terms.j t, single := some t }
    | _ => some { s := x.s, c := maxOf (ts.map Terms.c), pstr := minOf (ts.map Terms.pstr),
                  j := maxOf (ts.map Terms.j), single := none }

/-- Utilisation of a view, ppm. -/
def View.util (v : View) : Nat := cdiv (v.c * 10 ^ 6) v.pstr

/-- Is `j` in the set X of `s` (step 6)? -/
def inX (s j : View) : Bool :=
  match s.single, j.single with
  | some a, some b =>
    Terms.phaseGroup a != 0 && Terms.phaseGroup b == Terms.phaseGroup a && s.pstr == j.pstr &&
    Terms.pline a == Terms.pline b && Terms.pslow a == Terms.pslow b && Terms.deadline a == Terms.deadline b &&
    decide (Terms.phaseNs a + s.j / 1000 < Terms.phaseNs b)
  | _, _ => false

/-- The loop of step 6 from L: the fixed point, or none where L passes 10^9 ps. -/
def busyLoop (vs : List View) : Nat → Nat → Option Nat
  | 0, _ => none
  | fuel + 1, l =>
    let n := sumOf (vs.map fun v => v.c * cdiv (l + v.j) v.pstr) + 1000000 * cdiv l 20000000
    if n = l then some l else if 10 ^ 9 < n then none else busyLoop vs fuel n

/-- Iterations that suffice: every round but the last moves L by at least 29,715 ps, and L stays below 10^9. -/
def busyFuel : Nat := 40000

/-- Lp(s) on a planer (step 6). -/
def busy (vs : List View) (s : View) : Option Nat :=
  let l0 := sumOf (vs.map fun v => v.c)
  let x := vs.filter (inX s)
  let group := match s.single with
    | none => []
    | some a => vs.filterMap fun v => match v.single with
      | some b => if Terms.phaseGroup b = Terms.phaseGroup a then some (Terms.phaseNs b) else none
      | none => none
  match busyLoop (vs.filter fun v => !inX s v) busyFuel l0 with
  | none => none
  | some l =>
    if x.isEmpty = false ∧ s.pstr < l + (maxOf group - minOf group) * 1000 then busyLoop vs busyFuel l0
    else some l

/-! ### Step 7 and the verdict -/

/-- Results of one contract (R134), times in ps. -/
structure Res where
  s : Nat
  bound : Nat
  planer : Nat
  /-- The planers of its live sets. -/
  planers : List Nat
  c : Nat
  lp : Nat
  look : Nat
  dma : Nat
  fab : Nat
  util : Nat
  mem : Nat
  deriving DecidableEq, Repr

/-- B of one live set (step 7). -/
def Mach.bound (m : Mach) (k : List Counted) (t : Terms) (lp : Nat) : Nat :=
  m.tfab t + t.tlook + 400000 + lp + 365715 + 1200000 + 24000 + m.tdma k t + t.creditStall * 1000

/-- Lp of every stream on every planer: (planer, stream, Lp), none where the busy period passes 1 ms. -/
def busyAll (k : List Counted) : List (Nat × Nat × Option Nat) :=
  (List.range 16).flatMap fun p => let vs := viewsOn k p; vs.map fun v => (p, v.s, busy vs v)

/-- Look Lp up. -/
def lpOf (b : List (Nat × Nat × Option Nat)) (p s : Nat) : Nat :=
  ((b.find? fun x => x.1 == p && x.2.1 == s).bind fun x => x.2.2).getD 0

/-- Results of a contract: the greatest value among its live sets (R129). -/
def Mach.result (m : Mach) (k : List Counted) (b : List (Nat × Nat × Option Nat)) (x : Counted) : Res :=
  { s := x.s
    bound := maxOf (x.sets.map fun l => m.bound k l.terms (lpOf b l.planer x.s))
    planer := match x.sets.getLast? with | some l => l.planer | none => 0
    planers := x.sets.map fun l => l.planer
    c := maxOf (x.sets.map fun l => Terms.c l.terms)
    lp := maxOf (x.sets.map fun l => lpOf b l.planer x.s)
    look := maxOf (x.sets.map fun l => Terms.tlook l.terms)
    dma := maxOf (x.sets.map fun l => m.tdma k l.terms)
    fab := maxOf (x.sets.map fun l => m.tfab l.terms)
    util := maxOf ((List.range 16).map fun p =>
      match (viewsOn [x] p) with | v :: _ => v.util | [] => 0)
    mem := m.countedM x }

/-- Contexts that planer `p` holds beside those of the contracts `k`: of streams with stripes on it not yet finished, and of contracts SUSPENDED
with reason 2 (R145). -/
def Mach.leftOn (m : Mach) (k : List Counted) (p : Nat) : Nat :=
  (m.streams.filter fun x => !((viewsOn k p).any fun v => v.s == x.1) &&
    ((x.2.stripes ++ x.2.stripe.toList).any (fun q => q.planer == p) || (m.suspended2 x.1 && x.2.planer == p))).length

/-- Steps 6 and 7 for a placement: the first failure in the order of R122, or the results. -/
def Mach.planersAndBounds (m : Mach) (k : List Counted) (lowest : Nat) : Sum Fail (List Res) :=
  let ps := List.range 16
  if ps.any fun p => decide (32 < (viewsOn k p).length + m.leftOn k p) then .inl ⟨0x20, lowest, 0⟩
  else match ps.find? fun p => decide (950000 < sumOf ((viewsOn k p).map View.util)) with
  | some p => .inl ⟨0x21, detailOf 2 p, 0⟩
  | none =>
    let b := busyAll k
    match b.find? fun x => x.2.2 == none with
    | some x => .inl ⟨0x23, detailOf 2 x.1, 0⟩
    | none =>
      let bad := k.findSome? fun x =>
        let lateSets := (x.sets.map fun l => (Terms.deadline l.terms, cdiv (m.bound k l.terms (lpOf b l.planer x.s)) 1000)).filter
          fun q => decide (q.1 < q.2)
        if lateSets.isEmpty then none else some (x.s, maxOf (lateSets.map fun q => q.2))
      match bad with
      | some (s, ns) => .inl ⟨0x22, detailOf 1 s, ns⟩
      | none => .inr (k.map (m.result k b))

/-- The checks of R122 before steps 6 and 7, for stream `s` with terms `t`, `k` holding it. For a remote stream
`route` is the answer of R380: the reason and detail of a refusal, reason 0 when the holds are made. -/
def Mach.checksBefore (m : Mach) (others k : List Counted) (s : Nat) (t : Terms) (route : Nat × Nat) : Option Fail :=
  (m.checkPort t).or <| (checkInUse others t).or <| (m.checkGeometry s t).or <| (m.checkChannels s t).or <|
  (m.checkLanes k t).or <| (m.checkRoute t).or <|
  (if t.remote ∧ route.1 ≠ 0 then some ⟨route.1, route.2, 0⟩ else none).or <|
  (m.checkMemory k s).or (m.checkHost k s)

/-- Choose among candidates (R121): the least greatest B among the streams on the candidate, or the failure
that reached the latest check; ties to the lowest planer. -/
def chooseCandidate : List (Nat × Sum Fail (List Res)) → Option (Nat × Nat × List Res) → Option Fail →
    Sum Fail (Nat × List Res)
  | [], some (p, _, r), _ => .inr (p, r)
  | [], none, some f => .inl f
  | [], none, none => .inl ⟨0x20, 0, 0⟩
  | (p, .inr r) :: t, best, worst =>
    let b := maxOf ((r.filter fun x => x.planers.contains p).map fun x => x.bound)
    match best with
    | some (_, b0, _) => chooseCandidate t (if b < b0 then some (p, b, r) else best) worst
    | none => chooseCandidate t (some (p, b, r)) worst
  | (_, .inl f) :: t, best, worst =>
    match worst with
    | some g => chooseCandidate t best (if reasonRank g.reason < reasonRank f.reason then some f else worst)
    | none => chooseCandidate t best (some f)

/-- The planer has failed: the Forecast removes it from every PLANER_MASK (R475). -/
def Mach.planerDead (m : Mach) (p : Nat) : Bool := m.rd E.ISLAND_STATE (24 + p) == 3

/-- The planers that terms permit, failed ones removed (R121, R475). -/
def Mach.candidates (m : Mach) (t : Terms) : List Nat := (List.range 16).filter fun p => bitOf t.planerMask p && !m.planerDead p

/-- The planer that the detail of reason 0x20 names (R122): the lowest that is permitted; where all that PLANER_MASK names have failed, the lowest
of those (notes/assumptions/59.md). -/
def Mach.lowestPlaner (m : Mach) (t : Terms) : Nat :=
  (m.candidates t).headD (((List.range 16).find? fun p => bitOf t.planerMask p).getD 0)

/-- The Forecast's own computation for stream `s` with terms `t` (R120 to R122): the failure, or the planer and
the results of every contract in K. `cands` are the candidate planers in ascending order. -/
def Mach.forecast (m : Mach) (others : List Counted) (sets : List Live) (s : Nat) (t : Terms) (route : Nat × Nat)
    (cands : List Nat) : Sum Fail (Nat × List Res) :=
  let kOf (p : Nat) := insertCounted ⟨s, sets ++ [{ terms := t, planer := p }]⟩ others
  match m.checksBefore others (kOf 0) s t route with
  | some f => .inl f
  | none =>
    let lowest := detailOf 2 (m.lowestPlaner t)
    if cands.isEmpty then .inl ⟨0x20, lowest, 0⟩ else chooseCandidate (cands.map fun p => (p, m.planersAndBounds (kOf p) lowest)) none none

/-- BOUND_NS of a result: in a pair the greater of the two modules' bounds (R132); where `keep` stands, never above what is reported
(R130). -/
def Mach.boundNs (m : Mach) (r : Res) (keep : Bool) : Nat :=
  let b := Nat.max (cdiv r.bound 1000) (if m.paired then (m.strm r.s).peerBound else 0)
  let old := m.rd E.BOUND_NS r.s
  if keep ∧ old ≠ 0 then Nat.min old b else b

/-- Write the results of every contract in K, the planers' sums and the channels' shares (R123, R134). -/
def Mach.publishForecast (m : Mach) (k : List Counted) (keep : Bool) : Mach :=
  let b := busyAll k
  let m := m.refillAll
  let m := k.foldl (fun (m : Mach) x =>
    let r := m.result k b x
    let m := m.wr E.BOUND_NS r.s (m.boundNs r keep)
    let m := m.wr E.PLANER r.s r.planer
    let m := m.wr E.STRIPE_TIME r.s (cdiv r.c 1000)
    let m := m.wr E.PLANER_TERM r.s (cdiv r.lp 1000)
    let m := m.wr E.LOOK_TERM r.s (cdiv r.look 1000)
    let m := m.wr E.DMA_TERM r.s (cdiv r.dma 1000)
    let m := m.wr E.FABRIC_TERM r.s (cdiv r.fab 1000)
    let m := m.wr E.UTIL r.s r.util
    m.wr E.MEM_DEMAND r.s (cdiv r.mem (10 ^ 6))) m
  let m := m.each (List.range 16) fun p m =>
    let vs := viewsOn k p
    let m := m.wr E.PLANER_UTIL p (sumOf (vs.map View.util))
    let m := m.wr E.PLANER_STREAMS p (vs.length + m.leftOn k p)
    m.wr E.PLANER_BUSY p (cdiv (maxOf (vs.map fun v => lpOf b p v.s)) 1000)
  let m := m.each (List.range 128) fun c m => m.wr E.SHARE_FORECAST c (chanShare k c)
  let m := m.wr E.SHARE_USED 0 (sumOf ((List.range 128).map (chanShare k)))
  let m := m.wr E.MEM_USED 0 (cdiv (sumOf (k.map m.countedM)) (10 ^ 6))
  m.wr E.RETAIN_USED 0 (sumOf (k.map Counted.ret) / 1048576)

/-- The contexts placed on each planer (R134, R145). -/
def Mach.showContexts (m : Mach) : Mach :=
  let k := m.admittedBut 256
  m.each (List.range 16) fun p m => m.wr E.PLANER_STREAMS p ((viewsOn k p).length + m.leftOn k p)

/-- Recompute the results with every contract now admitted. -/
def Mach.republish (m : Mach) : Mach := m.publishForecast (m.admittedBut 256) false

/-- Recompute them after terms are dropped: no bound rises (R130, notes/assumptions/52.md). -/
def Mach.relax (m : Mach) : Mach := m.publishForecast (m.admittedBut 256) true

end Sys2Proof.Machine
end

