-- ==== Sys2Proof/Machine/PairLink.lean ====
section
/-! DEFINITION. The module's end of the cross-link: roles, the port in use, and the sending of pair frames
(R391, R401). The payloads that R401 describes without a byte layout have the layout of
notes/assumptions/17.md. -/

namespace Sys2Proof.Machine

/-- PAIR_ROLE (R422): 0 alone, 1 active, 2 standby, 3 syncing, 4 barred, 5 waiting. -/
def Mach.role (m : Mach) : Nat := m.rd E.PAIR_ROLE
/-- The module follows an active partner: it is STANDBY or SYNCING. -/
def Mach.follows (m : Mach) : Bool := m.paired && (m.role == 2 || m.role == 3)
/-- The cross-link of a pair is up: PAIR_FLAGS [5]. Two modules that report the same slot, PAIR_FLAGS [8], are no pair (R393). -/
def Mach.xlinkUp (m : Mach) : Bool := m.paired && bitOf (m.rd E.PAIR_FLAGS) 5 && !bitOf (m.rd E.PAIR_FLAGS) 8
/-- The active module of a pair whose cross-link is up. -/
def Mach.leads (m : Mach) : Bool := m.xlinkUp && m.role == 1
/-- The module sits in slot A (R390). -/
def Mach.slotA (m : Mach) : Bool := m.slotId % 2 == 0

/-- Put bit `b` of PAIR_FLAGS to `v`. -/
def Mach.flag (m : Mach) (b : Nat) (v : Bool) : Mach := m.wr E.PAIR_FLAGS 0 (putBit (m.rd E.PAIR_FLAGS) b v)
/-- Bit `b` of PAIR_FLAGS. -/
def Mach.flagOn (m : Mach) (b : Nat) : Bool := bitOf (m.rd E.PAIR_FLAGS) b

/-- The ports that XLINK_PORTS names, lowest first (R391). -/
def Mach.xlinkPorts (m : Mach) : List Nat :=
  let a := m.rd E.XLINK_PORTS % 256
  let b := m.rd E.XLINK_PORTS / 256 % 256
  (if a < b then [a, b] else if a = b then [a] else [b, a]).filter fun p => decide (p < 96)

/-- The lowest-numbered cross-link port at LINKED (R391): a fabric port of at least 2 lanes. -/
def Mach.xlinkPort (m : Mach) : Option Nat :=
  m.xlinkPorts.find? fun p => m.rd E.PORT_STATE p == 4 && m.rd E.QUAD_ROLE (p / 4) == 2 && decide (2 ≤ m.rd E.PORT_WIDTH p)

/-- Send a pair frame (R401): kept until its PAIR_ACK on TC2. A PAIR_ACK is itself not acknowledged, and its FSEQ is none of
those that PAIR_ACK counts (notes/assumptions/17.md). A node without an address sends none (R370). -/
def Mach.pairSend (m : Mach) (kind tc argA argB : Nat) (payload : Bytes) : Mach :=
  match m.xlinkPort.filter fun _ => m.fabAddr != 0 with
  | none => m
  | some p =>
    let (n, m) := m.nextFseq (if kind = 0x6A then 3 else tc) 0xFFFF
    let f : FabMsg := { tc := tc, kind := kind, dst := 0xFFFF, src := 0xFFFF, flow := 0xFFFF, fseq := n,
                        argA := argA, argB := argB, payload := payload }
    let m := m.queueFrame p f
    if tc = 2 ∧ kind ≠ 0x6A then { m with pair.unacked := m.pair.unacked ++ [(m.ns, f)] } else m

/-! ### Writes by an access path -/

/-- The Bench serves the path (R435): the two-wire gateway from ATTACHED on, the module itself while powered, CAN FD and the fabric from
WAKING on, and the mailbox from READY on and while no firmware bank is valid (R466, R479), each while its island runs. -/
def Mach.serves (m : Mach) (path : Nat) : Bool :=
  let st := m.rd E.MODULE_STATE
  if path = 1 then decide (3 ≤ st) && m.islandOn 0x34
  else if path = 2 then decide (3 ≤ st) && m.islandOn 0x30
  else if path = 3 ∨ path = 4 then st != 0
  else m.islandOn 0x31 && (decide (4 ≤ st) || (path == 0 && m.life.bootless && st == 1))

/-- The path may write the entry with this value (R438). -/
def Mach.permitted (m : Mach) (path index sub value : Nat) : Bool :=
  if path = 4 then true
  else
    let general :=
      if path = 1 then m.rd E.CAN_WRITE == 1
      else if path = 3 then m.rd E.TWI_WRITE == 1
      else if path = 2 then
        let r := m.rd E.REMOTE_WRITE
        r == 2 || (r == 1 && (decide (0x2800 ≤ index ∧ index ≤ 0x2FFF) || decide (0x4800 ≤ index ∧ index ≤ 0x4BFF)))
      else true
    if index = 0x6400 ∧ sub = 0x0E ∧ value = 3 then path == 1 || path == 3
    else if index = 0x1011 ∨ index = 0x1F10 ∨ index = 0x1F11 ∨ index = 0x1F12 then path != 2
    else general

/-- Is the entry pair-wide (R403)? -/
def pairWide (index sub : Nat) : Bool :=
  let own := fun (a b : Nat) => decide (a ≤ index ∧ index ≤ b)
  !(own 0x1000 0x1FFF || own 0x2000 0x27FF || own 0x4400 0x47FF || own 0x5000 0x53FF || own 0x5C00 0x63FF ||
    own 0x6400 0x64FF || own 0x6800 0x6FFF || own 0x7000 0x7FFF || (own 0x2800 0x285F && sub == 0x12))

/-- Payload of a CONFIG frame for a piece of a write (notes/assumptions/17.md): path, number of the write, the piece's offset, the
write's length, and the piece. -/
def configPayload (path num offset total : Nat) (piece : Bytes) : Bytes :=
  leBytes 4 path ++ leBytes 4 num ++ leBytes 4 offset ++ leBytes 4 total ++ piece

/-- Send a write in CONFIG frames of at most 2,048 bytes of data each: `what` 1 to slot A, 2 to be applied in slot B. -/
def Mach.sendConfig (m : Mach) (what path num key : Nat) (data : Bytes) : Mach :=
  m.each (List.range (Nat.max 1 (cdiv data.length 2048))) fun i m =>
    m.pairSend 0x68 3 what key (configPayload path num (2048 * i) data.length ((data.drop (2048 * i)).take 2048))

/-- A write of the entry by the path is one that both modules apply (R403). A pair-wide application itself comes on path 4 (R435). -/
def Mach.isWide (m : Mach) (path index sub : Nat) : Bool := pairWide index sub && m.xlinkUp && path != 4

/-- A pair-wide write has been made here: it is numbered, and ends when both modules have applied it. -/
def Mach.sendWide (m : Mach) (what path index sub : Nat) (data : Bytes) : Mach :=
  let n := m.pair.wideNo
  { m with pair.wideNo := (n + 1) % 2 ^ 32, pair.wides := m.pair.wides ++ [{ num := n, path := path, index := index, sub := sub, data := data : Wide }] }.sendConfig what path n
    (index * 256 + sub) data

/-- Apply a write where R403 lets it: a pair-wide write received in slot B goes to slot A, and slot A applies it
and passes it on. -/
def Mach.wide (m : Mach) (path index sub : Nat) (data : Bytes) (f : Mach → Mach) : Mach :=
  if m.isWide path index sub then
    if m.slotA then (f m).sendWide 2 path index sub data else m.sendWide 1 path index sub data
  else f m

/-- The write of that number has been applied on both modules. -/
def Mach.wideEnds (m : Mach) (num : Nat) : Mach := { m with pair.wides := m.pair.wides.filter fun w => w.num != num }

/-- No write of that number is on its way. -/
def Mach.wideOver (m : Mach) (num : Nat) : Bool := !((m.pair.wides ++ m.pair.orphans).any fun w => w.num == num)

/-- The number of the pair-wide write that `m` has made since `old`; none where it made none. -/
def Mach.wideSince (m old : Mach) : Option Nat :=
  if m.pair.wideNo = old.pair.wideNo then none else some old.pair.wideNo

/-- A write of a command entry by a path: without effect in a state that its chapter names (kind 8) or on a path
that may not write it (kind 9), else its effect (R403, R426, R428). -/
def Mach.command (m : Mach) (path index sub : Nat) (data : Bytes) (okState : Bool) (f : Mach → Mach) : Mach :=
  if m.serves path = false then m
  else if okState = false then m.tally path index sub 8 data
  else if m.permitted path index sub (leNat (data.take 8)) = false then m.tally path index sub 9 data
  else m.wide path index sub data f

/-- A write without effect, counted with a kind unless the path may not make it (R426, R428). -/
def Mach.noEffect (m : Mach) (path index sub kind : Nat) (data : Bytes) : Mach :=
  if m.serves path = false then m
  else if m.permitted path index sub (leNat (data.take 8)) = false then m.tally path index sub 9 data
  else m.tally path index sub kind data

/-- An event on PAIR_EC: code in DATA [7:0], reason or row in [15:8] (R422). R302 gives it no producer kind, so
its SOURCE is a free value (notes/assumptions/2.md). -/
def Mach.pairEvent (m : Mach) (code arg : Nat) : Mach :=
  let r := m.take 16
  r.2.publish { ch := m.rd E.PAIR_EC, src := r.1, data := code + 256 * arg, stamp := m.now }

end Sys2Proof.Machine
end

