-- ==== Sys2Proof/Machine/Police.lean ====
section
/-! DEFINITION. Reception of one stream: line assembly (R69, R70), the time of a line (R71), frame order
(R72), the checks of R101 from the fifth on, missing lines (R102) and the policing bucket (R103, R104).
One operation serves a local stream and a forward entry (R379). -/

namespace Sys2Proof.Machine

/-! ### Pixels -/

/-- The `n` values of `b` bits of a little-endian bit string (R70). `acc` holds `k` bits not yet taken. -/
def unpackAux (b : Nat) : Nat → Nat → Nat → Bytes → List Nat
  | 0, _, _, _ => []
  | n + 1, acc, k, bs =>
    if b ≤ k then (acc % 2 ^ b) :: unpackAux b n (acc / 2 ^ b) (k - b) bs
    else match bs with
      | [] => (acc % 2 ^ b) :: unpackAux b n 0 0 []
      | x :: xs =>
        let acc := acc + x.toNat * 2 ^ k
        let k := k + 8
        if b ≤ k then (acc % 2 ^ b) :: unpackAux b n (acc / 2 ^ b) (k - b) xs
        else match xs with
          | [] => (acc % 2 ^ b) :: unpackAux b n 0 0 []
          | y :: ys =>
            let acc := acc + y.toNat * 2 ^ k
            (acc % 2 ^ b) :: unpackAux b n (acc / 2 ^ b) (k + 8 - b) ys

/-- The first `n` pixels of `b` bits (R70). -/
def unpackBits (b n : Nat) (bs : Bytes) : List Nat := unpackAux b n 0 0 bs

/-- Pixels of `b` bits as a little-endian bit string, the unused high bits of the last byte 0 (R70, R210). -/
def packAux (b : Nat) : Nat → Nat → List Nat → Bytes
  | acc, k, [] => if k = 0 then [] else if k ≤ 8 then [BitVec.ofNat 8 acc] else leBytes ((k + 7) / 8) acc
  | acc, k, v :: vs =>
    let acc := acc + v * 2 ^ k
    let k := k + b
    leBytes (k / 8) acc ++ packAux b (acc / 2 ^ (8 * (k / 8))) (k % 8) vs

/-- See `packAux`. -/
def packBits (b : Nat) (vs : List Nat) : Bytes := packAux b 0 0 vs

/-! ### Reception -/

/-- What the reception of a stream takes from its contract, its port and its position channel. -/
structure RxCfg where
  area : Bool
  frameLines : Nat
  dt : Nat
  width : Nat
  bits : Nat
  lb : Nat
  lmax : Nat
  maxPacket : Nat := 65535
  linkDelay : Nat := 0
  /-- POS of a line whose first header arrives now (R217). -/
  pos : Nat := 0
  deriving DecidableEq, Repr

/-- A line as the port hands it to the ring: received, filled, or refused. -/
structure LineOut where
  frame : Nat
  line : Nat
  tag : Nat
  time : TW64
  pos : Nat
  missing : Bool := false
  damaged : Bool := false
  refused : Bool := false
  pixels : List Nat := []
  /-- The instant at which its last byte reached the contacts (R115). -/
  arr : TW64
  deriving DecidableEq, Repr

/-- What reception answers, in order. -/
inductive RxOut where
  | line (l : LineOut)
  /-- A large gap: the open stripe closes as incomplete (R102). -/
  | resync (t : TW64)
  /-- DT_MISMATCH, OUT_OF_ORDER, OVERSIZE, MISSING_LINES, RATE_DROPS. -/
  | dtMismatch
  | outOfOrder
  | oversize
  | missing
  | rateDrop
  /-- Entry to squall, with the instant of the refused charge (R104). -/
  | squall (t : TW64)
  /-- A pixel packet was accepted: the stream leaves absent (R104). -/
  | present
  deriving DecidableEq, Repr

/-- Policing parameters of R103. -/
def RxCfg.rate (c : RxCfg) : Nat := cdiv (c.lb * c.lmax * 65536) (10 ^ 9)
/-- See `RxCfg.rate`. -/
def RxCfg.depth (c : RxCfg) : Nat := 2 * c.lb * 65536

/-- The configuration that terms give. -/
def Terms.rxCfg (t : Terms) : RxCfg :=
  { area := t.area, frameLines := t.frameLines, dt := t.dt, width := t.rowPixels * t.rowsPerLine,
    bits := t.bits, lb := t.lb, lmax := t.lineRateMax }

/-- The bucket set full at an instant (R103). -/
def Rx.fillBucket (x : Rx) (c : RxCfg) (t : TW64) : Rx := { x with bucket := c.depth, bucketT := t.toNat / 256 }

/-- Charge LB bytes at time `t` (R103): whether it is accepted, and entry to squall when it is not (R104). -/
def Rx.charge (x : Rx) (c : RxCfg) (t : TW64) : Bool × Rx × List RxOut :=
  let now := t.toNat / 256
  let b := min c.depth (x.bucket + c.rate * ((now + 2 ^ 56 - x.bucketT) % 2 ^ 56))
  let cost := c.lb * 65536
  if cost ≤ b then (true, { x with bucket := b - cost, bucketT := now }, [])
  else (false, { x with bucket := b, bucketT := now, squall := true },
        if x.squall then [.rateDrop] else [.rateDrop, .squall t])

/-- FRAME and LINE after a line (R72). -/
def RxCfg.after (c : RxCfg) (f l : Nat) : Nat × Nat :=
  if c.area then (if l + 1 < c.frameLines then (f, l + 1) else ((f + 1) % 2 ^ 32, 0))
  else if l + 1 < 2 ^ 32 then (f, l + 1) else ((f + 1) % 2 ^ 32, 0)

/-- Lines from (f, l) to (f', l') in line order, negative when it lies before (R102). -/
def RxCfg.lines (c : RxCfg) (f l f' l' : Nat) : Int :=
  let df := signedOf 32 (f' + 2 ^ 32 - f)
  if c.area then df * c.frameLines + (l' : Int) - l else df * (2 ^ 32 : Nat) + (l' : Int) - l

/-- Δ of R217. -/
def Rx.delta (x : Rx) (c : RxCfg) : TW64 :=
  match x.lastT, x.prevT with
  | some a, some b => a - b
  | _, _ => BitVec.ofNat 64 (256 * 10 ^ 9 / c.lmax)

/-- Write one missing line, the expected one (R102, R103, R217). `base` stands for the time of the latest
received line where there is none. -/
def Rx.fillOne (x : Rx) (c : RxCfg) (t base : TW64) : Rx × List RxOut :=
  let (ok, x, o) := x.charge c t
  let last := x.lastT.getD base
  let nx := c.after x.frame x.line
  let l : LineOut := { frame := x.frame, line := x.line, tag := if c.area then x.frameTag else x.lineTag,
                       time := last + BitVec.ofNat 64 (x.gap + 1) * x.delta c, pos := x.lastPos,
                       missing := true, refused := !ok, arr := t }
  ({ x with frame := nx.1, line := nx.2, gap := x.gap + 1 }, o ++ (if ok then [.missing] else []) ++ [.line l])

/-- Write `n` missing lines. -/
def Rx.fill (c : RxCfg) (t base : TW64) : Nat → Rx → Rx × List RxOut
  | 0, x => (x, [])
  | n + 1, x =>
    let (x, o) := x.fillOne c t base
    let (x, o') := Rx.fill c t base n x
    (x, o ++ o')

/-- Finish the line under assembly: pixels that did not come are 0 and damage it. -/
def Rx.finish (x : Rx) (c : RxCfg) (t : TW64) : Rx × List RxOut :=
  match x.asm with
  | none => (x, [])
  | some a =>
    let short := decide (a.pixels.length < c.width)
    let l : LineOut := { frame := a.frame, line := a.line, tag := a.tag, time := a.time, pos := a.pos,
                         missing := a.refused, refused := a.refused, damaged := !a.refused && (a.damaged || short),
                         pixels := if a.refused then [] else a.pixels ++ List.replicate (c.width - a.pixels.length) 0,
                         arr := t }
    ({ x with asm := none }, [.line l])

/-- The lines of the present area frame still missing (R102, short frames). -/
def Rx.restOfFrame (x : Rx) (c : RxCfg) : Nat :=
  if c.area ∧ x.started ∧ (0 < x.line ∨ x.startFrame = some x.frame) then c.frameLines - x.line else 0

/-- A FRAME_START is in its order (R72): the first of a VC may carry any FRAME, and a later one opens the next frame. An area frame that no
FRAME_END has closed ends there (notes/assumptions/51.md); a line-scan frame ends only where LINE would pass 0xFFFF_FFFF. -/
def Rx.startOk (x : Rx) (c : RxCfg) (frame : Nat) : Bool :=
  let fresh := x.line == 0 && x.startFrame != some x.frame
  x.startFrame.isNone || (if fresh then frame == x.frame else c.area && frame == (x.frame + 1) % 2 ^ 32)

/-- FRAME_START (R72, R101 check 5). -/
def Rx.frameStart (x : Rx) (c : RxCfg) (frame tag : Nat) (t : TW64) : Rx × List RxOut :=
  if x.startOk c frame = false then (x, [.dtMismatch])
  else
    let (x, o) := x.finish c t
    let (x, o') := Rx.fill c t t (x.restOfFrame c) x
    ({ x with started := true, frameOpen := true, startFrame := some frame, frame := frame,
              line := 0, frameTag := tag }, o ++ o')

/-- FRAME_END (R72, R101 check 5, R102 short frames). -/
def Rx.frameEnd (x : Rx) (c : RxCfg) (frame : Nat) (t : TW64) : Rx × List RxOut :=
  if x.frameOpen = false ∨ x.startFrame ≠ some frame then (x, [.dtMismatch])
  else
    let (x, o) := x.finish c t
    let (x, o') := if x.frame = frame then Rx.fill c t t (x.restOfFrame c) x else (x, [])
    ({ x with frameOpen := false }, o ++ o')

/-- Fields of a received pixel packet. -/
structure PixPkt where
  dt : Nat
  last : Bool
  frame : Nat
  line : Nat
  tag : Nat
  offset : Nat
  ctime : Nat
  payload : Bytes
  /-- The payload CRC is wrong or the payload lies in a damaged block. -/
  bad : Bool
  first : TW64
  lastByte : TW64
  deriving DecidableEq, Repr

/-- T of R71: the value with bits [31:0] equal to CTIME that lies nearest to TR − LINK_DELAY. -/
def extendTime (tr : TW64) (delay ctime : Nat) : TW64 :=
  let ref := tr - BitVec.ofNat 64 delay
  ref + BitVec.ofInt 64 (signedOf 32 (ctime + 2 ^ 32 - ref.toNat % 2 ^ 32))

/-- Check 9 of R101 on a packet that comes at pixel `at_`. One that failed check 8 does not meet it. -/
def RxCfg.over (c : RxCfg) (at_ : Nat) (p : PixPkt) : Bool :=
  p.offset == at_ && (decide (c.maxPacket < p.payload.length) || decide (c.width < at_ + p.payload.length * 8 / c.bits))

/-- Checks 7 to 11 on a packet of the line under assembly (R101), and its end when LAST is 1. No later check applies to a packet that failed
one. A refused line, of which nothing is written, still meets checks 7 to 9; no line holds more pixels than its width. -/
def Rx.body (x : Rx) (c : RxCfg) (p : PixPkt) : Rx × List RxOut :=
  match x.asm with
  | none => (x, [])
  | some a =>
    if p.offset < a.pixels.length then (x, [.outOfOrder])
    else
      let gap := Nat.min p.offset c.width - a.pixels.length
      let skips := decide (a.pixels.length < p.offset)
      let pay := if skips then p.payload else p.payload.take c.maxPacket
      let n := pay.length * 8 / c.bits
      let room := c.width - (a.pixels.length + gap)
      let over_ := c.over a.pixels.length p
      let px := a.pixels ++ List.replicate gap 0 ++ unpackBits c.bits (Nat.min n room) pay
      let a := { a with pixels := px, damaged := a.damaged || skips || (p.bad && !over_) }
      let o := (if over_ then [RxOut.oversize] else []) ++ (if a.refused then [] else [.present])
      let x := { x with asm := some a }
      if p.last then let (x, o') := x.finish c p.lastByte; (x, o ++ o') else (x, o)

/-- A pixel packet of the contract's DT: checks 6 to 11 (R101, R102, R103). DESIGN CHOICE (notes/assumptions/58.md): before any FRAME_START or
line the packet's own FRAME and LINE are the expected ones, and in an area stream a LINE at or above FRAME_LINES is out of order. -/
def Rx.pixels (x : Rx) (c : RxCfg) (p : PixPkt) : Rx × List RxOut :=
  let same := match x.asm with
    | some a => a.frame == p.frame && a.line == p.line
    | none => false
  if same then x.body c p
  else if c.area ∧ c.frameLines ≤ p.line then (x, [.outOfOrder])
  else
    let x := if x.started then x else { x with started := true, frame := p.frame, line := p.line }
    let n := c.lines x.frame x.line p.frame p.line
    if n < 0 then (x, [.outOfOrder])
    else
      let (x, o1) := x.finish c p.first
      let t := extendTime p.first c.linkDelay p.ctime
      let back := t - BitVec.ofNat 64 n.toNat.succ * x.delta c
      let (x, o2) := if 1024 < n then ({ x with lastT := none, prevT := none, gap := 0 }, [RxOut.resync p.first])
                     else Rx.fill c p.first back n.toNat x
      let (ok, x, o3) := x.charge c p.first
      let nx := c.after p.frame p.line
      let a : LineAsm := { frame := p.frame, line := p.line, 
                           tag := if c.area ∧ x.startFrame = some p.frame then x.frameTag else p.tag,
                           time := t, pos := c.pos, pixels := [], refused := !ok }
      let x := { x with asm := some a, frame := nx.1, line := nx.2, lineTag := p.tag,
                        prevT := if x.gap = 0 then x.lastT else none, lastT := some t, lastPos := c.pos, gap := 0 }
      let (x, o4) := x.body c p
      (x, o1 ++ o2 ++ o3 ++ o4)

/-- A pixel packet or frame marker after check 4: check 5 and the rest (R101). -/
def Rx.packet (x : Rx) (c : RxCfg) (p : PixPkt) : Rx × List RxOut :=
  if p.dt = 0x01 then x.frameStart c p.frame p.tag p.first
  else if p.dt = 0x02 then x.frameEnd c p.frame p.first
  else if p.dt ≠ c.dt then (x, [.dtMismatch])
  else x.pixels c p

end Sys2Proof.Machine
end

