-- ==== Sys2Proof/Machine/Lines.lean ====
section
/-! DEFINITION. What happens to a line behind its port: the retention ring and the stamp (R217, R325), the
stripes of a stream (R115, R116, R135, R136), set binding at arrival (R150), apply points (R128) and the
activation of tables (R187). -/

namespace Sys2Proof.Machine

/-! ### Values that a stripe takes when it opens -/

/-- The profile's values now. -/
def Mach.profile (m : Mach) (n : Nat) : Profile :=
  { pw := m.rd E.PERIOD_W n, ph := m.rd E.PERIOD_H n, bands := m.rd E.BANDS n, pattern := m.rdB E.PATTERN n,
    phase := m.rd E.PHASE n, sigBits := m.rd E.SIG_BITS n, flags := m.rd E.STAGE_FLAGS n, outK := m.rd E.OUT_K n,
    snrK := m.rd E.SNR_K n, snrStr := m.rd E.SNR_STR n, tnrK := m.rd E.TNR_K n, tnrAlpha := m.rd E.TNR_ALPHA n,
    detail := m.rdB E.DETAIL n, outCh := m.rd E.OUT_CH n, toneMask := m.rd E.TONE_MASK n, cscMode := m.rd E.CSC_MODE n,
    cscMatrix := m.rdB E.CSC_MATRIX n, cscOffset := m.rdB E.CSC_OFFSET n, outFormat := m.rd E.OUT_FORMAT n,
    statsSrc := m.rd E.STATS_SRC n, statsCh := m.rd E.STATS_CH n, statsEn := m.rd E.STATS_EN n,
    zonesX := m.rd E.ZONES_X n, zonesY := m.rd E.ZONES_Y n, clipLo := m.rd E.CLIP_LO n, clipHi := m.rd E.CLIP_HI n,
    sharpCh := m.rd E.SHARP_CH n }

/-- `p` with the fields of stages 6 to 10 from `q` (R212). -/
def Profile.withOutput (p q : Profile) : Profile :=
  { p with outCh := q.outCh, toneMask := q.toneMask, cscMode := q.cscMode, cscMatrix := q.cscMatrix,
           cscOffset := q.cscOffset, outFormat := q.outFormat, statsSrc := q.statsSrc, statsCh := q.statsCh,
           statsEn := q.statsEn, zonesX := q.zonesX, zonesY := q.zonesY, clipLo := q.clipLo, clipHi := q.clipHi,
           sharpCh := q.sharpCh }

/-- The cutter's values of a stream now (R237). -/
def Mach.cutCfg (m : Mach) (s : Nat) : CutCfg :=
  { thrMode := m.rd E.THR_MODE s, thresholds := m.rdB E.THRESHOLDS s, maskLogic := m.rd E.MASK_LOGIC s,
    bgShift := m.rd E.BG_SHIFT s, bgLearn := m.rd E.BG_LEARN s, bgStall := m.rd E.BG_STALL s,
    minArea := m.rd E.MIN_AREA s, maxRows := m.rd E.OBJ_MAX_ROWS s, margin := m.rd E.TILE_MARGIN s,
    format := m.rd E.TILE_FORMAT s, minTile := m.rd E.TILE_MIN_AREA s, posSrc := m.rd E.POS_SRC s }

/-! ### Tables (R179, R186, R187, R199) -/

/-- The active copy of a profile's table of kind 1 flat field, 2 defect map, 3 tone LUTs. -/
def Mach.table (m : Mach) (prof kind : Nat) : Table := m.tabs.active.get {} (4 * prof + kind)

/-- The copy of a given generation, active or still used by a stripe. -/
def Mach.tableGen (m : Mach) (prof kind gen : Nat) : Table :=
  let t := m.table prof kind
  if t.gen = gen then t
  else match m.tabs.old.find? fun x => x.1 == 4 * prof + kind && x.2.gen == gen with
    | some x => x.2
    | none => {}

/-- The generations active now. -/
def Mach.gens (m : Mach) (prof : Nat) : Nat × Nat × Nat :=
  ((m.table prof 1).gen, (m.table prof 2).gen, (m.table prof 3).gen)

/-- Flat field: WIDTH and HEIGHT after R179. -/
def flatDims (b : Bytes) : Nat × Nat :=
  if b.length < 8 then (0, 0)
  else
    let w := leAt b 0 4
    let h := leAt b 4 4
    (w, if b.length < 8 + 4 * w * h then (b.length - 8) / (4 * w) else h)

/-- Keep the entries of a defect map that rise strictly (R179). -/
def keepRising : List (Nat × Nat) → Option (Nat × Nat) → List (Nat × Nat)
  | [], _ => []
  | e :: t, none => e :: keepRising t (some e)
  | e :: t, some l => if l.1 < e.1 ∨ (l.1 = e.1 ∧ l.2 < e.2) then e :: keepRising t (some e) else keepRising t (some l)

/-- COUNT of a defect map as its size holds it. -/
def defectCount (b : Bytes) : Nat := if b.length < 8 then 0 else Nat.min (leAt b 0 4) ((b.length - 8) / 8)

/-- `n` entries (ROW, COLUMN) from the bytes behind the header. -/
def defectEntries : Nat → Bytes → List (Nat × Nat)
  | 0, _ => []
  | n + 1, b => (leAt b 0 4, leAt b 4 2) :: defectEntries n (b.drop 8)

/-- The entries kept of a defect map (R178, R179). -/
def defects (b : Bytes) : List (Nat × Nat) :=
  keepRising (defectEntries (Nat.min 65536 (defectCount b)) (b.drop 8)) none

/-- CH_COUNT of a tone table after R199. -/
def toneCount (b : Bytes) : Nat :=
  if b.length < 8 then 0 else Nat.min (leAt b 0 4) (Nat.min 8 ((b.length - 8) / 8192))

/-- Bytes of the two temporal-reference buffers of a stream (R177). -/
def trefBytes (t : Terms) : Nat := 2 * t.rowPixels * (t.frameLines * t.rowsPerLine) * 4

/-- Bytes of the table pool in use (R186, R190). -/
def Mach.poolUsed (m : Mach) : Nat :=
  m.tabs.loading.length + sumOf (m.tabs.active.map fun x => x.2.bytes.length) +
  sumOf (m.tabs.old.map fun x => x.2.bytes.length) +
  (match m.tabs.pending with | some (_, _, b) => b.length | none => 0) +
  sumOf (m.streams.map fun x => if x.2.trefPool then trefBytes x.2.cur else 0)

/-- Free bytes of the table pool. -/
def Mach.poolFree (m : Mach) : Nat := m.rd E.TABLE_POOL * 1048576 - m.poolUsed

/-- Report the free pool. -/
def Mach.showPool (m : Mach) : Mach := m.wr E.TBL_POOL_FREE 0 (m.poolFree / 1048576)

/-- Rows of an area frame. -/
def Terms.frameRows (t : Terms) : Nat := t.frameLines * t.rowsPerLine

/-- An area frame is open and more of its rows may come (R102). -/
def Stream.midFrame (x : Stream) : Bool :=
  Terms.area x.cur && x.frameNo.isSome && decide (x.seqRows < Terms.frameRows x.cur)

/-- Does a stripe of stream `x` not yet finished, or its open area frame, use a generation? -/
def Stream.usesGen (x : Stream) (prof kind gen : Nat) : Bool :=
  let pick (g : Nat × Nat × Nat) : Nat := if kind = 1 then g.1 else if kind = 2 then g.2.1 else g.2.2
  (x.stripes ++ x.stripe.toList).any (fun t => Terms.profile t.terms == prof && pick t.gens == gen) ||
    (x.midFrame && Terms.profile x.cur == prof && pick x.frameGens == gen)

/-- Free the copies that no stripe uses; a swap that is active and has left no copy in use ends (R186 step 5). -/
def Mach.freeTables (m : Mach) : Mach :=
  let used := m.tabs.old.filter fun o => m.streams.any fun x => x.2.usesGen (o.1 / 4) (o.1 % 4) o.2.gen
  let m := { m with tabs.old := used }
  let m := if used.isEmpty ∧ m.tabs.pending = none ∧ m.rd E.TBL_STATE = 2 then m.wr E.TBL_STATE 0 0 else m
  m.showPool

/-- The pending swap of a profile's table becomes active (R179, R187, R199). -/
def Mach.activateTable (m : Mach) : Mach :=
  match m.tabs.pending with
  | none => m
  | some (prof, kind, b) =>
    let key := 4 * prof + kind
    let prev := m.table prof kind
    let g := m.tabs.gens + 1
    let m := { m with tabs.pending := none, tabs.gens := g, tabs.active := SMap.set {} m.tabs.active key { gen := g, bytes := b },
                      tabs.old := if prev = ({} : Table) then m.tabs.old else m.tabs.old ++ [(key, prev)] }
    let m :=
      if kind = 1 then m.wr E.FF_DIMS prof ((flatDims b).2 * 2 ^ 32 + (flatDims b).1)
      else if kind = 2 then
        let k := (defects b).length
        (m.wr E.DEFECT_COUNT prof k).wr E.DEFECT_DROPPED prof (defectCount b - k)
      else m.wr E.TONE_LUTS prof (toneCount b)
    m.freeTables

/-- A stripe or frame under a profile opens: a swap pending for the profile becomes active (R187). -/
def Mach.activateFor (m : Mach) (prof : Nat) : Mach :=
  match m.tabs.pending with
  | some (p, _, _) => if p = prof then m.activateTable else m
  | none => m

/-! ### Set slots (R149 to R152) -/

/-- Is row (f, l) not after (f', l') in line order? -/
def RxCfg.notAfter (c : RxCfg) (a b : Nat × Nat) : Bool := decide (0 ≤ c.lines a.1 a.2 b.1 b.2)

/-- The slot with the greatest sequence number among those of a list. -/
def lastSlot (l : List SetSlot) : Option Nat := (l.foldl (fun r k => match r with
  | none => some k.seq | some n => some (max n k.seq)) none)

/-- The slot that the settings write with a tag made (R149), freed or not. -/
def Stream.writeSlot (x : Stream) (tag : Nat) : Option Nat := lastSlot ((x.ghosts ++ x.slots).filter fun k => k.tag == tag && k.write)

/-- The outcome of a slot's settings write is still to come, or left the rows behind it uncertain (R152). -/
def SetSlot.unsettled (k : SetSlot) : Bool := k.pend.isSome || k.uncertain || (k.write && k.fromRow == none && !k.atNext)

/-- Change the slots of a stream, the freed ones too; a freed one stays for as long as it is unsettled, and an uncertain one until a later write
has succeeded (R152). -/
def Stream.onSlots (x : Stream) (f : SetSlot → Option SetSlot) : Stream :=
  let old := x.ghosts.filterMap f
  { x with slots := x.slots.filterMap f,
           ghosts := old.filter fun g => g.unsettled && !(g.uncertain && old.any fun h => h.sure && decide (g.seq < h.seq)) }

/-- Free slots (R149). -/
def Stream.dropSlots (x : Stream) (gone : SetSlot → Bool) : Stream :=
  { x with slots := x.slots.filter fun k => !gone k, ghosts := x.ghosts ++ x.slots.filter gone }.onSlots some

/-- The slots whose from-row is known and not after a row. -/
def Stream.slotsAt (x : Stream) (c : RxCfg) (row : Nat × Nat) : List SetSlot :=
  x.slots.filter fun k => match k.fromRow with
    | some r => c.notAfter r row
    | none => false

/-- The slot of a row of an echoing camera, and whether its tag is unknown (R150). -/
def Stream.bindEcho (x : Stream) (c : RxCfg) (row : Nat × Nat) (tag : Nat) : Nat × Bool :=
  let live := x.slotsAt c row
  match lastSlot (live.filter fun k => k.tag == tag) with
  | some n => (n, false)
  | none =>
    match x.prevSlot with
    | some n => (n, true)
    | none => ((lastSlot live).getD ((lastSlot x.slots).getD 0), true)

/-- The slot of a line before R153, and whether its reported tag is unknown. -/
def Stream.slotOf (x : Stream) (echo : Bool) (c : RxCfg) (i : LineInfo) : Option Nat × Bool :=
  if echo then (some i.slot, i.tagBad) else (lastSlot (x.slotsAt c (i.frame, i.line)), false)

/-- Does the camera of a stream echo tags (R150)? For a remote stream the IDENTITY is not here: it is taken as
echoing while SET_LATENCY is 0xFF (notes/assumptions/18.md). -/
def Mach.echoes (m : Mach) (t : Terms) : Bool :=
  if t.remote then t.setLatency == 0xFF else bitOf (leAt (m.rdB E.CAM_IDENTITY t.port) 20 4) 8

/-- SET_LATENCY in force for a stream (R151). -/
def Mach.latency (m : Mach) (t : Terms) : Nat :=
  if t.setLatency = 0xFF then bitsOf (leAt (m.rdB E.CAM_IDENTITY t.port) 20 4) 23 16 else t.setLatency

/-- A new slot of a stream (R149), when one of the 8 is free: it takes FRAME_PARAMS and the next sequence number. -/
def Mach.addSlot (m : Mach) (s : Nat) (k : SetSlot) : Mach :=
  let x := m.strm s
  m.setStrm s { x with nextSlot := x.nextSlot + 1, slots := x.slots ++ [{ k with params := m.rdB E.FRAME_PARAMS s, seq := x.nextSlot }] }

/-- FRAME and LINE of the first line not yet received, when one is expected (R149). -/
def Stream.nextLine (x : Stream) : Nat × Nat := (x.rx.frame, x.rx.line)

/-! ### The retention ring (R117, R325) -/

/-- Bytes of a granule. -/
def granule : Nat := 2097152

/-- N of R325 for a ring of `z` granules and slots of `q` bytes. -/
def ringSlotsOf (z q : Nat) : Nat := z * granule / (q + 32)

/-- The lowest base at which `z` granules fit beside the other rings; behind them all where none fits inside
the pool (notes/assumptions/19.md). -/
def Mach.placeRing (m : Mach) (s z : Nat) : Nat :=
  let keeps := fun (x : Nat × Stream) => decide (x.1 ≠ s) || !x.2.stripes.isEmpty
  let others := m.streams.filterMap fun x => if keeps x ∧ 0 < x.2.ringSize then some (x.2.ringBase, x.2.ringSize) else none
  let free := fun (b : Nat) => others.all fun o => decide (b + z ≤ o.1) || decide (o.1 + o.2 ≤ b)
  let fits := (0 :: others.map fun o => o.1 + o.2).filter fun b => free b && decide (b + z ≤ m.rd E.RETAIN_POOL / 2)
  if fits.isEmpty then maxOf (others.map fun o => o.1 + o.2) else minOf fits

/-- Allocate a stream's ring, whose count of lines begins (R325). An equal size keeps its place; another lies beside the old ring while stripes of the
stream are unfinished (notes/assumptions/19.md). -/
def Mach.allocRing (m : Mach) (s : Nat) (t : Terms) : Mach :=
  let z := t.ret / granule
  let x := m.strm s
  m.setStrm s { x with ringBase := if x.ringSize = z then x.ringBase else m.placeRing s z, ringSize := z, ringQ := t.slotQ, ringStart := x.head }

/-- Give a stream the ring that its terms ask for: one of another size or other slots is allocated anew. -/
def Mach.sizeRing (m : Mach) (s : Nat) (t : Terms) : Mach :=
  let x := m.strm s
  if x.ringSize = t.ret / granule ∧ x.ringQ = t.slotQ then m else m.allocRing s t

/-- Lines of head count `n` since the ring was allocated (R325). -/
def Stream.ringCount (x : Stream) (n : Nat) : Nat := (n + 2 ^ 64 - x.ringStart) % 2 ^ 64

/-- Rows of a line after the separation of LINE_ORDER (R135). -/
def separate (t : Terms) (px : List Nat) : List Nat :=
  if t.lineOrder = 1 then
    let a := px.toArray
    (List.range t.rowsPerLine).flatMap fun j => (List.range t.rowPixels).map fun i => a.getD (i * t.rowsPerLine + j) 0
  else px

/-- The 32-byte stamp of a line (R325). -/
def LineInfo.stamp (l : LineInfo) : Bytes :=
  leBytes 8 l.time.toNat ++ leBytes 4 l.pos ++ leBytes 4 l.frame ++ leBytes 4 l.line ++
    leBytes 4 (bn (l.missing || l.refused) + 2 * bn l.damaged + 4 * bn l.refused) ++ zeros 8

/-- HBM address of the stamp of head count `n`. -/
def Stream.stampAt (x : Stream) (t : Terms) (n : Nat) : Nat :=
  let k := ringSlotsOf x.ringSize t.slotQ
  x.ringBase * granule + k * t.slotQ + 32 * (x.ringCount n % k)

/-! ### Stripes -/

/-- Height of a stripe that begins at row `row` of its sequence (R135). -/
def Terms.height (t : Terms) (row : Nat) : Nat :=
  if t.area then Nat.min (t.stripeRows - row % t.stripeRows) (t.frameRows - row) else t.stripeRows

/-- A stripe is released (R116); the most stripes ready at once on its planer are kept (R158). -/
def Stripe.release (p : Stripe) (t : TW64) : Stripe := { p with released := true, relAt := t }

/-- Stripes released and not started on a planer. -/
def Mach.readyOn (m : Mach) (pl : Nat) : Nat :=
  sumOf (m.streams.map fun x => (x.2.stripes.filter fun p => p.planer == pl && p.released && !p.started).length)

/-- Keep READY_PEAK. -/
def Mach.peakReady (m : Mach) (pl : Nat) : Mach := m.peak E.READY_PEAK pl (m.readyOn pl)

/-- READY_PEAK of every planer. -/
def Mach.peakAll (m : Mach) : Mach := m.each (List.range 16) fun p m => m.peakReady p

/-- A stripe sequence ends: every stripe of it awaiting lookahead is released at once, at a bottom edge (R116); one that was released short of its
lookahead has its bottom edge there too (R136, R229). -/
def Stream.endSequence (x : Stream) (t : TW64) : Stream :=
  { x with newSeq := true, stripes := x.stripes.map fun (p : Stripe) =>
      if p.closed && !p.released then { p.release t with endRow := some x.seqRows }
      else if p.short && p.sequ == x.sequ && p.endRow.isNone then { p with endRow := some x.seqRows } else p }

/-- Release the stripes whose lookahead has arrived (R116). -/
def Stream.lookahead (x : Stream) (t : TW64) : Stream :=
  { x with stripes := x.stripes.map fun (p : Stripe) =>
      let tt : Terms := p.terms
      let after := x.seqRows - (p.row0 + p.rows)
      if p.closed && !p.released && p.sequ == x.sequ &&
          (decide (tt.nlook * tt.rowsPerLine ≤ after) || (tt.area && decide (tt.frameRows ≤ x.seqRows))) then p.release t
      else p }

/-- The apply point of an admitted change is reached at line (f, l): stripes run under the new terms (R128). Reference buffers of another size are
sought anew (R177). -/
def Mach.applyPoint (m : Mach) (s f l : Nat) (t : TW64) : Mach :=
  let x := m.strm s
  let new := m.force s
  let x := if Terms.area x.cur then x else x.endSequence t
  let c := Terms.rxCfg new
  let m := m.setStrm s { x with applyAt := false, applies := x.applies + 1, cur := new, curPlaner := x.planer, newSeq := true,
                                frameNo := none, trefPool := x.trefPool && trefBytes new == trefBytes x.cur,
                                rx := { x.rx with bucket := Nat.min x.rx.bucket c.depth } }
  let m := m.wr E.APPLY_LINE s (f * 2 ^ 32 + l)
  m.sizeRing s new

/-- The first row of a sequence: line-scan counts from 0, area-scan from the line's place in its frame (R135). -/
def Terms.firstRow (t : Terms) (line : Nat) : Nat := if t.area then line * t.rowsPerLine else 0

/-- The open area frame is cut off, by a stop, a suspension or a resync into another frame (R102, R111, R114): no more of its rows come. Its record is
due with its last stripe, or at once where every stripe of it has finished (R204). -/
def Mach.endFrame (m : Mach) (s : Nat) : Mach :=
  let x := m.strm s
  if x.midFrame = false then m
  else
    let last := (x.stripes.filter fun p => p.inst == x.frames).getLast?.map Stripe.n0
    let own := x.ctxs.filterMap fun c => c.acc.filter fun a => c.apply == x.applies && a.inst == x.frames
    match last with
    | some n => m.setStrm s { x with stripes := x.stripes.map fun (p : Stripe) => if p.n0 = n then { p with ends := true } else p }
    | none => m.setStrm s { x with
        cutFrames := x.cutFrames ++ own.map fun a => { terms := x.cur, prof := x.frameProf, acc := a }
        ctxs := x.ctxs.map fun (c : PlanerCtx) => if c.apply = x.applies then { c with acc := none } else c }

/-- A new stripe sequence begins with line (f, l). -/
def Mach.beginSequence (m : Mach) (s l : Nat) : Mach :=
  let x := m.strm s
  let r := Terms.firstRow x.cur l
  m.setStrm s { x with newSeq := false, sequ := x.sequ + 1, seqFirst := r, seqRows := r, prevSlot := none }

/-- Area frame `f` opens: its profile values, tables and cutter values are taken, a BG_CMD written before it among them (R187, R212, R237). -/
def Mach.openFrame (m : Mach) (s f : Nat) : Mach :=
  let x := m.strm s
  let t : Terms := x.cur
  let m := m.activateFor t.profile
  m.setStrm s { x with frameProf := m.profile t.profile, frameGens := m.gens t.profile, frameCut := m.cutCfg s,
                       frameNo := some f, frameSlot := none, noRef := false, frames := x.frames + 1, relearn := false,
                       frameRelearn := x.relearn || x.frameRelearn }

/-- Buffers for the temporal reference are sought where a stripe with step 2e opens, and their want counts once a frame (R177). -/
def Mach.seekRef (m : Mach) (s : Nat) (p : Profile) : Mach :=
  let x := m.strm s
  if Terms.area x.cur = false ∨ bitOf p.flags 3 = false ∨ x.trefPool ∨ x.noRef then m
  else if trefBytes x.cur ≤ m.poolFree then (m.setStrm s { x with trefPool := true }).showPool
  else (m.setStrm s { x with noRef := true }).inc E.TNR_NO_POOL s

/-- A stripe opens with line (f, l): slots waiting for it get their from-row (R149), and the stripe takes the
values in force (R148, R187). -/
def Mach.openStripe (m : Mach) (s f l : Nat) : Mach :=
  let t : Terms := (m.strm s).cur
  let m := if t.area then m else m.activateFor t.profile
  let x := m.strm s
  let slots := x.slots.map fun (k : SetSlot) => if k.atNext then { k with atNext := false, fromRow := some (f, l) } else k
  let p : Profile := m.profile t.profile
  let m := m.seekRef s p
  let x := m.strm s
  let st : Stripe :=
    { sequ := x.sequ, row0 := x.seqRows, first := x.seqFirst, n0 := x.head, frame := f, line := l, terms := t,
      planer := x.curPlaner, apply := x.applies, prof := if t.area then p.withOutput x.frameProf else p, cut := if t.area then x.frameCut else m.cutCfg s,
      relearn := if t.area then x.frameRelearn else x.relearn, inst := x.frames, refPool := x.trefPool,
      gens := if t.area then x.frameGens else m.gens t.profile }
  m.setStrm s { x with slots := slots, stripe := some st, relearn := x.relearn && t.area, frameRelearn := false }

/-- The source node of a remote stream learns another POS_SRC as the first stripe or frame opens behind its write: the RESERVE of the route goes there
again (R217, R237, notes/assumptions/17.md). -/
def Mach.tellPos (m : Mach) (s : Nat) : Mach :=
  let x := m.strm s
  let t : Terms := x.cur
  match x.live.getLast?, x.stripe with
  | some k, some p =>
    if t.remote ∧ p.cut.posSrc ≠ x.posSent then
      ((m.setStrm s { x with posSent := p.cut.posSrc }).sendTo t.sourceNode 3 0x40 k.num t.d (t.bytes ++ leBytes 1 p.cut.posSrc)).2
    else m
  | _, _ => m

/-- Close the open stripe at instant `t` (R115, R116). `last` ends its sequence at a bottom edge. -/
def Stream.closeStripe (x : Stream) (t : TW64) (last : Bool) : Stream :=
  match x.stripe with
  | none => x
  | some p =>
    let p := { p with closed := true, close := t, endRow := if last then some (p.row0 + p.rows) else none }
    let p := if last then p.release t else p
    { x with stripe := none, stripes := x.stripes ++ [p] }

/-- At stripe close a channel of the stripe holds no descriptor, or has no ring space, for the stripe's unit (R124
cause 3); a channel in HELD counts under cause 2 instead. -/
def Mach.hostShort (m : Mach) (t : Terms) : Bool :=
  (List.range 5).any fun role =>
    let c := t.dma role
    let x := m.chan c
    t.produced role && decide (c < 128) && x.state != 3 &&
      (x.state != 1 ||
        (if m.chClass c = 1 then x.descs.isEmpty
         else decide (m.ringSlots c < x.fill + m.slotsOf c (m.unitBytes t role))))

/-- The previous member of a phase group in PHASE_NS order (R124). -/
def Mach.phasePrev (m : Mach) (s : Nat) (t : Terms) : Option (Nat × Stream) :=
  if t.phaseGroup = 0 then none
  else
    (m.streams.filter fun o =>
      o.1 != s && m.cstate o.1 == cRUNNING && Terms.phaseGroup o.2.cur == t.phaseGroup &&
        decide (Terms.phaseNs o.2.cur < t.phaseNs)).foldl (fun (r : Option (Nat × Stream)) o => match r with
      | none => some o
      | some q => if Terms.phaseNs q.2.cur < Terms.phaseNs o.2.cur then some o else some q) none

/-- The phase condition of R124 fails at a stripe close of stream `x` behind member `q`: `q` has not closed since the stream's own last
close, or too short a time ago. -/
def Stream.phaseBroken (x q : Stream) (t : Terms) (now : TW64) : Bool :=
  match q.lastClose with
  | none => true
  | some c =>
    let since := match x.lastClose with | some o => decide (twDiff c o < 0) | none => false
    let need : Int := ((t.phaseNs - Terms.phaseNs q.cur : Nat) : Int) * 1000 - (t.j : Nat)
    since || decide (twDiff now c * 1000 < need * 256)

/-- What the close of the open stripe shows of the conditions of R124, causes 3 and 7; a broken phase condition holds for both members. -/
def Mach.judgeClose (m : Mach) (s : Nat) (now : TW64) : Mach :=
  let x := m.strm s
  let t : Terms := x.cur
  let prev := (m.phasePrev s t).filter fun q => x.phaseBroken q.2 t now
  let m := m.setStrm s { x with lastClose := some now, stripe := x.stripe.map fun (p : Stripe) =>
    { p with noRoom := m.hostShort t, phaseBad := prev.isSome } }
  match prev with
  | some q => (m.setStrm q.1 { m.strm q.1 with phaseLost := some m.ns }).inc E.PHASE_VIOLATIONS s
  | none => m

/-- Close the open stripe as incomplete and end its sequence (R102, R111, R114). -/
def Mach.closeIncomplete (m : Mach) (s : Nat) (t : TW64) : Mach :=
  let started := match (m.strm s).stripe with | some p => decide (0 < p.rows) | none => false
  let m := m.when started fun m => m.judgeClose s t
  let x := m.strm s
  let x := match x.stripe with
    | some p =>
      if 0 < p.rows then
        { x with stripe := none, stripes := x.stripes ++
            [{ p with incomplete := true, closed := true, close := t, released := true, relAt := t,
                      endRow := some (p.row0 + p.rows) }] }
      else { x with stripe := none }
    | none => x
  m.setStrm s (x.endSequence t)

/-- The lanes of a port (R19, R20). -/
def Mach.lanesOf (m : Mach) (p : Nat) : List Nat := (List.range (m.rd E.PORT_WIDTH p)).map (p + ·)

/-- The input events of a stream so far: the counters of R410. -/
def Mach.inputEvents (m : Mach) (s : Nat) (t : Terms) : Nat :=
  m.rd E.DAMAGED_LINES s + m.rd E.MISSING_LINES s + m.rd E.OUT_OF_ORDER s + m.rd E.RESYNCS s + m.rd E.RATE_DROPS s +
    (if t.remote then 0
     else sumOf ((m.lanesOf t.port).map fun l => m.rd E.CW_UNCORRECTABLE l))

/-- A line's place in the ring, and what the ring keeps of it beside its pixels (R325). -/
def Mach.lineInfo (m : Mach) (x : Stream) (s : Nat) (l : LineOut) (posState : Nat) : LineInfo :=
  let t : Terms := x.cur
  let b := (if t.area ∧ x.frameNo = some l.frame then x.frameSlot else none).getD (x.bindEcho t.rxCfg (l.frame, l.line) l.tag)
  { n := x.head, frame := l.frame, line := l.line, tag := l.tag, time := l.time, pos := l.pos,
    missing := l.missing, damaged := l.damaged, refused := l.refused, posState := posState,
    addr := x.ringBase * granule + x.ringCount x.head % ringSlotsOf x.ringSize t.slotQ * t.slotQ, slot := b.1, tagBad := b.2,
    events := m.inputEvents s t, at_ := m.ns }

/-- The ring keeps a line. -/
def Stream.keepLine (x : Stream) (li : LineInfo) : Stream :=
  let k := ringSlotsOf x.ringSize (Terms.slotQ x.cur)
  { x with head := (x.head + 1) % 2 ^ 64, lines := (x.lines.filter fun (i : LineInfo) => decide (x.head + 1 < i.n + k + 1)) ++ [li] }

/-- A module in SYNCING processes a stream from its stripe k onward: the line is before it, or k is not known yet (R418). -/
def Mach.beforeStart (m : Mach) (s f l : Nat) : Bool :=
  m.pair.awaitStart.contains s ||
    m.pair.awaitStripe.any fun k => k.1 == s && decide (0 < (Terms.rxCfg (m.strm s).cur).lines f l k.2.1 k.2.2)

/-- The next line of a stream takes its place: apply point, sequence, ring and stripe (R115, R116, R128, R135). A line before
the stripe from which a module in SYNCING processes its stream is kept alone (R418). -/
def Mach.placeLine (m : Mach) (s : Nat) (l : LineOut) (posState : Nat) : LineInfo × Mach :=
  if m.beforeStart s l.frame l.line then
    let x := m.strm s
    let li := m.lineInfo x s l posState
    (li, m.setStrm s (x.keepLine li))
  else
    let x := m.strm s
    let opens := Terms.area x.cur && x.frameNo != some l.frame
    let m := m.when opens fun m => m.endFrame s
    let x := m.strm s
    let m := if opens ∧ x.newSeq = false then m.setStrm s (x.endSequence l.arr) else m
    let m := if x.applyAt ∧ x.stripe = none ∧ (Terms.area x.cur = false ∨ opens) then m.applyPoint s l.frame l.line l.arr else m
    let begins := (m.strm s).newSeq
    let m := if begins then m.beginSequence s l.line else m
    let m := if Terms.area (m.strm s).cur = false ∨ begins = false then m
      else if (m.strm s).frameNo = some l.frame then m else m.openFrame s l.frame
    let m := if (m.strm s).stripe = none then (m.openStripe s l.frame l.line).tellPos s else m
    let x := m.strm s
    let t : Terms := x.cur
    let li := m.lineInfo x s l posState
    let p : Option Stripe := x.stripe.map fun (p : Stripe) => { p with rows := p.rows + t.rowsPerLine }
    let x : Stream := { x.keepLine li with seqRows := x.seqRows + t.rowsPerLine, prevSlot := some li.slot, stripe := p,
                                                frameSlot := if t.area then some (li.slot, li.tagBad) else none }
    let full : Bool := match p with | some p => decide (t.height p.row0 ≤ p.rows) | none => false
    let m := (m.setStrm s x).when full fun m => m.judgeClose s l.arr
    let x := m.strm s
    let x := if full then
        x.closeStripe l.arr ((t.area && decide (t.frameRows ≤ x.seqRows)) || (!t.area && x.applyAt))
      else x
    let x := if full ∧ t.area = false ∧ x.applyAt then { x with newSeq := true } else x
    let x := x.lookahead l.arr
    let x := if t.area ∧ t.frameRows ≤ x.seqRows then { x with newSeq := true } else x
    (li, m.setStrm s x)

/-- Write a line to the ring and hand its rows to the stripes (R115, R116, R135, R217, R325). -/
def Mach.writeLine (h : Memory) (m : Mach) (s : Nat) (l : LineOut) (posState : Nat) : Memory × Mach :=
  let m := if l.damaged then m.inc E.DAMAGED_LINES s else m
  let r := m.placeLine s l posState
  let li := r.1
  let m := r.2
  let x := m.strm s
  let t : Terms := x.cur
  let h := if l.refused then h
    else if l.missing then h.writeBytes li.addr (zeros t.lb)
    else h.writeBytes li.addr (packBits t.bits (separate t l.pixels))
  let h := h.writeBytes (x.stampAt t li.n) li.stamp
  let m := if l.refused then m else m.inc E.LINES_ACCEPTED s
  (h, m.peakAll)

/-- POLICE_STATE of a stream (R104); 2 for one in squall that is absent too: DESIGN CHOICE (notes/assumptions/58.md). -/
def Mach.showPolice (m : Mach) (s : Nat) : Mach :=
  let x := m.strm s
  m.wr E.POLICE_STATE s (if x.enabled = false then 0 else if x.rx.squall then 2 else if x.rx.absent then 3 else 1)

/-- Entry or exit of squall is published (R302 kind 5). -/
def Mach.squallEvent (m : Mach) (s data : Nat) (t : TW64) : Mach := m.produce 5 s (m.rd E.SQUALL_EC s) data t

/-- The POS of a line on a module that follows an active one (R248): as received, or awaited. -/
def Mach.stampPos (m : Mach) (s : Nat) (l : LineOut) : LineOut × Nat × Mach :=
  if m.follows then
    let x := m.strm s
    match x.posRx.find? fun q => q.1 == l.frame && q.2.1 == l.line with
    | some q => ({ l with pos := q.2.2 }, 0,
        m.setStrm s { x with posRx := x.posRx.filter fun r => !(r.1 == l.frame && r.2.1 == l.line) })
    | none => (l, 1, m)
  else (l, 0, m)

/-- POS of a written line goes to the standby (R248): stream, FRAME, LINE, POS (notes/assumptions/17.md). -/
def Mach.sendPos (m : Mach) (s : Nat) (l : LineOut) : Mach :=
  if m.leads then
    m.pairSend 0x65 2 0 0 (leBytes 4 s ++ leBytes 4 l.frame ++ leBytes 4 l.line ++ leBytes 4 l.pos)
  else m

/-- Carry out what reception of a local stream answers. -/
def applyRx (s : Nat) : List RxOut → Memory × Mach → Memory × Mach
  | [], hm => hm
  | o :: os, hm =>
    let m := hm.2
    let hm : Memory × Mach := match o with
      | .line l =>
        let r := m.stampPos s l
        let w := Mach.writeLine hm.1 r.2.2 s r.1 r.2.1
        (w.1, w.2.sendPos s r.1)
      | .resync t => (hm.1, ((m.closeIncomplete s t).inc E.RESYNCS s).peakAll)
      | .dtMismatch => (hm.1, m.inc E.DT_MISMATCH s)
      | .outOfOrder => (hm.1, m.inc E.OUT_OF_ORDER s)
      | .oversize => (hm.1, m.inc E.OVERSIZE s)
      | .missing => (hm.1, m.inc E.MISSING_LINES s)
      | .rateDrop => (hm.1, m.inc E.RATE_DROPS s)
      | .squall t => (hm.1, (m.inc E.SQUALL_ENTRIES s).squallEvent s 1 t)
      | .present => (hm.1, m.setStrm s { m.strm s with rx := { (m.strm s).rx with absent := false } })
    applyRx s os hm

end Sys2Proof.Machine
end

