-- ==== Sys2Proof/Machine/Codes.lean ====
section
/-! DEFINITION. Check codes and the lane coding: CRC-8 (R36), CRC-16 and CRC-32C (R66), CRC-64 (R353),
the scrambler (R33) and the Reed-Solomon code over GF(2^10) (R38 to R40). -/

namespace Sys2Proof.Machine

/-- One bit into a left-shifting CRC register of width `w` with polynomial `poly`. -/
def crcBit (w poly : Nat) (r : Nat) (b : Bool) : Nat :=
  let top := bitOf r (w - 1)
  let s := r * 2 % 2 ^ w
  if top == b then s else s ^^^ poly

/-- The bits of a byte, bit 7 first. -/
def bitsMsb (b : Byte) : List Bool := (List.range 8).map fun i => b.getLsbD (7 - i)

/-- The bits of a byte, bit 0 first (R31). -/
def bitsLsb (b : Byte) : List Bool := (List.range 8).map fun i => b.getLsbD i

/-- Left-shifting CRC over bytes, each byte bit 7 first, no final inversion. -/
def crcMsb (w poly init : Nat) (bs : Bytes) : Nat :=
  bs.foldl (fun r b => (bitsMsb b).foldl (crcBit w poly) r) init

/-- CRC-8 of the alignment marker (R36). -/
def crc8 (bs : Bytes) : Nat := crcMsb 8 0x07 0xFF bs

/-- HCRC of a packet header (R66). -/
def crc16 (bs : Bytes) : Nat := crcMsb 16 0x1021 0xFFFF bs

/-- CRC-64 of ECMA-182 (R353), from register value `init`. -/
def crc64 (init : Nat) (bs : Bytes) : Nat := crcMsb 64 0x42F0E1EBA9EA3693 init bs

/-- The bits of a number reversed in `w` places. -/
def revBits : Nat → Nat → Nat
  | 0, _ => 0
  | w + 1, n => n % 2 * 2 ^ w + revBits w (n / 2)

/-- CRC-32C (R66): reflected input and output, final XOR. -/
def crc32c (bs : Bytes) : Nat :=
  revBits 32 (bs.foldl (fun r b => (bitsLsb b).foldl (crcBit 32 0x1EDC6F41) r) 0xFFFFFFFF) ^^^ 0xFFFFFFFF

/-! ### Scrambler -/

/-- Receive one payload bit: the descrambled bit and the new register (R33). Bit 0 of the register is the latest bit received. -/
def descrambleBit (r : BitVec 58) (b : Bool) : Bool × BitVec 58 :=
  (xor b (xor (r.getLsbD 38) (r.getLsbD 57)), (r <<< 1) ||| (if b then 1 else 0))

/-- Descramble bits in wire order. -/
def descramble : BitVec 58 → List Bool → List Bool × BitVec 58
  | r, [] => ([], r)
  | r, b :: t =>
    let (d, r') := descrambleBit r b
    let (ds, r'') := descramble r' t
    (d :: ds, r'')

/-- The number of bits in order, the first in bit 0. -/
def bitsNat : List Bool → Nat
  | [] => 0
  | b :: t => bn b + 2 * bitsNat t

/-- Bits in wire order to bytes, `k` bytes, bit 0 of each first. -/
def bytesOfBits : Nat → List Bool → Bytes
  | 0, _ => []
  | k + 1, l => BitVec.ofNat 8 (bitsNat (l.take 8)) :: bytesOfBits k (l.drop 8)

/-- The `w` low bits of `n`, bit 0 first. -/
def natBits (w n : Nat) : List Bool := (List.range w).map fun i => bitOf n i

/-! ### GF(2^10) and RS(530,514) -/

/-- Multiply by α in GF(2^10) with x^10 + x^3 + 1 (R38). -/
def gfX (a : Nat) : Nat := let s := a * 2; if 1024 ≤ s then (s - 1024) ^^^ 9 else s

/-- Product in GF(2^10), over the low `k` bits of `b`. -/
def gfMulAux : Nat → Nat → Nat → Nat
  | 0, _, _ => 0
  | k + 1, a, b => (if b % 2 = 1 then a else 0) ^^^ gfMulAux k (gfX a) (b / 2)

/-- Product in GF(2^10). -/
def gfMul (a b : Nat) : Nat := gfMulAux 10 a b

/-- `a` to the power `n`, by binary exponent on `k` bits. -/
def gfPowAux : Nat → Nat → Nat → Nat
  | 0, _, _ => 1
  | k + 1, a, n => gfMul (if n % 2 = 1 then a else 1) (gfPowAux k (gfMul a a) (n / 2))

/-- α to the power `n`. -/
def gfAlpha (n : Nat) : Nat := gfPowAux 10 2 (n % 1023)

/-- The inverse: a^1022. -/
def gfInv (a : Nat) : Nat := gfPowAux 10 a 1022

/-- Value of a polynomial, highest power first, at `x`. -/
def gfHorner (x : Nat) (c : List Nat) : Nat := c.foldl (fun r a => gfMul r x ^^^ a) 0

/-- Value of a polynomial, lowest power first, at `x`. -/
def gfEval (x : Nat) (c : List Nat) : Nat := gfHorner x c.reverse

/-- Sum of two polynomials, lowest power first. -/
def gfAdd : List Nat → List Nat → List Nat
  | [], q => q
  | p, [] => p
  | a :: p, b :: q => (a ^^^ b) :: gfAdd p q

/-- Scale a polynomial. -/
def gfScale (k : Nat) (p : List Nat) : List Nat := p.map (gfMul k)

/-- Product of polynomials, lowest power first. -/
def gfPolyMul : List Nat → List Nat → List Nat
  | [], _ => []
  | a :: p, q => gfAdd (gfScale a q) (0 :: gfPolyMul p q)

/-- The 16 syndromes of a codeword: its values at α^0 to α^15 (R39). -/
def rsSyndromes (c : List Nat) : List Nat := (List.range 16).map fun i => gfHorner (gfAlpha i) c

/-- Berlekamp-Massey: locator, previous locator, degree, gap, previous discrepancy, syndromes seen (latest first). -/
def rsMassey : List Nat → List Nat → List Nat → Nat → Nat → Nat → Nat → List Nat → List Nat × Nat
  | [], lam, _, l, _, _, _, _ => (lam, l)
  | s :: rest, lam, prev, l, gap, pd, n, seen =>
    let window := s :: seen
    let d := (lam.zip window).foldl (fun r x => r ^^^ gfMul x.1 x.2) 0
    if d = 0 then rsMassey rest lam prev l (gap + 1) pd (n + 1) window
    else
      let lam' := gfAdd lam (List.replicate gap 0 ++ gfScale (gfMul d (gfInv pd)) prev)
      if 2 * l ≤ n then rsMassey rest lam' lam (n + 1 - l) 1 d (n + 1) window
      else rsMassey rest lam' prev l (gap + 1) pd (n + 1) window

/-- Powers below 530 whose inverse is a root of the locator. -/
def rsRoots (lam : List Nat) : List Nat :=
  (List.range 530).filter fun i => gfEval (gfAlpha (1023 - i)) lam = 0

/-- The formal derivative of a polynomial, lowest power first. -/
def gfDerive (p : List Nat) : List Nat :=
  (p.drop 1).zipIdx.map fun x => if x.2 % 2 = 0 then x.1 else 0

/-- Decode a received codeword of 530 symbols, m0 first (R40): the corrected symbols with their count of
corrected symbols, or none when more than 8 symbols are wrong. -/
def rsDecode (c : List Nat) : Option (List Nat × Nat) :=
  let syn := rsSyndromes c
  if syn.all (· == 0) then some (c, 0)
  else
    let (lam, l) := rsMassey syn [1] [1] 0 1 1 0 []
    let roots := rsRoots lam
    if 8 < l ∨ roots.length ≠ l then none
    else
      let omega := (gfPolyMul syn lam).take 16
      let dl := gfDerive lam
      let fix := roots.map fun i =>
        let xi := gfAlpha (1023 - i)
        (529 - i, gfMul (gfAlpha i) (gfMul (gfEval xi omega) (gfInv (gfEval xi dl))))
      let c' := fix.foldl (fun r f => r.set f.1 (r.getD f.1 0 ^^^ f.2)) c
      if (rsSyndromes c').all (· == 0) then some (c', l) else none

/-- The remainder of `m(x) x^16` by g(x), by shift register: parity symbols, highest power first (R39). -/
def rsParity (msg : List Nat) : List Nat :=
  let g := (List.range 16).foldl (fun p i => gfPolyMul [gfAlpha i, 1] p) [1]
  let gh := (g.take 16).reverse
  msg.foldl (fun (r : List Nat) (s : Nat) =>
    let f := s ^^^ r.headD 0
    (List.zip (r.drop 1 ++ [0]) gh).map (fun (x : Nat × Nat) => x.1 ^^^ gfMul f x.2)) (List.replicate 16 0)

end Sys2Proof.Machine
end

