-- ==== Sys2Proof/Machine/Wire.lean ====
section
/-! DEFINITION. The lanes' wire: PAM4 levels, precoding and polarity (R27 to R30), the transmitter's blocks, scrambler, markers and
codewords (R31 to R39, R41), what a lane sends at each codeword time, and the reference outputs (R18, R22). -/

namespace Sys2Proof.Machine

/-! ### Symbols (R27 to R30). A level is written 0 to 3 for −3, −1, +1 and +3. -/

/-- The level index of a bit pair, first bit first. -/
def pairIndex (first second : Bool) : Nat :=
  match first, second with
  | false, false => 0
  | false, true => 1
  | true, true => 2
  | true, false => 3

/-- The bit pair of a level index. -/
def indexPair (g : Nat) : List Bool :=
  match g with
  | 0 => [false, false]
  | 1 => [false, true]
  | 2 => [true, true]
  | _ => [true, false]

/-- Bits in wire order as level indices. -/
def toIndices : List Bool → List Nat
  | a :: b :: t => pairIndex a b :: toIndices t
  | [a] => [pairIndex a false]
  | [] => []

/-- Precode indices after index `y` was sent (R28): the indices sent, and the last of them. -/
def precode : Nat → List Nat → List Nat × Nat
  | y, [] => ([], y)
  | y, g :: t =>
    let z := (g + 4 - y % 4) % 4
    let r := precode z t
    (z :: r.1, r.2)

/-- Remove precoding after index `y` was received (R28). -/
def unprecode : Nat → List Nat → List Nat
  | _, [] => []
  | y, z :: t => (z + y) % 4 :: unprecode z t

/-- Negate every level where the polarity is inverted (R30). -/
def polarity (inv : Bool) (l : List Nat) : List Nat := if inv then l.map (3 - ·) else l

/-- The flags of a lane (R55): TX_INV 0, RX_INV 1, TX_PRECODE 2, RX_PRECODE 3. -/
def Mach.laneFlag (m : Mach) (l i : Nat) : Bool := bitOf (m.rd E.LANE_FLAGS l) i

/-! ### Codewords out (R31 to R33, R38, R39) -/

/-- Send payload bits through the scrambler (R33). Bit 0 of the register is the latest bit sent. -/
def scramble : BitVec 58 → List Bool → List Bool × BitVec 58
  | r, [] => ([], r)
  | r, d :: t =>
    let b := xor d (xor (r.getLsbD 38) (r.getLsbD 57))
    let rest := scramble ((r <<< 1) ||| (if b then 1 else 0)) t
    (b :: rest.1, rest.2)

/-- The bits of the blocks of a codeword from index `k` on: header T XOR (k mod 2), then the scrambled payload (R31, R32). -/
def blocksBits : Nat → BitVec 58 → List TxBlock → List Bool × BitVec 58
  | _, r, [] => ([], r)
  | k, r, b :: t =>
    let p := scramble r (b.payload.flatMap bitsLsb)
    let rest := blocksBits (k + 1) p.2 t
    ((xor b.control (k % 2 == 1) :: p.1) ++ rest.1, rest.2)

/-- Bits as symbols of 10, the first bit of each in bit 0 (R38). -/
def symbolsOf : Nat → List Bool → List Nat
  | 0, _ => []
  | n + 1, l => bitsNat (l.take 10) :: symbolsOf n (l.drop 10)

/-- The codeword of 20 blocks: 514 message symbols and their parity (R38, R39), with the scrambler after it. -/
def codewordOf (r : BitVec 58) (blocks : List TxBlock) : List Nat × BitVec 58 :=
  let b := blocksBits 0 r blocks
  let msg := symbolsOf 514 b.1
  (msg ++ rsParity msg, b.2)

/-- A codeword's symbols as level indices, before precoding (R27). -/
def codewordIndices (c : List Nat) : List Nat := toIndices (c.flatMap (natBits 10))

/-- Level indices as a codeword's symbols. -/
def indicesCodeword (g : List Nat) : List Nat := symbolsOf 530 (g.flatMap indexPair)

/-! ### Blocks out (R34 to R36, R63) -/

/-- The idle block (R34). -/
def idleTx : TxBlock := { control := true, payload := (0x0F : Byte) :: zeros 31 }

/-- The alignment marker that lane `l` sends (R36): its index in a port of `w` lanes, its codeword phase and its count. -/
def markerTx (l idx w phase seq : Nat) : TxBlock :=
  let b := leBytes 4 (0xA5 + 0x5A * 2 ^ 8 + idx * 2 ^ 16 + (if w = 1 then 0 else if w = 2 then 1 else 2) * 2 ^ 18 + l * 2 ^ 24) ++
    leBytes 4 (1 + phase * 2 ^ 8 + seq % 256 * 2 ^ 16) ++ zeros 23
  { control := true, payload := b ++ leBytes 1 (crc8 b) }

/-- Fill bytes of a packet that begins at byte 2 of a boundary block (R63): the fewest for which the block that ends it carries 1 to
29 of its bytes. -/
def fillOf (n : Nat) : Nat := (([0, 1, 2, 3].find? fun f => decide (30 < n + f) && decide (1 ≤ (n + f + 2) % 32 ∧ (n + f + 2) % 32 ≤ 29))).getD 0

/-- Data blocks of a packet's bytes, and the boundary block that ends it. -/
def tailBlocks : Nat → Bytes → List TxBlock
  | 0, _ => []
  | fuel + 1, b =>
    if b.length < 32 then
      [{ control := true, payload := leBytes 2 (0x3C + b.length * 256) ++ b ++ zeros (30 - b.length) }]
    else { control := false, payload := b.take 32 } :: tailBlocks fuel (b.drop 32)

/-- The blocks of a packet (R34, R63): a boundary block begins it, data blocks carry it, a boundary block ends it. -/
def packetBlocks (b : Bytes) : List TxBlock :=
  let all := b ++ zeros (fillOf b.length)
  { control := true, payload := leBytes 2 (0x3C + 2 ^ 13) ++ all.take 30 } :: tailBlocks (b.length / 32 + 2) (all.drop 30)

/-! ### The transmitters -/

/-- Port p's transmitter. -/
def Mach.txPort (m : Mach) (p : Nat) : PortTx := m.txPorts.get {} p
/-- Replace port p's transmitter. -/
def Mach.setTxPort (m : Mach) (p : Nat) (x : PortTx) : Mach := { m with txPorts := SMap.set {} m.txPorts p x }
/-- Lane L's transmitter. -/
def Mach.txLane (m : Mach) (l : Nat) : LaneTx := m.txLanes.get {} l
/-- Replace lane L's transmitter. -/
def Mach.setTxLane (m : Mach) (l : Nat) (x : LaneTx) : Mach := { m with txLanes := SMap.set {} m.txLanes l x }

/-- A quad is powered and out of recovery (R18, R475). -/
def Mach.quadOn (m : Mach) (q : Nat) : Bool := m.rd E.QUAD_ROLE q != 0 && m.rd E.ISLAND_STATE q == 1

/-- The selected reference that REFOnn of a quad carries (R18, R22): REFIN_A 0, REFIN_B 1, holdover 2; none where it is disabled. -/
def Mach.refo (m : Mach) (q : Nat) : Option Nat := if m.quadOn q then some (m.rd E.REF_SELECTED) else none

/-- The four transmitters of a quad send; otherwise they are held in electrical idle (R18, R44). -/
def Mach.quadSends (m : Mach) (q : Nat) : Bool := m.quadOn q && (m.quad q).pllLocked

/-- Centre the far-end loop's phase FIFO (R61): what its 16 symbols are the spec does not say. -/
def Mach.centreFifo (m : Mach) (l : Nat) : Mach :=
  let r := m.take 32
  r.2.setLane l { r.2.lane l with fifo := (List.range 16).map fun i => r.1 / 4 ^ i % 4 }

/-- A lane's loop starts (R60, R61): the near-end loops with an empty path, in which the receiver's offset lies a free number of bits before
the next block pair (R53, notes/assumptions/2.md); the far-end loop with a centred FIFO. -/
def Mach.startLoop (m : Mach) (l : Nat) : Mach :=
  let m := m.setTxLane l { m.txLane l with own := [] }
  let m := m.setLane l { m.lane l with fifo := [], bits := [], skip := 0 }
  match m.rd E.LOOP_MODE l with
  | 0 => m
  | 3 => m.centreFifo l
  | _ =>
    let r := m.take 64
    r.2.setLane l { r.2.lane l with skip := r.1 % 514 }

/-- The transmitters of a quad start: scrambler at all ones, block and marker counts at 0 (R33, R37, R41); a loop of a lane starts with
them (R60, R61). -/
def Mach.startTx (m : Mach) (q : Nat) : Mach :=
  m.each ((List.range 4).map (4 * q + ·)) fun l m => ((m.setTxPort l {}).setTxLane l {}).startLoop l

/-- A packet or frame enters the transmit coder of a port (R63, R367). -/
def Mach.putPacket (m : Mach) (p : Nat) (b : Bytes) : Mach :=
  m.setTxPort p { m.txPort p with blocks := (m.txPort p).blocks ++ packetBlocks b }

/-- The blocks of one codeword time on a port of `w` lanes (R34, R37, R41): for each block place, one block a lane; a marker on every lane at
the same lane block count, port block j on lane j mod w, and idle blocks where no packet waits. -/
def portRows (p w seq : Nat) : Nat → Nat → List TxBlock → List (List TxBlock) × List TxBlock
  | 0, _, q => ([], q)
  | n + 1, at_, q =>
    if at_ % 16384 = 0 then
      let rest := portRows p w (seq + 1) n (at_ + 1) q
      (((List.range w).map fun i => markerTx (p + i) i w (at_ % 20) seq) :: rest.1, rest.2)
    else
      let rest := portRows p w seq n (at_ + 1) (q.drop w)
      (((List.range w).map fun i => q.getD i idleTx) :: rest.1, rest.2)

/-- A lane sends one codeword of its own stream: levels on the line, unless the far-end loop has the line; in a near-end loop they go
to the lane's own receiver, which takes none of those sent while it was DOWN (R27 to R30, R60). -/
def Mach.sendCodeword (m : Mach) (l : Nat) (blocks : List TxBlock) : Mach :=
  let x := m.txLane l
  let c := codewordOf x.scr blocks
  let g := codewordIndices c.1
  let y := if m.laneFlag l 2 then precode x.prev g else (g, 0)
  let levels := polarity (m.laneFlag l 0) y.1
  let loop := m.rd E.LOOP_MODE l
  let own := if m.rd E.LANE_STATE l = 0 then [] else x.own
  let m := m.setTxLane l { scr := c.2, prev := y.2,
                           own := if loop = 1 then own ++ [levels] else if loop = 2 then own ++ [g] else [] }
  if loop = 3 then m else m.emit (.lane l levels)

/-- One codeword time on a port (R41). -/
def Mach.sendPort (p : Nat) (m : Mach) : Mach :=
  let w := m.rd E.PORT_WIDTH p
  if w = 0 ∨ m.quadSends (p / 4) = false then m
  else
    let x := m.txPort p
    let r := portRows p w x.markers 20 x.count x.blocks
    let markers := x.markers + (if x.count % 16384 = 0 ∨ 16384 < x.count % 16384 + 20 then 1 else 0)
    let m := m.setTxPort p { blocks := r.2, count := (x.count + 20) % 81920, markers := markers % 256 }
    m.each (List.range w) fun i m => m.sendCodeword (p + i) (r.1.map fun row => row.getD i idleTx)

/-- A codeword time ends with this tick: 2 codewords of 94.643 ns take 265 ticks of 1.4 GHz (R43, notes/assumptions/49.md). -/
def Mach.codewordDue (m : Mach) : Bool := decide ((2 * (m.ltc.toNat + 1)) / 265 ≠ 2 * m.ltc.toNat / 265)

/-- What the transmitters send by this tick. -/
def Mach.transmit (m : Mach) : Mach := if m.codewordDue then m.each (List.range 96) Mach.sendPort else m

end Sys2Proof.Machine
end

