-- ==== Sys2Proof/Machine/CamLink.lean ====
section
/-! DEFINITION. The module's side of a camera port: downstream packets (R63, R65, R93), register transactions
(R80 to R88), triggers (R89, R92), and what a port's loss does to its streams (R78, R114). -/

namespace Sys2Proof.Machine

/-! ### Packets -/

/-- A downstream Tasin packet (R63, R65, R66) of a data type. -/
def tasinPacket (dt : Nat) (owner retry : Bool) (tag : Nat) (payload : Bytes) : Bytes :=
  let h := leBytes 4 (dt * 16 + bn owner * 1024 + bn retry * 2048 + payload.length * 65536) ++ zeros 8 ++
    leBytes 2 tag ++ zeros 2 ++ zeros 4 ++ zeros 2
  let h := h ++ leBytes 2 (crc16 h)
  if payload.isEmpty then h else h ++ payload ++ leBytes 4 (crc32c payload)

/-- Put a downstream packet in the port's queue. -/
def Mach.queueDown (m : Mach) (p : Nat) (k : DownPkt) : Mach :=
  m.setPort p { m.port p with tx := (m.port p).tx ++ [k] }

/-- The port is LINKED, STREAMING or SQUALL. -/
def Mach.linked (m : Mach) (p : Nat) : Bool := decide (4 ≤ m.rd E.PORT_STATE p ∧ m.rd E.PORT_STATE p ≤ 6)
/-- The port is LINKED or FAULTED: packets pass. -/
def Mach.talking (m : Mach) (p : Nat) : Bool := decide (4 ≤ m.rd E.PORT_STATE p)

/-! ### Streams of a port -/

/-- The local streams whose contract, with a context, names the port. -/
def Mach.streamsOn (m : Mach) (p : Nat) : List Nat :=
  (List.range 256).filter fun s =>
    m.hasContext s && !Terms.remote (m.force s) && Terms.port (m.force s) == p

/-- The RUNNING streams of a port. -/
def Mach.runningOn (m : Mach) (p : Nat) : List Nat := (m.streamsOn p).filter fun s => m.cstate s == cRUNNING

/-- STREAMING, SQUALL and LINKED follow the streams of the port (R78), those that it forwards among them (R379). -/
def Mach.portFollow (m : Mach) (p : Nat) : Mach :=
  let st := m.rd E.PORT_STATE p
  let run := m.runningOn p
  let sq := (run.any fun s => (m.strm s).rx.squall) || m.fwds.any fun x => x.2.state == 2 && x.2.port == p && x.2.rx.squall
  if st = 5 ∨ st = 6 then
    m.wr E.PORT_STATE p (if run.isEmpty then 4 else if sq then 6 else 5)
  else m

/-- A stream leaves RUNNING: its open stripe closes as incomplete, its area frame is cut off, and its packets are no longer accepted
(R101 check 4, R111, R114). It leaves squall at once and publishes no exit: DESIGN CHOICE (notes/assumptions/58.md). -/
def Mach.leaveRunning (m : Mach) (s : Nat) (t : TW64) : Mach :=
  let m := (m.closeIncomplete s t).endFrame s
  let x := m.strm s
  let m := m.setStrm s { x with enabled := false, waitSlot := false, far := none, frameNo := none,
                                rx := { x.rx with asm := none, squall := false, absent := false } }
  (m.showPolice s).freeTables.peakAll

/-- A RUNNING contract becomes SUSPENDED (R110, R114). -/
def Mach.suspend (m : Mach) (s reason : Nat) (t : TW64) : Mach :=
  let m := m.leaveRunning s t
  (m.wr E.CONTRACT_STATE s cSUSPENDED).wr E.SUSPEND_REASON s reason

/-- The port is lost or FAULTED: every RUNNING contract on it is SUSPENDED with reason 1 (R78, R110). -/
def Mach.suspendPort (m : Mach) (p : Nat) : Mach := m.each (m.runningOn p) fun s m => m.suspend s 1 m.now

/-- The port goes to FAULTED (R78). -/
def Mach.portFault (m : Mach) (p reason : Nat) : Mach :=
  ((m.wr E.PORT_STATE p 7).wr E.PORT_FAULT p reason).suspendPort p

/-! ### Forward entries fed by a port (R379, R383) -/

/-- Committed forward entries of a port: entry number and entry. -/
def Mach.fwdsOf (m : Mach) (p : Nat) : List (Nat × Fwd) := m.fwds.filter fun x => x.2.state == 2 && x.2.port == p

/-- A SET_NOTICE on every flow that the port feeds (R383). -/
def Mach.setNotice (m : Mach) (p kind tag : Nat) (payload : Nat × Nat → Bytes) : Mach :=
  (m.fwdsOf p).foldl (fun m x =>
    (m.sendTo x.2.node 2 0x31 (kind + tag * 65536) 0 (payload (x.2.rx.frame, x.2.rx.line)) x.2.flow).2) m

/-! ### Register transactions -/

/-- Charge of a transaction's response, in 1/1,000 byte (R84). -/
def RegTxn.charge (t : RegTxn) : Nat := 1000 * (if t.kind = 1 then 49 + 4 * t.count else 49)

/-- The request's packet (R80). -/
def RegTxn.packet (t : RegTxn) : DownPkt :=
  let w0 := t.tid + (if t.kind = 3 then 2 ^ 16 else 0) + t.count * 2 ^ 24
  { pri := 4, dt := if t.kind = 1 then 0x3A else 0x39, retry := decide (0 < t.resends), tag := t.tag,
    payload := leBytes 4 w0 ++ leBytes 4 t.addr ++ (if t.kind = 1 then [] else t.data) }

/-- Bring the register bucket up to now (R84): 1,000 bytes per ms, at most 1,000. -/
def Port.refillReg (x : Port) (ns : Nat) : Port :=
  { x with regFill := Nat.min 1000000 (x.regFill + (ns - x.regT)), regT := ns }

/-- REG_STATUS at the end of a transaction (R82, R85, R88): the Bench's own write shows its failures alone there
(notes/assumptions/51.md). -/
def Mach.regStatus (m : Mach) (p : Nat) (t : RegTxn) (v : Nat) : Mach := if t.kind < 4 ∨ v ≠ 2 then m.wr E.REG_STATUS p v else m

/-- Send the outstanding request once the bucket holds its charge (R84). -/
def Mach.regSend (m : Mach) (p : Nat) : Mach :=
  let x := (m.port p).refillReg m.ns
  match x.reg with
  | none => m
  | some t =>
    if t.phase = 1 ∧ t.charge ≤ x.regFill then
      (m.setPort p { x with regFill := x.regFill - t.charge, reg := some { t with phase := 2 } }).queueDown p t.packet
    else m.setPort p x

/-- Does every stream of the port have a free set slot (R149)? -/
def Mach.slotsFree (m : Mach) (p : Nat) : Bool := (m.streamsOn p).all fun s => decide ((m.strm s).slots.length < 8)

/-- The next tag of a port (R86). -/
def nextTag (t : Nat) : Nat := if t + 1 < 65536 then t + 1 else 1

/-- The transaction starts: a settings write takes its tag and creates its slots (R86, R149), and every
transaction takes the port's next TID (R81). -/
def Mach.regOpen (m : Mach) (p : Nat) (t : RegTxn) : Mach :=
  let x := m.port p
  let tag := if t.kind = 3 then nextTag (m.rd E.LAST_TAG p) else 0
  let m := m.setPort p { x with nextTid := (x.nextTid + 1) % 65536,
                                reg := some { t with tid := x.nextTid, tag := tag, phase := 1 } }
  let m := if t.kind < 4 then m.wr E.REG_STATUS p 1 else m
  let m := if t.kind = 3 then
      (m.wr E.LAST_TAG p tag).each (m.streamsOn p) fun s m => m.addSlot s { tag := tag, write := true }
    else m
  m.regSend p

/-- Begin transactions from the queue while none is outstanding (R81, R85). -/
def Mach.regPump : Nat → Nat → Mach → Mach
  | 0, _, m => m
  | fuel + 1, p, m =>
    let x := m.port p
    match x.reg, x.regQ with
    | none, t :: q =>
      let m := m.setPort p { x with regQ := q }
      if m.linked p = false ∨ m.rd E.CAM_IDENTIFIED p = 0 then
        Mach.regPump fuel p ((m.regStatus p t 4).inc E.REG_FAILURES p)
      else if t.kind ≠ 1 ∧ m.auth = false then
        Mach.regPump fuel p (if t.kind < 4 then m.wr E.REG_STATUS p 5 else m)
      else if t.kind = 3 ∧ m.slotsFree p = false then m.setPort p { m.port p with reg := some { t with phase := 0 } }
      else m.regOpen p t
    | _, _ => m

/-- Ask for a transaction. -/
def Mach.regAsk (m : Mach) (p : Nat) (t : RegTxn) : Mach :=
  let m := m.setPort p { m.port p with regQ := (m.port p).regQ ++ [t] }
  Mach.regPump ((m.port p).regQ.length + 1) p m

/-- The outstanding transaction has ended, and a request or resend of it that waits for the link with it (R81); the next begins. -/
def Mach.regNext (m : Mach) (p : Nat) : Mach :=
  let x := m.port p
  let m := m.setPort p { x with reg := none, tx := x.tx.filter fun (k : DownPkt) => k.dt != 0x39 && k.dt != 0x3A }
  Mach.regPump ((m.port p).regQ.length + 1) p m

/-- A write of VC_ENABLE by the Bench (R78, R111): the bits of the RUNNING streams of the port, for stream `s`. -/
def Mach.writeVc (m : Mach) (p s : Nat) : Mach :=
  let bits := (m.runningOn p).foldl (fun r k => putBit r (Terms.vc (m.force k)) true) 0
  m.regAsk p { kind := 4, addr := 0x40, count := 1, data := leBytes 4 bits, stream := s }

/-- The slots of a settings write, of every stream of the port. -/
def Mach.onSlots (m : Mach) (p tag : Nat) (f : Nat → SetSlot → Option SetSlot) : Mach :=
  m.each (m.streamsOn p) fun s m =>
    let x := m.strm s
    let last := x.writeSlot tag
    m.setStrm s (x.onSlots fun k => if some k.seq = last then f s k else some k)

/-- A settings write failed at stream `s` (R152): its slot begins at the first line not received at its first sending. -/
def Mach.bindFailed (m : Mach) (s tag : Nat) : Mach :=
  let x := m.strm s
  if m.echoes x.cur then m
  else
    let last := x.writeSlot tag
    m.setStrm s (x.onSlots fun k =>
      some (if some k.seq = last then { k with fromRow := k.pend.or k.fromRow, pend := none, uncertain := true } else k))

/-- What a failed settings write leaves at its camera is not known (R82, R152). -/
def Mach.settingsLost (m : Mach) (p : Nat) (t : RegTxn) : Mach :=
  let echo := bitOf (leAt (m.rdB E.CAM_IDENTITY p) 20 4) 8
  let m := if echo then m else m.wr E.TAG_UNCERTAIN p 1
  let m := m.each (m.streamsOn p) fun s m => m.bindFailed s t.tag
  m.setNotice p 3 t.tag fun _ => zeros 16

/-- The port's request has not left: it waits for the bucket or for the link. -/
def Port.regUnsent (x : Port) (t : RegTxn) : Bool :=
  t.resends == 0 && (t.phase != 2 || x.tx.any fun (k : DownPkt) => k.dt == 0x39)

/-- A REG_WRITE may not be sent without authority (R85): its transaction ends with REG_STATUS 5. A settings write that has not left frees its
slots, and the outcome of one that has is unknown (notes/assumptions/51.md). -/
def Mach.regBarred (m : Mach) (p : Nat) (t : RegTxn) : Mach :=
  let unsent := (m.port p).regUnsent t
  let m := m.setPort p { m.port p with tx := (m.port p).tx.filter fun (k : DownPkt) => k.dt != 0x39 }
  let m := m.regStatus p t 5
  let m := if t.kind ≠ 3 then m else if unsent then m.onSlots p t.tag fun _ _ => none else m.settingsLost p t
  m.regNext p

/-- The outstanding request goes on: sent as the bucket allows, and a write with authority alone (R84, R85). -/
def Mach.regGo (m : Mach) (p : Nat) : Mach :=
  match (m.port p).reg with
  | none => m
  | some t => if t.kind ≠ 1 ∧ t.phase = 1 ∧ m.auth = false then m.regBarred p t else m.regSend p

/-- The request of a settings write is first sent: from-rows of echoing cameras, and the lines not yet received
(R149, R152, R383). -/
def Mach.firstSent (m : Mach) (p tag : Nat) : Mach :=
  let m := m.onSlots p tag fun s k =>
    let x := m.strm s
    if m.echoes x.cur then
      some (if x.rx.started then { k with fromRow := some x.nextLine } else { k with atNext := true })
    else some { k with pend := some x.nextLine }
  m.setNotice p 1 tag fun r => leBytes 4 r.1 ++ leBytes 4 r.2 ++ zeros 8

/-! ### Triggers (R89, R92) -/

/-- Send a trigger on a port: `mg` is the sequencer that made it, or 0xFFFF for none. `w0` holds word 0 without TID. -/
def Mach.trigger (m : Mach) (p mg w0 : Nat) (rest : Bytes) (immediate : Bool) : Mach :=
  let x := m.port p
  let tid := x.nextTrig
  let pay := leBytes 4 (w0 + tid) ++ rest
  let m := m.setPort p { x with
    nextTrig := (tid + 1) % 65536
    trigs := x.trigs ++ [{ tid := tid, mg := mg, payload := pay, immediate := immediate }] }
  m.queueDown p { pri := if immediate then 1 else 2, dt := 0x3B, payload := pay }

/-! ### The downstream link becomes free (R93) -/

/-- The first packet of the least priority number. -/
def pickDown (l : List DownPkt) : Option DownPkt :=
  l.foldl (fun r k => match r with
    | none => some k
    | some q => if k.pri < q.pri then some k else some q) none

/-- Remove the first packet equal to `k`. -/
def dropDown (k : DownPkt) : List DownPkt → List DownPkt
  | [] => []
  | x :: t => if x = k then t else x :: dropDown k t

/-- A packet leaves a port: into the transmit coder's blocks (R63). -/
def Mach.sendPacket (m : Mach) (p : Nat) (b : Bytes) : Mach := (m.emit (.down p b)).putPacket p b

/-- Send a packet at instant `t`. -/
def Mach.sendDown (m : Mach) (p : Nat) (k : DownPkt) (t : TW64) : Mach :=
  let x := m.port p
  let m := m.setPort p { x with tx := dropDown k x.tx }
  if k.dt = 0x3C then
    match x.beacon with
    | none => m
    | some b =>
      let d := if b.delayValid then m.rd E.LINK_DELAY p else 0
      let pay := leBytes 4 (b.bid + bn b.delayValid * 65536) ++ leBytes 8 t.toNat ++ leBytes 4 d
      (m.setPort p { m.port p with beacon := some { b with t1 := t, sent := true, delay := d } }).sendPacket p
        (tasinPacket 0x3C m.auth false 0 pay)
  else
    let m := m.sendPacket p (tasinPacket k.dt m.auth k.retry k.tag k.payload)
    if k.dt = 0x3B then
      m.setPort p { m.port p with
        trigs := (m.port p).trigs.map fun (g : TrigPend) =>
          if leAt g.payload 0 2 = leAt k.payload 0 2 then { g with sent := true } else g }
    else if k.dt = 0x39 ∧ k.retry = false ∧ bitOf (leAt k.payload 0 4) 16 then m.firstSent p k.tag
    else m

/-- A trigger that may not be sent for want of authority is outstanding no more; a timed one is held until authority is gained, and
goes then while its FIRE lies ahead (R262). -/
def Mach.holdTrig (m : Mach) (p : Nat) (g : TrigPend) : Mach :=
  let m := m.setPort p { m.port p with trigs := (m.port p).trigs.filter fun (k : TrigPend) => k.tid != g.tid }
  if g.immediate then m
  else { m with held := m.held ++ [{ mg := g.mg, port := p, w0 := leAt g.payload 0 4 / 2 ^ 16 * 2 ^ 16, rest := g.payload.drop 4,
                                     fire := BitVec.ofNat 64 (leAt g.payload 4 8) }] }

/-- Authority is lost (R262): no trigger waiting on the port leaves. One that has left before stays outstanding. -/
def Mach.barTriggers (m : Mach) (p : Nat) : Mach :=
  let x := m.port p
  let waits := fun (g : TrigPend) => x.tx.any fun (k : DownPkt) => k.dt == 0x3B && leAt k.payload 0 2 == g.tid
  let m := m.setPort p { x with
    tx := x.tx.filter fun (k : DownPkt) => k.dt != 0x3B
    trigs := x.trigs.map fun (g : TrigPend) => if waits g ∧ 0 < g.resends then { g with sent := true } else g }
  (x.trigs.filter fun (g : TrigPend) => waits g && g.resends == 0).foldl (fun m g => m.holdTrig p g) m

/-- DOWNSTREAM_PACKET_SEND (R93): until the far end has been heard, LINK_OFFER alone may go (R74); triggers go with authority (R262). -/
def execDownstreamPacketSend (p : Nat) (t : TW64) (s : State) : Host.Outcome State Fault Refusal :=
  s.onMach (p < 96) fun m =>
    match pickDown ((m.port p).tx.filter fun (k : DownPkt) => ((m.port p).heard || k.dt == 0x38) && (m.auth || k.dt != 0x3B)) with
    | none => m
    | some k =>
      m.when (m.talking p) fun m =>
        match (m.port p).reg with
        | some r => if k.dt = 0x39 ∧ m.auth = false then m.regBarred p r else m.sendDown p k t
        | none => m.sendDown p k t

end Sys2Proof.Machine
end

