-- ==== Sys2Proof/Machine/Rows.lean ====
section
/-! DEFINITION. The rows of a stripe with its halo and edges (R135 to R139), the binding of its rows to set slots (R149 to R153) and its condition
word (R157). -/

namespace Sys2Proof.Machine

/-! ### Rows of a stripe -/

/-- First row behind the stripe. -/
def Stripe.behind (p : Stripe) : Nat := p.row0 + p.rows

/-- The row at which the stripe's sequence ends, where that is known (R136). -/
def Stripe.bottom (p : Stripe) : Option Nat :=
  match p.endRow with
  | some r => some r
  | none => if Terms.area p.terms then some (Terms.frameRows p.terms) else none

/-- Rows from here on are supplied by the edge rule (R137, R139). -/
def Stripe.limit (p : Stripe) : Nat :=
  if p.short then p.haveRow else match p.bottom with
    | some r => r
    | none => p.behind + 64

/-- The N of R137, counted from row 0: the first row behind the edge. -/
def Stripe.edgeRow (p : Stripe) : Nat := if p.short then p.behind else p.limit

/-- The rows that the stripe reads: its own and the halo rows that exist (R136). -/
def Stripe.readRows (p : Stripe) : List Nat :=
  let lo := Nat.max p.first (p.row0 - 6)
  let hi := Nat.min (p.behind + 6) p.limit
  (List.range (hi - lo)).map (lo + ·)

/-- Head count of the line of a row. -/
def Stripe.lineNo (p : Stripe) (row : Nat) : Int :=
  (p.n0 : Int) + Int.fdiv ((row : Int) - p.row0) (Nat.max 1 (Terms.rowsPerLine p.terms) : Nat)

/-- The line of a row among some lines. -/
def Stripe.lineOf (p : Stripe) (l : List LineInfo) (row : Nat) : Option LineInfo :=
  let n := p.lineNo row
  l.find? fun i => (i.n : Int) == n

/-- Is the row its stripe's own? -/
def Stripe.owns (p : Stripe) (row : Nat) : Bool := decide (p.row0 ≤ row ∧ row < p.behind)

/-- Rows behind the last output row (R138). -/
def Stripe.outEnd (p : Stripe) : Nat :=
  if Terms.area p.terms then
    let n := Terms.frameRows p.terms
    let ph := Nat.max 1 p.prof.ph
    Nat.max p.row0 (Nat.min p.behind (n - n % ph))
  else p.behind

/-- The stripe ends at a bottom edge (R136). -/
def Stripe.atBottom (p : Stripe) : Bool :=
  match p.bottom with
  | some r => decide (r ≤ p.behind)
  | none => false

/-! ### Binding (R150 to R153) -/

/-- R153 over the rows in order: at most two slots. Answers the slot of each row and whether it was deferred. -/
def twoSlots : List (Option Nat) → Option Nat → Option Nat → List (Option Nat × Bool)
  | [], _, _ => []
  | none :: t, a, b => (none, false) :: twoSlots t a b
  | some k :: t, none, b => (some k, false) :: twoSlots t (some k) b
  | some k :: t, some a, none =>
    if k = a then (some k, false) :: twoSlots t (some a) none else (some k, false) :: twoSlots t (some a) (some k)
  | some k :: t, some a, some b =>
    if k = a ∨ k = b then (some k, false) :: twoSlots t (some a) (some b) else (some b, true) :: twoSlots t (some a) (some b)

/-- The slots that the rows and halo rows of a stripe bind as the set table stands (R149, R153). -/
def Stream.boundSlots (x : Stream) (echo : Bool) (p : Stripe) : List Nat :=
  let raw := p.readRows.map fun r => match p.lineOf x.lines r with
    | some i => (x.slotOf echo (Terms.rxCfg p.terms) i).1
    | none => none
  (twoSlots raw none none).filterMap Prod.fst

/-- A row lies behind a failed settings write and before the next that succeeded (R152). -/
def Stream.uncertainAt (x : Stream) (c : RxCfg) (row : Nat × Nat) : Bool :=
  (x.ghosts ++ x.slots).any fun u =>
    u.uncertain && (match u.fromRow with | some r => c.notAfter r row | none => false) &&
      !(x.slots.any fun v => v.sure && decide (u.seq < v.seq) &&
          (match v.fromRow with | some r => c.notAfter r row | none => false))

/-- What binding gives a stripe. -/
structure Bound where
  bind : List Nat
  cond : Nat
  split : Bool
  deferred : Nat
  unknown : Nat
  provisional : Bool
  /-- Greatest (FRAME, LINE) of its own rows. -/
  last : Option (Nat × Nat)

/-- Bind the rows of a stripe at its start. -/
def Stream.bindStripe (x : Stream) (echo : Bool) (p : Stripe) (infos : List LineInfo) : Bound :=
  let t : Terms := p.terms
  let c := t.rxCfg
  let rows := p.readRows.map fun r => (r, p.lineOf infos r)
  let raw := rows.map fun r => match r.2 with
    | some i => x.slotOf echo c i
    | none => (none, false)
  let two := twoSlots (raw.map Prod.fst) none none
  let all := rows.zip (raw.zip two)
  let own := all.filter fun r => p.owns r.1.1
  let ownSlots := (own.filterMap fun r => r.2.2.1).foldl (fun l k => if l.contains k then l else l ++ [k]) []
  let keys := all.filterMap fun r => r.1.2.map fun i => (i.frame, i.line)
  let pend := (x.ghosts ++ x.slots).filterMap fun k => k.pend
  let prov := !echo && keys.any fun k => pend.any fun q => c.notAfter q k
  let unsure := keys.any fun k => x.uncertainAt c k
  let split := decide (1 < ownSlots.length)
  let deferAny := all.any fun r => r.2.2.2
  let unk := (own.filter fun r => r.2.1.2).length
  let damaged := own.any fun r => match r.1.2 with | some i => i.damaged | none => false
  let missing := rows.any fun r => match r.2 with | some i => i.missing || i.refused | none => true
  let trim := Terms.area t && decide (Terms.frameRows t % (Nat.max 1 p.prof.ph) ≠ 0) && decide (Terms.frameRows t ≤ p.behind)
  let top := decide (p.row0 < p.first + 6)
  let bot := p.short || (match p.bottom with | some r => decide (r < p.behind + 6) | none => false)
  { bind := all.map fun r => r.2.2.1.getD 0
    split := split
    deferred := (own.filter fun r => r.2.2.2).length
    unknown := unk
    provisional := prov
    last := (own.getLast?.bind fun r => r.1.2).map fun i => (i.frame, i.line)
    cond := bn p.incomplete + bn missing * 2 + bn damaged * 4 + bn p.short * 8 + bn split * 16 + bn deferAny * 32 +
      bn (decide (0 < unk)) * 64 + bn prov * 128 + bn unsure * 256 + bn top * 2048 + bn bot * 4096 + bn trim * 16384 }

end Sys2Proof.Machine
end

