-- ==== Sys2Proof/Machine/Contracts.lean ====
section
/-! DEFINITION. Contracts: commit, start, stop, release and discard (R110 to R114), verdicts (R112, R120 to
R123), changes and their retirement (R128 to R130), pair verdicts (R132), resumption and re-forecasts (R131). -/

namespace Sys2Proof.Machine

/-! ### Verdict queue -/

/-- A contract or change of the stream is in FORECAST (R112). -/
def Mach.inForecast (m : Mach) (s : Nat) : Bool := m.cstate s == cFORECAST || m.rd E.CHANGE_STATE s == 1

/-- The live sets that a verdict counts beside the new terms (R129). -/
def Mach.setsBefore (m : Mach) (v : Verdict) : List Live :=
  let x := m.strm v.stream
  if v.change && x.admitted then (if x.applyAt then x.live.dropLast else x.live) else []

/-- Does the stream hold an admission that a verdict on it must not count twice? -/
def Mach.othersOf (m : Mach) (s : Nat) : List Counted := m.admittedBut s

/-- The checks of R122 that come before the route of a remote stream. -/
def Mach.beforeRoute (m : Mach) (v : Verdict) : Option Fail :=
  (checkInUse (m.othersOf v.stream) v.terms).or <| (m.checkGeometry v.stream v.terms).or <|
  (m.checkChannels v.stream v.terms).or (m.checkRoute v.terms)

/-- The route of a remote stream is to be reserved before the verdict (R122, R380). -/
def Mach.wantsRoute (m : Mach) (v : Verdict) : Bool := Terms.remote v.terms && v.route == 0 && m.beforeRoute v == none

/-- The verdict at the front begins, a commit's with the tick behind it: for a remote stream whose earlier checks pass, the route is reserved
(R380 step 1). -/
def Mach.beginVerdict (m : Mach) : Mach :=
  match m.verdicts with
  | [] => m
  | v :: vs =>
    let t : Terms := v.terms
    let src := m.rd E.POS_SRC v.stream
    if (v.again ∨ v.at_ ≠ m.ltc.toNat) ∧ m.wantsRoute v then
      { (m.sendTo t.sourceNode 3 0x40 v.num t.d (t.bytes ++ leBytes 1 src)).2 with verdicts := { v with route := 1, pos := src } :: vs }
    else m

/-- A waiting verdict gives way to a commit of the same tick with a lower stream number (R112). -/
def Verdict.yields (v w : Verdict) : Bool :=
  v.at_ == w.at_ && !v.again && !w.again && v.own == none && v.route == 0 && decide (w.stream < v.stream)

/-- Queue a verdict under the next number: in the order of arrival, and commits of one Bench cycle, which is a tick here, in ascending stream number
(R112, notes/assumptions/59.md). -/
def Mach.pushVerdict (m : Mach) (v : Verdict) : Mach :=
  let w := { v with num := m.verdictNo + 1, at_ := m.ltc.toNat }
  let k := m.verdicts.findIdx fun u => u.yields w
  { m with verdicts := m.verdicts.take k ++ w :: m.verdicts.drop k, verdictNo := (m.verdictNo + 1) % (2 ^ 32 - 1) }.beginVerdict

/-- Ask for a verdict (R112). -/
def Mach.askVerdict (m : Mach) (s : Nat) (change : Bool) : Mach := m.pushVerdict { stream := s, change := change, terms := m.staged s }

/-- Ask for the route of a remote contract anew (R131): the TC2 reservation of R120 step 3 takes the frames of R380
(notes/assumptions/52.md). -/
def Mach.askRoute (m : Mach) (s : Nat) : Mach :=
  if m.verdicts.any fun v => v.stream == s && v.again then m
  else m.pushVerdict { stream := s, change := false, again := true, terms := m.force s }

/-! ### Resources of a contract -/

/-- Free what a released contract still holds once its last stripe has finished (R111, R145): the contexts of its live sets, its set slots, and its
ring unless a contract admitted since has taken it over. -/
def Mach.freeContext (m : Mach) (s : Nat) : Mach :=
  let x := m.strm s
  match x.left with
  | none => m
  | some (a, q) =>
    if (x.stripes ++ x.stripe.toList).any fun p => decide (p.apply ≤ a) then m
    else
      let x := { x with left := none, ctxs := x.ctxs.filter fun (c : PlanerCtx) => decide (a < c.apply),
                        slots := x.slots.filter fun (k : SetSlot) => decide (q ≤ k.seq),
                        ghosts := x.ghosts.filter fun (k : SetSlot) => decide (q ≤ k.seq) }
      let x := { x with trefPool := x.trefPool && x.ctxs.any fun c => c.trefNew.isSome }
      let x := if m.cstate s = cDRAFT then { x with ringBase := 0, ringSize := 0, ringQ := 0, ringStart := x.head, lines := [] } else x
      (m.setStrm s x).showPool.showContexts

/-- FLOW of terms (R368): 16 × source port + VC. -/
def Terms.flow (t : Terms) : Nat := 16 * t.port + t.vc

/-- D that the flows hold on an output port, each with its greatest (R129). -/
def Mach.heldOn (m : Mach) (p : Nat) (ok : Hold → Bool) : Nat :=
  sumOf (((m.holds.filter fun h => h.outPort == p && ok h).map fun h => (h.node, h.flow, h.to_)).eraseDups.map fun k =>
    maxOf ((m.holds.filter fun h => h.outPort == p && ok h && (h.node, h.flow, h.to_) == k).map fun h => h.d))

/-- TC2_RESERVED follows the committed holds of every output port (R389). -/
def Mach.showReserved (m : Mach) : Mach :=
  m.each (List.range 96) fun p m =>
    m.wr E.TC2_RESERVED p (m.heldOn p fun h => h.committed)

/-- A RELEASE acts on this node's holds of a flow (R380): it commits the tentative ones of a verdict in place of earlier committed ones, whose D
goes on counting (R129) until the same commit comes again; or it frees them; verdict 0 frees every hold of the flow. -/
def Mach.settleHolds (m : Mach) (node flow to_ num commit : Nat) : Mach :=
  let mine := fun (h : Hold) => h.node == node && h.flow == flow && h.to_ == to_
  let l := if num = 0 then m.holds.filter fun h => !mine h
    else if commit = 1 then
      (m.holds.filter fun h => !(mine h && h.committed && h.verdict != num && m.holds.any fun g => mine g && g.verdict == num && g.outPort == h.outPort)).map
        fun (h : Hold) =>
          if mine h = false ∨ h.verdict ≠ num then h
          else if h.committed then { h with d := h.want }
          else { h with committed := true, fill := 2 * h.line * 10 ^ 11, fillAt := m.ns,
                        d := maxOf (h.d :: (m.holds.filter fun g => mine g && g.committed && g.outPort == h.outPort).map fun g => g.d) }
    else m.holds.filter fun h => !(mine h && h.verdict == num && !h.committed)
  { m with holds := l }.showReserved

/-- Tell the source node of a remote stream to commit (1) or free (0) its holds (R380), and settle this node's own. A
verdict number of 0 stands for the release of the contract (notes/assumptions/17.md). -/
def Mach.tellHolds (m : Mach) (t : Terms) (num commit : Nat) : Mach :=
  if t.remote then (m.settleHolds t.sourceNode t.flow m.fabAddr num commit).sendTo t.sourceNode 3 0x43 num commit t.bytes |>.2 else m

/-! ### Retirement (R130) -/

/-- A stripe not yet delivered uses or will use a set of terms (R129). -/
def Mach.usesLive (m : Mach) (s : Nat) (l : Live) : Bool :=
  let x := m.strm s
  (x.stripes ++ x.stripe.toList).any (fun p => p.apply == l.apply) ||
  x.delivs.any (fun d => d.apply == l.apply && !d.posted) ||
  (m.cstate s == cRUNNING && x.applyAt && l.apply == x.applies && Terms.area x.cur && !x.newSeq && decide (0 < x.sequ))

/-- The flow of terms and the node that sends it. -/
def Terms.route (t : Terms) : Nat × Nat := (t.sourceNode, t.flow)

/-- The reservations of live sets that go: a flow that none of the kept sets uses is freed, and one that a kept set uses is reserved for that set
alone (R111, R129, notes/assumptions/33.md). -/
def Mach.freeRoutes (m : Mach) (gone keep : List Live) : Mach :=
  gone.foldl (fun m g =>
    match keep.getLast? with
    | none => m.tellHolds g.terms 0 0
    | some k =>
      if keep.all fun l => Terms.route l.terms != Terms.route g.terms then m.tellHolds g.terms 0 0
      else if keep.length = 1 then m.tellHolds k.terms k.num 1
      else m) m

/-- Every live set but the newest that no undelivered stripe uses retires, and the results are recomputed without
it (R130). -/
def Mach.retire (m : Mach) (s : Nat) : Mach :=
  let x := m.strm s
  let used := m.usesLive s
  let keep := (x.live.dropLast.filter used) ++ x.live.getLast?.toList
  let gone := x.live.dropLast.filter fun l => !used l
  let m := if gone.isEmpty then m else ((m.setStrm s { x with live := keep }).freeRoutes gone keep).relax
  if keep.length ≤ 1 ∧ m.rd E.CHANGE_STATE s = 3 then m.wr E.CHANGE_STATE s 0 else m

/-- Record a refusal's reason (R122). -/
def Mach.refused (m : Mach) (s : Nat) (f : Fail) : Mach :=
  ((m.wr E.REJECT_REASON s f.reason).wr E.REJECT_DETAIL s f.detail).wr E.REJECT_BOUND s (if f.reason = 0x22 then f.bound else 0)

/-- The apply point of a change as it is known at the verdict (R128): the stripe or frame that opens after the present one, or that opens next;
0 while no line has told where the stream stands. -/
def Stream.applyLine (x : Stream) : Nat :=
  match x.stripe with
  | some p =>
    let pt : Terms := p.terms
    if pt.area then (p.frame + 1) % 2 ^ 32 * 2 ^ 32 else p.frame * 2 ^ 32 + p.line + pt.height p.row0 / pt.rowsPerLine
  | none =>
    if x.rx.started = false then 0
    else if Terms.area x.cur then (if x.rx.line = 0 then x.rx.frame else (x.rx.frame + 1) % 2 ^ 32) * 2 ^ 32
    else x.rx.frame * 2 ^ 32 + x.rx.line

/-- POS_SRC as the source node of terms knows it once a commit has made their entry (R217, R380): an entry of the same flow keeps its own. -/
def Stream.posTold (x : Stream) (t : Terms) (pos : Nat) : Nat :=
  if x.live.any fun l => Terms.route l.terms == Terms.route t then x.posSent else pos

/-- The admission of a contract or change with its planer (R108, R110, R123, R128, R129, R170). `bound` is the
partner's bound in ns, 0 outside a pair. -/
def Mach.admitTerms (m : Mach) (v : Verdict) (pl bound : Nat) : Mach :=
  let s := v.stream
  let t : Terms := v.terms
  let x := m.strm s
  let old := m.force s
  let sets := m.setsBefore v ++ [⟨t, pl, x.applies + 1, v.num⟩]
  let x := { x with posSent := x.posTold t v.pos }
  let fresh := v.change = false
  let m := m.inc E.CONTRACT_EPOCH s
  let m := if fresh ∨ Terms.profile old ≠ t.profile then
    m.wrB E.FRAME_PARAMS s (m.rdB E.FRAME_DEFAULTS t.profile) else m
  let m :=
    if fresh then
      let m := m.setStrm s { x with admitted := true, force := v.terms, live := sets, planer := pl, cur := v.terms, curPlaner := pl,
                                    applyAt := false, everRan := false, wasRunning := false, applies := x.applies + 1, peerBound := bound }
      let m := { m with admits := m.admits + 1 }
      ((m.wr E.ADMIT_EPOCH s m.admits).wr E.CONTRACT_STATE s cADMITTED).allocRing s t
    else
      let m := m.setStrm s { x with admitted := true, force := v.terms, live := sets, planer := pl, applyAt := true, peerBound := bound }
      let m := m.wr E.APPLY_LINE s (x.applyLine % 2 ^ 64)
      let m := m.freeRoutes (x.live.filter fun l => sets.all fun k => k.num != l.num) sets
      m.wr E.CHANGE_STATE s 3
  let m := m.tellHolds t v.num 1
  m.republish.retire s

/-- The verdict at the front refuses. -/
def Mach.refuse (m : Mach) (v : Verdict) (f : Fail) : Mach :=
  let m := m.refused v.stream f
  let m := if v.change then m.wr E.CHANGE_STATE v.stream 2 else m.wr E.CONTRACT_STATE v.stream cREJECTED
  if 2 ≤ v.route then m.tellHolds v.terms v.num 0 else m

/-- The Forecast's own computation for a verdict (R120). -/
def Mach.compute (m : Mach) (v : Verdict) : Sum Fail (Nat × List Res) :=
  m.forecast (m.othersOf v.stream) (m.setsBefore v) v.stream v.terms v.routeWhy (m.candidates v.terms)

/-! ### Stop and release -/

/-- Stop (R111). -/
def Mach.stopNow (m : Mach) (s : Nat) : Mach :=
  let t := m.force s
  let running := m.cstate s == cRUNNING
  let m := if running then m.leaveRunning s m.now else m
  let m := m.setStrm s { m.strm s with waitSlot := false }
  let m := (m.wr E.CONTRACT_STATE s cADMITTED).wr E.SUSPEND_REASON s 0
  let m := if running ∧ Terms.remote t = false then (m.writeVc (Terms.port t) s).portFollow (Terms.port t) else m
  m.retire s

/-- Release (R111, R112): a running stream stops, and every resource is freed. -/
def Mach.releaseNow (m : Mach) (s : Nat) : Mach :=
  let t := m.force s
  let m := if m.cstate s = cRUNNING then m.stopNow s else m
  let x := m.strm s
  let live := x.live
  let m := (m.verdicts.filter fun v => v.stream == s && decide (1 ≤ v.route)).foldl (fun m v => m.tellHolds v.terms v.num 0) m
  let m := { m with verdicts := m.verdicts.filter fun v => v.stream != s }
  let m := m.setStrm s { m.strm s with admitted := false, force := [], live := [], applyAt := false, waitSlot := false,
                                       paramsWait := false, everRan := false, peerBound := 0,
                                       left := some (x.applies, x.nextSlot) }
  let m := ((m.wr E.CONTRACT_STATE s cDRAFT).wr E.SUSPEND_REASON s 0).wr E.CHANGE_STATE s 0
  let m := (m.freeRoutes live []).tellHolds t 0 0
  m.relax.freeContext s

/-- The verdict at the front is one on the stream. -/
def Mach.frontIs (m : Mach) (s : Nat) : Bool := match m.verdicts with | v :: _ => v.stream == s | [] => false

/-- A stop or release may act in the present state (R110). -/
def Mach.mayEnd (m : Mach) (s c : Nat) : Bool :=
  let st := m.cstate s
  if c = 3 then st == cRUNNING || (st == cSUSPENDED && (m.rd E.SUSPEND_REASON s == 1 || m.rd E.SUSPEND_REASON s == 3))
  else st == cADMITTED || st == cRUNNING || st == cSUSPENDED

/-- Stops and releases held back by a verdict take effect (R112), where the state then has the transition (R110). -/
def Mach.runDeferred (m : Mach) : Mach :=
  let d := m.deferred
  d.foldl (fun (m : Mach) x => if m.mayEnd x.1 x.2 then (if x.2 = 3 then m.stopNow x.1 else m.releaseNow x.1) else m) { m with deferred := [] }

/-- The verdict at the front is given (R112, R134): it leaves the queue, and the next begins. -/
def Mach.conclude (m : Mach) (v : Verdict) (r : Sum Fail (Nat × Nat)) : Mach :=
  let m := { m with verdicts := m.verdicts.drop 1 }
  let m := m.inc E.VERDICTS 0
  let m := match r with
    | .inl f => m.refuse v f
    | .inr (pl, b) => m.admitTerms v pl b
  m.runDeferred.beginVerdict

/-! ### Start (R110, R113, R149) -/

/-- The start checks on the camera (R113). A remote stream's camera is its source node's (notes/assumptions/20.md). -/
def Mach.cameraFits (m : Mach) (t : Terms) : Bool :=
  if t.remote then true
  else
    let id := m.rdB E.CAM_IDENTITY t.port
    m.rd E.CAM_IDENTIFIED t.port == 1 && decide (t.vc ≤ bitsOf (leAt id 20 4) 15 12) &&
      decide (t.lineRateMax ≤ leAt id 24 4) && decide (cdiv t.lb t.packetsPerLine ≤ leAt id 28 2)

/-- PORT is at LINKED or above (R113). -/
def Mach.portUp (m : Mach) (t : Terms) : Bool := t.remote || m.linked t.port

/-- Does a stripe not yet finished bind a slot? A stripe not yet started binds what its rows and halo rows will (R136, R153). -/
def Stream.bindsSlot (x : Stream) (echo : Bool) (seq : Nat) : Bool :=
  (x.stripes ++ x.stripe.toList).any fun p =>
    if p.started then p.bind.contains seq else (x.boundSlots echo p).contains seq

/-- Drop the slot of least sequence number that no unfinished stripe binds, when all 8 are occupied (R149). -/
def Stream.makeRoom (x : Stream) (echo : Bool) : Option Stream :=
  if x.slots.length < 8 then some x
  else
    match x.slots.find? fun k => !x.bindsSlot echo k.seq with
    | some k => some (x.dropSlots fun j => j.seq == k.seq)
    | none => none

/-- Depth of the budget bucket (R142), cycle·ps. -/
def Mach.budgetDepth (m : Mach) (t : Terms) : Nat := m.rd E.BUDGET_DEPTH * t.cycles * t.pstr

/-- The cutter begins anew for a contract admitted from DRAFT (R219, R228). -/
def Stream.newCtx (x : Stream) (base : Nat) : List PlanerCtx :=
  x.ctxs.filter (fun c => c.apply != x.applies) ++ [{ apply := x.applies, cut := { seq := base, s0 := base, apply := x.applies } }]

/-- The contract enters RUNNING (R103, R110, R111, R142, R149), or waits for a set slot. Its stream is enabled (R101 check 4) from here on, before
the camera answers the write of VC_ENABLE: DESIGN CHOICE (notes/assumptions/58.md). -/
def Mach.enterRunning (m : Mach) (s : Nat) : Mach :=
  match (m.strm s).makeRoom (m.echoes (m.force s)) with
  | none => m.setStrm s { m.strm s with waitSlot := true }
  | some x =>
    let t := m.force s
    let c := Terms.rxCfg t
    let rx := ({} : Rx).fillBucket c m.now
    let m := m.setStrm s { x with enabled := true, waitSlot := false, rx := rx, far := none, newSeq := true,
                                  stripe := none, everRan := true, wasRunning := false,
                                  budget := m.budgetDepth t, budgetT := m.ps, frameNo := none,
                                  ctxs := if x.everRan then x.ctxs else x.newCtx (m.rd E.OBJ_SEQ_BASE s),
                                  tileSeq := if x.everRan then x.tileSeq else 0, waiting := if x.everRan then x.waiting else [] }
    let m := m.addSlot s { tag := 0, atNext := true }
    let m := (m.wr E.CONTRACT_STATE s cRUNNING).wr E.SUSPEND_REASON s 0
    let m := (m.sizeRing s t).showPolice s
    if t.remote then m
    else if m.auth then m.writeVc t.port s
    else if m.rd E.PORT_STATE t.port = 4 then m.wr E.PORT_STATE t.port 5 else m

/-- Start with the checks of R113: RUNNING, or SUSPENDED with reason 1 or 3 (R110). -/
def Mach.tryStart (m : Mach) (s : Nat) : Mach :=
  let t := m.force s
  if m.portUp t = false then (m.wr E.CONTRACT_STATE s cSUSPENDED).wr E.SUSPEND_REASON s 1
  else if m.cameraFits t = false then (m.wr E.CONTRACT_STATE s cSUSPENDED).wr E.SUSPEND_REASON s 3
  else m.enterRunning s

/-- SUSPENDED with reason 1 or 3. -/
def Mach.waitsPort (m : Mach) (s : Nat) : Bool :=
  m.cstate s == cSUSPENDED && (m.rd E.SUSPEND_REASON s == 1 || m.rd E.SUSPEND_REASON s == 3)

/-! ### Commands of CONTRACT_CMD (R111) -/

/-- Effect of CONTRACT_CMD 1 (R110, R112). -/
def Mach.doCommit (s : Nat) (m : Mach) : Mach :=
  if m.cstate s = cDRAFT ∨ m.cstate s = cREJECTED then (m.wr E.CONTRACT_STATE s cFORECAST).askVerdict s false
  else (m.wr E.CHANGE_STATE s 1).askVerdict s true

/-- A stop or release waits for a verdict in progress on another stream (R112). -/
def Mach.holdBack (m : Mach) (s : Nat) : Bool := match m.verdicts with | v :: _ => v.stream != s | [] => false

/-- Effect of CONTRACT_CMD 3. -/
def Mach.doStop (s : Nat) (m : Mach) : Mach :=
  if m.holdBack s then { m with deferred := m.deferred ++ [(s, 3)] } else m.stopNow s

/-- Effect of CONTRACT_CMD 4. -/
def Mach.doRelease (s : Nat) (m : Mach) : Mach :=
  if m.holdBack s then { m with deferred := m.deferred ++ [(s, 4)] }
  else if m.frontIs s then (m.releaseNow s).runDeferred.beginVerdict
  else m.releaseNow s

/-- Effect of CONTRACT_CMD 5. -/
def Mach.doDiscard (s : Nat) (m : Mach) : Mach := m.stage s (m.force s)

/-- May CONTRACT_CMD `c` act in the present state (R110, R111, R112)? -/
def Mach.cmdAllowed (m : Mach) (s c : Nat) : Bool :=
  let st := m.cstate s
  if c = 1 ∨ c = 5 then !m.inForecast s
  else if c = 2 then st == cADMITTED || m.waitsPort s
  else m.mayEnd s c

/-- CONTRACT_CMD by a path: the command that the written value names (R111), the interval 1 to 5 clamped. -/
def Mach.contractCmd (m : Mach) (path s c : Nat) (data : Bytes) : Mach :=
  m.command path (0x3200 + s) 2 data (m.cmdAllowed s c) fun m =>
    match c with
    | 1 => m.doCommit s
    | 2 => m.tryStart s
    | 3 => m.doStop s
    | 4 => m.doRelease s
    | _ => m.doDiscard s

/-- COMMIT (R111). -/
def execCommit (path k : Nat) (s : State) : Host.Outcome State Fault Refusal :=
  s.onMach (path < 5 ∧ k < 256) fun m => m.contractCmd path k 1 [1]

/-- START (R113). -/
def execStart (path k : Nat) (s : State) : Host.Outcome State Fault Refusal :=
  s.onMach (path < 5 ∧ k < 256) fun m => m.contractCmd path k 2 [2]

/-- STOP (R111). -/
def execStop (path k : Nat) (s : State) : Host.Outcome State Fault Refusal :=
  s.onMach (path < 5 ∧ k < 256) fun m => m.contractCmd path k 3 [3]

/-- RELEASE (R111). -/
def execRelease (path k : Nat) (s : State) : Host.Outcome State Fault Refusal :=
  s.onMach (path < 5 ∧ k < 256) fun m => m.contractCmd path k 4 [4]

/-- DISCARD (R111). -/
def execDiscard (path k : Nat) (s : State) : Host.Outcome State Fault Refusal :=
  s.onMach (path < 5 ∧ k < 256) fun m => m.contractCmd path k 5 [5]

/-! ### Verdicts -/

/-- The pair's verdict from the own result and the partner's answer (R132). -/
def combine (own : Sum Fail (Nat × List Res)) (partner : Bool × Nat × Nat × Nat) : Sum Fail (Nat × Nat) :=
  match own with
  | .inl f => .inl f
  | .inr (pl, _) =>
    if partner.1 then .inr (pl, partner.2.2.2)
    else .inl ⟨0x50, partner.2.1 % 256 * 2 ^ 24 + partner.2.2.1 % 2 ^ 24, 0⟩

/-- An own result as it is kept and sent: reason, detail, bound in ns, planer. -/
def ownOf (s : Nat) : Sum Fail (Nat × List Res) → Nat × Nat × Nat × Nat
  | .inl f => (f.reason, f.detail, f.bound, 0)
  | .inr (pl, rs) => (0, 0, maxOf ((rs.filter fun r => r.s == s).map fun r => cdiv r.bound 1000), pl)

/-- The module's own computation ends (R120); in a pair with its cross-link up the verdict waits for the partner. -/
def Mach.ownVerdict (m : Mach) (v : Verdict) (vs : List Verdict) : Mach :=
  let r := m.compute v
  if m.xlinkUp then
    let o := ownOf v.stream r
    let m := m.pairSend 0x68 3 3 v.stream (leBytes 4 o.1 ++ leBytes 4 o.2.1 ++ leBytes 4 o.2.2.1)
    match v.partner with
    | some p => m.conclude v (combine r p)
    | none => { m with verdicts := { v with own := some o } :: vs }
  else m.conclude v (match r with | .inl f => .inl f | .inr (pl, _) => .inr (pl, 0))

/-- PARTNER_VERDICT_ANSWER (R132). -/
def execPartnerVerdictAnswer (k : Nat) (answer : Bool) (reason detail bound : Nat) (s : State) :
    Host.Outcome State Fault Refusal :=
  s.onMach (k < 256) fun m =>
    match m.verdicts with
    | [] => m
    | v :: vs => m.when (v.stream == k && m.paired && !v.again) fun m =>
        match v.own with
        | some _ => m.conclude v (combine (m.compute v) (answer, reason, detail, bound))
        | none => { m with verdicts := { v with partner := some (answer, reason, detail, bound) } :: vs }

/-- PARTNER_VERDICT_TIMEOUT (R132): reason 0x51 where the own Forecast admits. -/
def execPartnerVerdictTimeout (k : Nat) (s : State) : Host.Outcome State Fault Refusal :=
  s.onMach (k < 256) fun m =>
    match m.verdicts with
    | [] => m
    | v :: _ => m.when (v.stream == k && v.own != none) fun m =>
        m.conclude v (match m.compute v with | .inl f => .inl f | .inr _ => .inl ⟨0x51, 0, 0⟩)

/-- AUTO_RESUME (R110, R113). -/
def execAutoResume (k : Nat) (s : State) : Host.Outcome State Fault Refusal :=
  s.onMach (k < 256) fun m =>
    m.when (m.rd E.AUTO_RESUME == 1 && m.waitsPort k && m.portUp (m.force k) && m.cameraFits (m.force k)) fun m =>
      m.enterRunning k

/-! ### Re-forecast (R131) -/

/-- Streams in ascending ADMIT_EPOCH. -/
def Mach.byEpoch (m : Mach) (l : List Nat) : List Nat := l.foldr (insertBy fun s => (m.rd E.ADMIT_EPOCH s, s)) []

/-- One contract against those kept before it, its placement kept. -/
def Mach.recheck (m : Mach) (kept : List Counted) (s : Nat) (live : List Live) : Option Fail :=
  match live.getLast? with
  | none => none
  | some l =>
    match m.forecast kept live.dropLast s l.terms (0, 0) [l.planer] with
    | .inl f => some f
    | .inr _ => none

/-- A re-forecast refuses a contract (R110, R131): its reservations go, and its context stays (R145). -/
def Mach.dropContract (m : Mach) (s : Nat) (f : Fail) : Mach :=
  let t := m.force s
  let run := m.cstate s == cRUNNING
  let m := if run then m.leaveRunning s m.now else m
  let live := (m.strm s).live
  let m := m.setStrm s { m.strm s with admitted := false, live := [], waitSlot := false, wasRunning := run || (m.strm s).wasRunning }
  let m := (m.freeRoutes live []).wr E.CHANGE_STATE s (if m.rd E.CHANGE_STATE s = 3 then 0 else m.rd E.CHANGE_STATE s)
  let m := ((m.wr E.CONTRACT_STATE s cSUSPENDED).wr E.SUSPEND_REASON s 2).refused s f
  if run ∧ Terms.remote t = false then (m.writeVc (Terms.port t) s).portFollow (Terms.port t) else m

/-- A contract SUSPENDED with reason 2 is admitted again on a planer (R110). -/
def Mach.readmit (m : Mach) (s pl num : Nat) : Mach :=
  let x := m.strm s
  let live : Live := ⟨m.force s, pl, if x.applyAt then x.applies + 1 else x.applies, num⟩
  let m := m.setStrm s { x with admitted := true, live := [live], planer := pl, curPlaner := pl, wasRunning := false }
  let m := (m.wr E.CONTRACT_STATE s cADMITTED).wr E.SUSPEND_REASON s 0
  if x.wasRunning then m.tryStart s else m

/-- The placement of a contract that is tried again: its planer, or a new one where that has failed (R475). -/
def Mach.forecastAgain (m : Mach) (s : Nat) (why : Nat × Nat) : Sum Fail (Nat × List Res) :=
  let x := m.strm s
  let t := m.force s
  m.forecast (m.othersOf s) [] s t why (if m.planerDead x.planer then m.candidates t else [x.planer])

/-- Retry a contract SUSPENDED with reason 2 (R110, R131); a remote one reserves its route first. -/
def Mach.retryContract (s : Nat) (m : Mach) : Mach :=
  match m.forecastAgain s (0, 0) with
  | .inl f => m.refused s f
  | .inr r => if Terms.remote (m.force s) then m.askRoute s else m.readmit s r.1 0

/-- The answer to a route asked for anew (R131, R380): a contract in force keeps its admission or is SUSPENDED, and a SUSPENDED one is admitted
again. -/
def Mach.routeVerdict (m : Mach) (v : Verdict) : Mach :=
  let s := v.stream
  let x := m.strm s
  let m := { m with verdicts := m.verdicts.drop 1 }
  let free := fun (m : Mach) => if 2 ≤ v.route then m.tellHolds v.terms v.num 0 else m
  let m :=
    if m.suspended2 s then
      match m.forecastAgain s v.routeWhy with
      | .inl f => if x.admitted then (free m).dropContract s f else (free m).refused s f
      | .inr r => ((m.setStrm s { x with posSent := x.posTold v.terms v.pos }).tellHolds v.terms v.num 1).readmit s r.1 v.num
    else if x.admitted then
      match m.forecast (m.othersOf s) x.live.dropLast s v.terms v.routeWhy [x.planer] with
      | .inl f => (free m).dropContract s f
      | .inr _ =>
        (m.setStrm s { x with live := x.live.dropLast ++ (x.live.getLast?.map fun (l : Live) => { l with num := v.num }).toList }).tellHolds v.terms v.num 1
    else free m
  m.republish.runDeferred.beginVerdict

/-- FORECAST_VERDICT (R120): the verdict at the front of the queue, once a remote stream's route is answered. -/
def execForecastVerdict (k : Nat) (s : State) : Host.Outcome State Fault Refusal :=
  s.onMach (k < 256) fun m =>
    match m.verdicts with
    | [] => m
    | v :: vs => m.when (v.stream == k && v.own == none && v.route != 1 && !m.wantsRoute v) fun m => if v.again then m.routeVerdict v else m.ownVerdict v vs

/-- The contracts SUSPENDED with reason 2 are retried in ascending ADMIT_EPOCH (R131). -/
def Mach.retryAll (m : Mach) : Mach := (m.each (m.byEpoch ((List.range 256).filter m.suspended2)) Mach.retryContract).republish

/-- The re-forecast of every admitted contract, then of those SUSPENDED with reason 2 (R131). -/
def Mach.reforecast (m : Mach) : Mach :=
  let m := m.inc E.REFORECASTS 0
  let all := m.byEpoch ((List.range 256).filter fun s => (m.strm s).admitted)
  let r := all.foldl (fun (acc : List Counted × Mach) s =>
    let live := (acc.2.strm s).live
    match acc.2.recheck acc.1 s live with
    | some f => (acc.1, acc.2.dropContract s f)
    | none => (insertCounted ⟨s, live⟩ acc.1, acc.2)) ([], m)
  let m := r.2
  m.retryAll

/-- REFORECAST (R131). -/
def execReforecast (s : State) : Host.Outcome State Fault Refusal := s.onMach true Mach.reforecast

end Sys2Proof.Machine
end

