-- ==== Sys2Proof/Machine/Delivery.lean ====
section
/-! DEFINITION. Delivery of a stripe's units: the read path of the DMA engine (R330, R331, R342 to R345, R348), the
order of units (R337, R339, R349), their writing (R344, R347, R356 to R358), and the veneers (R350 to R354). -/

namespace Sys2Proof.Machine

/-! ### Reads of host memory (R318, R330, R331) -/

/-- The first tag of the pool (R331). -/
def Mach.tagBase (m : Mach) : Nat := if m.rd E.LINK_FLIT = 1 then 0x400 else if m.ep.cfg.tag10 then 0x100 else 0
/-- Number of tags of the pool. -/
def Mach.tagCount (m : Mach) : Nat := if m.rd E.LINK_FLIT = 1 then 4096 else if m.ep.cfg.tag10 then 768 else 256

/-- The lowest of `n` tags from `t` that is neither outstanding nor in quarantine. -/
def freeTag (used : List Nat) : Nat → Nat → Option Nat
  | _, 0 => none
  | t, n + 1 => if used.contains t then freeTag used (t + 1) n else some t

/-- Issue reads that wait, in their order, while tags are free (R331). -/
def Mach.issueReads : Nat → Mach → Mach
  | 0, m => m
  | n + 1, m =>
    match m.ep.waiting with
    | [] => m
    | r :: rs =>
      if m.mayRequest ∧ m.ep.reads.length < 1024 then
        match freeTag (m.ep.reads.map HostRead.tag ++ m.ep.quarantine) m.tagBase m.tagCount with
        | none => m
        | some t =>
          let m := { m with ep.waiting := rs, ep.reads := m.ep.reads ++ [{ r with tag := t }] }
          Mach.issueReads n (m.emit (.hostRead t r.addr r.len))
      else m

/-- Ask for a read. -/
def Mach.askRead (m : Mach) (r : HostRead) : Mach :=
  Mach.issueReads (m.ep.waiting.length + 1) { m with ep.waiting := m.ep.waiting ++ [r] }

/-- A Class S channel reads the descriptor it needs next (R342, R345): a new one while fewer than 5 are held (the
present and up to 4 ahead), or the tail again when the doorbell flag is set. -/
def Mach.fetchDesc (m : Mach) (c : Nat) : Mach :=
  let x := m.chan c
  if m.chClass c ≠ 1 ∨ x.fetching ∨ (x.state ≠ 1 ∧ x.state ≠ 2 ∧ x.state ≠ 5) ∨ m.rd E.ENGINE_STATE ≠ 0 ∨ m.mayRequest = false then m
  else if x.atTail then
    if x.doorbell then
      (m.setChan c { x with doorbell := false, fetching := true }).askRead
        { chan := c, what := .tail x.fetch, addr := x.fetch, len := 32 }
    else m
  else if x.descs.length < 5 then
    (m.setChan c { x with fetching := true }).askRead { chan := c, what := .desc x.fetch, addr := x.fetch, len := 32 }
  else m

/-- The Mallet reads the channel as a decision ring (R265, R282). -/
def Mach.malletReads (m : Mach) (c : Nat) : Bool :=
  m.rd E.MALLET_ENABLE == 1 && (List.range 8).any fun r => m.rd E.DEC_CHANNEL r == c

/-- A from-host ring that the Mallet reads has its available slots read (R265, R282, R348): at most 8 per request, within
Max_Read_Request_Size and a page of 4 KiB (R318), up to the ring's end. -/
def Mach.fetchEntries (m : Mach) (c : Nat) : Mach :=
  let x := m.chan c
  if m.malletReads c = false ∨ m.chClass c ≠ 2 ∨ m.rd E.RING_DIR c ≠ 1 ∨ x.fetching ∨ (x.state ≠ 1 ∧ x.state ≠ 2) ∨ m.rd E.ENGINE_STATE ≠ 0 ∨
      m.mayRequest = false then m
  else
    let z := m.ringSlots c
    let avail := (x.sw + 2 ^ 32 - x.hw) % 2 ^ 32
    if z < avail then (m.inc E.INDEX_ERRORS c).setChan c { x with state := 2 }
    else if avail = 0 then m.setChan c { x with state := 2 }
    else
      let sb := m.slotBytes c
      let a := m.rd E.CH_ADDR c + x.hw % z * sb
      let n := Nat.min (Nat.min (Nat.min avail 8) (z - x.hw % z)) (Nat.min (128 * 2 ^ m.ep.cfg.mrrs) (4096 - a % 4096) / sb)
      (m.setChan c { x with fetching := true, state := 1 }).askRead { chan := c, what := .entries x.hw n, addr := a, len := n * sb }

/-! ### Reshuffle (R357, R358) -/

/-- The input channels of the output channels of pixels of `n` samples: the entries of SHUFFLE_MAP before the first 0xF; its default is the
identity for every `n` (R358, notes/assumptions/57.md). -/
def shuffleMap (n map : Nat) : List Nat :=
  if map = 0x76543210 then List.range n else ((List.range 8).map fun o => map / 16 ^ o % 16).takeWhile fun e => e != 15

/-- Bytes padded with zeros to a multiple of `k`. -/
def padTo (k : Nat) (b : Bytes) : Bytes := b ++ zeros (cdiv b.length k * k - b.length)

/-- Sample of channel `ch` of pixel `x` in a row of `n` samples of `z` bytes. -/
def sampleAt (z n : Nat) (row : Bytes) (x ch : Nat) : Bytes :=
  if ch < n then ((row.drop ((x * n + ch) * z)).take z ++ zeros z).take z else zeros z

/-- Rows of pixels under modes 1, 3 and 4. `pad` is the padding of an interleaved row. -/
def shuffleRows (mode z n p : Nat) (map : List Nat) (pad : Nat) (rows : List Bytes) : Bytes :=
  match mode with
  | 1 => map.flatMap fun ch => rows.flatMap fun r => padTo 64 ((List.range p).flatMap fun x => sampleAt z n r x ch)
  | 3 => rows.flatMap fun r =>
      let s := (List.range p).flatMap fun x => map.map fun ch => leNat (sampleAt z n r x ch)
      (List.range (8 * z)).flatMap fun k => padTo 64 (packBits 1 (s.map fun v => bn (bitOf v k)))
  | _ => rows.flatMap fun r => padTo pad ((List.range p).flatMap fun x => map.flatMap fun ch => sampleAt z n r x ch)

/-- Cut bytes into `n` rows of `k` bytes. -/
def cutRows (k : Nat) : Nat → Bytes → List Bytes
  | 0, _ => []
  | n + 1, b => b.take k :: cutRows k n (b.drop k)

/-- A unit as it is written under a channel's mode and map, and whether the reshuffle was skipped (R357). The padding
of an interleaved row under mode 4 is that of the row as produced (notes/assumptions/22.md). -/
def Unit.shuffled (u : Unit) (mode map : Nat) : Bytes × Bool :=
  let s := u.shape
  if mode = 0 then (u.data, false)
  else if s.kind = 1 ∧ mode ≠ 2 then
    (shuffleRows mode s.z s.n s.p (shuffleMap s.n map) 64 (cutRows s.rowBytes s.rows u.data), false)
  else if s.kind = 2 then
    let head := u.data.take s.header
    let pix := cutRows s.rowBytes s.rows (u.data.drop s.header)
    let mask := u.data.drop (s.header + s.rows * s.rowBytes)
    if mode = 2 then
      if s.maskBytes = 0 then (u.data, true)
      else
        let ms := cutRows s.maskBytes s.rows mask
        (head ++ (pix.zip ms).flatMap fun r => padTo 8 ((List.range s.p).flatMap fun x =>
          sampleAt s.z 1 r.1 x 0 ++ [byteOf (bitOf (leAt r.2 (x / 8) 1) (x % 8))]), false)
    else (head ++ shuffleRows mode s.z 1 s.p (shuffleMap 1 map) 8 pix ++ mask, false)
  else (u.data, true)
where
  /-- A mask byte. -/
  byteOf (b : Bool) : Byte := BitVec.ofNat 8 (bn b)

/-! ### Deliveries -/

/-- Replace a delivery. -/
def Mach.setDeliv (m : Mach) (s : Nat) (d : Deliv) : Mach :=
  let x := m.strm s
  m.setStrm s { x with delivs := x.delivs.map fun (e : Deliv) => if e.id = d.id then d else e }

/-- What became of a unit: its delivery learns its SEQ, its bytes as written (none: dropped) and what its veneer
must show (R350, R352). -/
def Deliv.note (d : Deliv) (u : Unit) (seq : Nat) (written : Option Bytes) (skipped aborted : Bool) : Deliv :=
  let drop := if written.isNone then 2 ^ (u.kind - 1) else 0
  let st := (if u.late then d.lateStatus else d.status) ||| drop ||| bn aborted * 64 ||| bn skipped * 256
  let d := if u.late then { d with lateStatus := st, lateLeft := d.lateLeft - 1 }
    else { d with status := st, preLeft := d.preLeft - 1 }
  let d := if u.kind = 3 then { d with stripeSeq := some seq } else if u.kind = 4 then { d with statsSeq := some seq } else d
  match written with
  | none => d
  | some b => if u.late then { d with lateGiven := d.lateGiven ++ [(u.kind, b)] } else { d with given := d.given ++ [(u.kind, b)] }

/-- A unit that was written and is to be written again is dropped instead (R350, R362): it adds nothing any more. -/
def Deliv.unnote (d : Deliv) (u : Unit) : Deliv :=
  let drop := 2 ^ (u.kind - 1)
  if u.late then { d with lateStatus := d.lateStatus ||| drop, lateGiven := d.lateGiven.erase (u.kind, u.data) }
  else { d with status := d.status ||| drop, given := d.given.erase (u.kind, u.data) }

/-- Bytes given in the order of R353. -/
def digestOrder (l : List (Nat × Bytes)) : Bytes :=
  [3, 4, 5, 6].flatMap fun k => (l.filter fun x => x.1 == k).flatMap fun x => x.2

/-- A veneer of kind 1 or 2 with its SEQ and STATUS (R351, R353, R354). -/
def Mach.veneer (m : Mach) (s : Nat) (d : Deliv) (kind seq status : Nat) : Bytes :=
  let given := if kind = 1 then d.given else d.lateGiven
  let recs := given.filter fun x => x.1 == 5
  let tiles := given.filter fun x => x.1 == 6
  let unitOf := fun (o : Option Nat) => if kind = 1 then (match o with | some n => n % 2 ^ 32 | none => 0xFFFFFFFF) else 0xFFFFFFFF
  let writer := bn (m.paired && !m.slotA)
  let head := leBytes 4 (kind + s * 2 ^ 8 + writer * 2 ^ 16) ++ leBytes 6 seq ++ leBytes 2 d.cond ++ leBytes 2 status ++
    leBytes 2 d.tag ++ leBytes 8 d.time.toNat ++ leBytes 4 d.frame ++ leBytes 4 d.line ++ leBytes 4 d.pos ++
    leBytes 2 d.rows ++ leBytes 2 recs.length ++ leBytes 4 tiles.length ++ leBytes 4 (unitOf d.stripeSeq) ++
    leBytes 4 (unitOf d.statsSeq) ++ leBytes 4 (match recs with | r :: _ => leAt r.2 0 4 | [] => 0)
  head ++ leBytes 8 (crc64 0 (head ++ digestOrder given))

/-! ### The channel queue (R337, R339, R349) -/

/-- Remove the first unit equal to `u`. -/
def eraseUnit (u : Unit) : List Unit → List Unit
  | [] => []
  | v :: t => if v = u then t else v :: eraseUnit u t

/-- A unit takes its SEQ (R339): the one it has, else the channel's next. -/
def Mach.takeSeq (m : Mach) (c : Nat) (u : Unit) : Nat × Mach :=
  match u.seq with
  | some n => (n, m)
  | none =>
    let n := m.rd E.SEQ_NEXT c
    (n, m.wr E.SEQ_NEXT c ((n + 1) % 2 ^ 48))

/-- The delivery log's entry for a unit that takes a SEQ (R404), sent by the active module and kept on it. -/
def Mach.logUnit (m : Mach) (c : Nat) (u : Unit) (seq : Nat) (dropped : Bool) (body : Bytes) : Mach :=
  if m.leads then
    let x := m.chan c
    let point := if m.chClass c = 1 then (match x.descs with | d :: _ => d.addr | [] => x.fetch) else x.alloc
    let entry := leBytes 4 (c + u.kind * 2 ^ 8 + bn dropped * 2 ^ 12 + (if u.kind = 7 then 0 else u.stream) * 2 ^ 16) ++
      leBytes 6 seq ++ zeros 2 ++ leBytes 8 u.key ++ leBytes 8 point ++ leBytes 4 (if m.chClass c = 1 then x.off else 0)
    m.pairSend 0x62 2 0 0 (entry ++ body)
  else m

/-- The commit point of a channel after unit `seq` has ended: the least SEQ of a unit that has one and is not all written or
dropped, else the number behind `seq` (R405). -/
def Mach.advance (m : Mach) (c seq : Nat) : Mach :=
  let x := m.chan c
  let open_ := x.queue.filterMap Unit.seq
  m.setChan c { x with commit := open_.foldl seqMin ((seq + 1) % 2 ^ 48) }

/-- The descriptors that a unit has its place in: where word 7 stands, and the bytes used as its last write-back tells them. -/
def Unit.touched (u : Unit) : SMap Nat :=
  u.plan.foldl (fun r p => if p.write.writeBack then SMap.put p.write.addr (leNat p.write.data % 2 ^ 25) r else r) []

/-- The write-back that closes a descriptor touched by a unit which ended early: it counts in HW_INDEX and publishes as the first DONE of its
buffer, unless one was issued before (R344, R349, R364). -/
def Unit.abortBack (u : Unit) (c seq : Nat) (present : List Desc) (t : Nat × Nat) : Planned :=
  let of := fun (p : Planned) => p.write.writeBack && p.write.addr == t.1
  let was := (u.plan.take u.done).any fun p => of p && p.closes
  let event := (u.plan.any fun p => of p && p.event) || present.any fun d => d.addr + 28 == t.1 && d.event
  { write := { chan := some c, seq := seq, writeBack := true, addr := t.1, data := leBytes 4 (t.2 + 2 ^ 25 + 2 ^ 26) }
    closes := !was, event := !was && event }

/-- A Class S unit in progress ends early: it leaves ABORTED and DONE in the descriptors it touched, and the next unit begins in
the next descriptor (R349, R363). On a ring, HW_INDEX passes its place. -/
def Mach.abortTouched (m : Mach) (c seq : Nat) (u : Unit) : Mach :=
  if m.chClass c = 1 then
    let x := m.chan c
    let here : Bool := match x.descs with
      | d :: _ => u.touched.any fun t => t.1 == d.addr + 28
      | [] => false
    m.setChan c { x with descs := if here then x.descs.drop 1 else x.descs, off := if here then 0 else x.off,
                         redo := x.redo ++ u.touched.map (u.abortBack c seq (x.descs.take 1)) }
  else m.setChan c { m.chan c with hw := (m.chan c).ringIndex }

/-- A unit has left the queue, written or dropped: its delivery is noted, once. A veneer that is posted or dropped lets its
terms retire (R130). -/
def Mach.unitEnded (m : Mach) (u : Unit) (seq : Nat) (written : Option Bytes) (skipped aborted : Bool) : Mach :=
  if u.kind = 7 then m
  else
    match (m.strm u.stream).deliv u.deliv with
    | none => m
    | some d =>
      let gone := fun (m : Mach) =>
        let x := m.strm u.stream
        m.setStrm u.stream { x with delivs := x.delivs.filter fun e => e.id != d.id }
      if u.noted then (if written.isSome ∨ u.kind = 1 ∨ u.kind = 2 then m else m.setDeliv u.stream (d.unnote u))
      else if u.kind = 1 then
        (if d.trails = false then gone m else m.setDeliv u.stream { d with posted := true }).retire u.stream
      else if u.kind = 2 then gone m
      else m.setDeliv u.stream (d.note u seq written skipped aborted)

/-- Drop a unit of a channel's queue (R349): it consumes its SEQ. -/
def Mach.dropUnit (m : Mach) (c : Nat) (u : Unit) (aborted : Bool) : Mach :=
  let fresh := u.seq.isNone
  let (seq, m) := m.takeSeq c u
  let m := if fresh then m.logUnit c u seq true (if u.kind = 1 ∨ u.kind = 2 then zeros 64 else if u.kind = 7 then u.data else []) else m
  let m := if aborted then m else m.inc E.UNITS_DROPPED c
  let m := match u.headAt with | some h => m.peak E.CH_WAIT_PEAK c (m.ns - h) | none => m
  let x := m.chan c
  let m := m.setChan c { x with queue := eraseUnit u x.queue }
  let m := if 0 < u.placed then m.abortTouched c seq u else m
  ((m.unitEnded u seq none false aborted).advance c seq).markHead c

/-- A unit's bytes as written: a veneer is built now, with its SEQ and STATUS; a Class S unit is reshuffled. -/
def Mach.unitBytesNow (m : Mach) (c : Nat) (u : Unit) (seq status : Nat) : Bytes × Bool :=
  if u.kind = 1 ∨ u.kind = 2 then
    match (m.strm u.stream).deliv u.deliv with
    | some d => (if u.logged ∨ u.built then u.data else m.veneer u.stream d u.kind seq status, false)
    | none => (u.data, false)
  else if u.built then (u.data, u.skip)
  else if m.chClass c = 1 then u.shuffled (m.rd E.SHUFFLE_MODE c) (m.rd E.SHUFFLE_MAP c)
  else (u.data, false)

/-- The entry of the delivery log that names a unit: UNIT, STREAM and KEY (R404). -/
def LogUnit.names (e : LogUnit) (c : Nat) (u : Unit) : Bool :=
  e.chan == c && bitsOf (leAt e.entry 0 4) 11 8 == u.kind && bitsOf (leAt e.entry 0 4) 23 16 == u.stream && leAt e.entry 12 8 == u.key

/-- The entry says that the unit was dropped. -/
def LogUnit.dropped (e : LogUnit) : Bool := bitOf (leAt e.entry 0 4) 12

/-- Logged bytes as this module writes them: a veneer with its own WRITER (R414). -/
def Mach.loggedBytes (m : Mach) (u : Unit) (body : Bytes) : Bytes :=
  if u.kind = 1 ∨ u.kind = 2 then putBytes body 2 (leBytes 1 (bn (m.paired && !m.slotA)))
  else if u.kind = 7 then body else u.data

/-- The engine's point moves behind a unit that the active module has written (R406): unless a later unit of the channel
is logged that has a place. -/
def Mach.pointAfter (m : Mach) (e : LogUnit) (n : Nat) : Mach :=
  if e.dropped ∨ (m.pair.log.any fun k => k.chan == e.chan && !k.dropped && seqLess e.seq k.seq) then m
  else
    let c := e.chan
    let x := m.chan c
    let point := leAt e.entry 20 8
    if m.chClass c = 1 then
      m.setChan c { x with descs := [], fetch := point, atTail := false, off := cdiv (leAt e.entry 28 4 % 2 ^ 25 + n) 64 * 64 }
    else
      let k := (point + m.slotsOf c n) % 2 ^ 32
      m.setChan c { x with hw := k, alloc := k }

/-- A unit that the log names and that the active module has written or dropped, or whose place a takeover keeps
(R406, R414). -/
def Mach.nameUnit (m : Mach) (c : Nat) (u : Unit) (e : LogUnit) : Mach :=
  let x := m.chan c
  let forget := fun (m : Mach) => { m with pair.log := m.pair.log.filter fun k => !(k.chan == c && k.seq == e.seq) }
  if e.dropped ∨ seqLess e.seq x.commit then
    let u : Unit := { u with data := m.loggedBytes u e.body, logged := true }
    let n := (m.unitBytesNow c u e.seq 0).1
    forget ((m.unitEnded u e.seq (if e.dropped then none else some n) false false).pointAfter e n.length)
  else m.setChan c { x with queue := x.queue ++ [{ u with seq := some e.seq, logged := true, data := m.loggedBytes u e.body }] }

/-- A unit becomes ready for its channel (R349): dropped at once for a PARKED channel, or when it is larger than its
whole ring. In a pair the delivery log may name it already (R406, R414). -/
def Mach.offerUnit (m : Mach) (c : Nat) (u : Unit) : Mach :=
  if 128 ≤ c then m.unitEnded u 0 none false false
  else
    let u := { u with readyAt := m.ns }
    let x := m.chan c
    let same := fun (v : Unit) => v.awaited && v.kind == u.kind && v.stream == u.stream && v.key == u.key
    match x.queue.find? same with
    | some v =>
      let v' : Unit := { u with seq := v.seq, logged := true, data := if u.kind = 1 ∨ u.kind = 2 then v.data else u.data }
      (m.setChan c { x with queue := x.queue.map fun (w : Unit) => if w = v then v' else w }).markHead c
    | none =>
    match m.pair.log.find? fun e => e.names c u with
    | some e => m.nameUnit c u e
    | none =>
    let m := m.setChan c { x with queue := x.queue ++ [u] }
    if m.follows then m
    else if x.state = 4 ∨ (m.toHostC c ∧ m.ringSlots c < m.slotsOf c u.data.length) then m.dropUnit c u false
    else m.markHead c

/-- Offer what a stream's deliveries have ready: the veneer of its oldest unposted stripe once no pre-veneer unit is
left, and a trailer once no late unit is left (R350, R354). -/
def Mach.offerVeneer (m : Mach) (s : Nat) : Mach :=
  let x := m.strm s
  let has := fun (m : Mach) (d : Deliv) (k : Nat) =>
    (m.chan (Terms.dma d.terms 0)).queue.any fun u => u.kind == k && u.stream == s && u.deliv == d.id
  let m := match x.delivs.find? fun d => !d.posted with
    | some d =>
      let c := Terms.dma d.terms 0
      if d.preLeft = 0 ∧ has m d 1 = false then
        m.offerUnit c { kind := 1, stream := s, deliv := d.id, data := zeros 64, key := d.frame * 2 ^ 32 + d.line }
      else m
    | none => m
  x.delivs.foldl (fun m d =>
    if d.posted ∧ d.lateLeft = 0 ∧ has m d 2 = false then
      m.offerUnit (Terms.dma d.terms 0) { kind := 2, stream := s, deliv := d.id, late := true, data := zeros 64,
                                          key := d.frame * 2 ^ 32 + d.line }
    else m) m

/-- `offerVeneer` until nothing more is ready: a veneer dropped at once lets the next come. -/
def Mach.offerVeneers (m : Mach) (s : Nat) : Mach :=
  (List.range ((m.strm s).delivs.length + 1)).foldl (fun m _ => m.offerVeneer s) m

/-! ### The place of a unit (R337, R344, R347) -/

/-- The host writes of `b` at `a` that a channel plans for a unit (R318). -/
def plannedWrites (mps c seq a : Nat) (b : Bytes) : List Planned :=
  (splitWrite mps b.length a b).map fun w => { write := { chan := some c, seq := seq, addr := w.1, data := w.2 } }

/-- A place in buffers as it grows: the descriptors left, the offset in the first, the bytes placed, and the writes. -/
structure Fill where
  descs : List Desc
  off : Nat
  placed : Nat
  plan : List Planned

/-- Place what the descriptors held allow of a unit's bytes (R344): each buffer's writes, then its word 7, with DONE 0 where the unit ends in it and
with DONE 1 where the channel leaves it. -/
def Fill.run (mps c seq : Nat) (total : Bytes) : Nat → Fill → Fill
  | 0, f => f
  | fuel + 1, f =>
    match f.descs with
    | [] => f
    | d :: ds =>
      let n := Nat.min (d.len - f.off) (total.length - f.placed)
      let off := f.off + n
      let ended := decide (total.length ≤ f.placed + n)
      let leave := !ended || !d.pack || decide (d.len - off < 64)
      let word7 := fun (done : Bool) =>
        ({ write := { chan := some c, seq := seq, writeBack := true, addr := d.addr + 28,
                      data := leBytes 4 (off + bn done * 2 ^ 25 + bn (!ended) * 2 ^ 27) }
           closes := done, event := done && d.event } : Planned)
      let backs := (if ended then [word7 false] else []) ++ (if leave then [word7 true] else [])
      let f : Fill := { descs := if leave then ds else d :: ds, off := if leave then 0 else cdiv off 64 * 64, placed := f.placed + n,
                        plan := f.plan ++ plannedWrites mps c seq (d.buf + f.off) ((total.drop f.placed).take n) ++ backs }
      if ended then f else Fill.run mps c seq total fuel f

/-- The writes of a ring place at slot index `idx`, continuing at the ring's first byte after its last (R347). -/
def Mach.ringWrites (m : Mach) (c seq idx : Nat) (b : Bytes) : List Planned :=
  let z := m.ringSlots c
  let sb := m.slotBytes c
  let at_ := idx % z * sb
  let base := m.rd E.CH_ADDR c
  let mps := m.rd E.MPS_NOW
  plannedWrites mps c seq (base + at_) (b.take (z * sb - at_)) ++ plannedWrites mps c seq base (b.drop (z * sb - at_))

/-- Replace the queued unit `seq`. -/
def Chan.setUnit (x : Chan) (seq : Nat) (u : Unit) : Chan :=
  { x with queue := x.queue.map fun (v : Unit) => if v.seq = some seq then u else v }

/-- A unit's write-backs of a descriptor in which another unit's writes still wait go behind those (R344: a word 7 follows the
unit writes that it reports). -/
def Chan.deferBacks (x : Chan) (seq : Nat) (u : Unit) : Chan :=
  match x.queue.find? fun v => decide (0 < v.placed) && v.seq != some seq with
  | none => x.setUnit seq u
  | some v =>
    let theirs := ((v.plan.drop v.done).filter fun p => p.write.writeBack).map fun p => p.write.addr
    let shared := fun (p : Planned) => p.write.writeBack && theirs.contains p.write.addr
    (x.setUnit seq { u with plan := u.plan.filter fun p => !shared p }).setUnit (v.seq.getD 0) { v with plan := v.plan ++ u.plan.filter shared }

/-- The unit `seq` takes its place: the whole of it on a ring, on a Class S channel what the descriptors held allow (R337, R344,
R347). -/
def Mach.placeUnit (m : Mach) (c seq : Nat) (u : Unit) : Mach :=
  let x := m.chan c
  if m.chClass c = 1 then
    if u.data.length ≤ u.placed ∧ 0 < u.placed then m
    else
      let f := Fill.run (m.rd E.MPS_NOW) c seq u.data x.descs.length { descs := x.descs, off := x.off, placed := u.placed, plan := u.plan }
      (m.setChan c ({ x with descs := f.descs, off := f.off }.deferBacks seq { u with placed := f.placed, plan := f.plan })).fetchDesc c
  else if 0 < u.placed then m
  else
    let k := m.slotsOf c u.data.length
    let u : Unit := { u with placed := u.data.length, place := x.alloc,
                             plan := m.ringWrites c seq x.alloc (u.data ++ zeros (k * m.slotBytes c - u.data.length)) }
    m.setChan c ({ x with alloc := (x.alloc + k) % 2 ^ 32 }.setUnit seq u)

/-- The place of a unit in progress grows into new descriptors (R337, R344). -/
def Mach.growPlace (m : Mach) (c : Nat) : Mach :=
  match (m.chan c).queue.find? fun u => decide (0 < u.placed) && decide (u.placed < u.data.length) with
  | some u => m.placeUnit c (u.seq.getD 0) u
  | none => m

/-! ### Writing a unit (R356) -/

/-- Publish a channel event (R364). -/
def Mach.chanEvent (m : Mach) (c mode seq : Nat) : Mach :=
  if m.rd E.CH_EVENT_MODE c = mode then m.produce 11 c (m.rd E.CH_EC c) seq m.now else m

/-- Limiter credit is enough for a write of `n` bytes (R356). -/
def Mach.credited (m : Mach) (c n : Nat) : Bool := decide (n * 1024 ≤ ((m.refill c).chan c).cred)

/-- Another unit of the channel holds a place that the descriptors held did not allow in full (R337). -/
def Chan.growing (x : Chan) (u : Unit) : Bool :=
  x.queue.any fun v => v != u && decide (0 < v.placed) && decide (v.placed < v.data.length)

/-- The channel can take its head unit now: RUN, or DRAINING with this unit in progress; it holds a place with writes to issue, or
finds ring room or a descriptor (R340, R347). No write-back waits ahead of it. -/
def Mach.canTake (m : Mach) (c : Nat) (u : Unit) : Bool :=
  let x := m.chan c
  (x.state == 1 || (x.state == 5 && decide (0 < u.placed))) && x.redo.isEmpty && m.mayRequest && m.rd E.ENGINE_STATE == 0 &&
    (decide (u.done < u.plan.length) ||
     (if m.chClass c = 1 then !x.descs.isEmpty && !x.growing u
      else m.toHostC c && decide (x.fill + m.slotsOf c u.data.length ≤ m.ringSlots c)))

/-- Length of the write that a unit issues next: the first of its plan, or the first of the place it would take. -/
def Mach.nextLength (m : Mach) (c : Nat) (u : Unit) : Nat :=
  match u.plan[u.done]? with
  | some p => p.write.data.length
  | none =>
    let x := m.chan c
    let first := fun (a n : Nat) => Nat.min n (Nat.min (m.rd E.MPS_NOW) (4096 - a % 4096))
    if m.chClass c = 1 then
      match x.descs with
      | d :: _ => first (d.buf + x.off) (Nat.min (d.len - x.off) (u.data.length - u.placed))
      | [] => 0
    else
      let z := m.ringSlots c
      let sb := m.slotBytes c
      first (m.rd E.CH_ADDR c + x.alloc % z * sb) (Nat.min (m.slotsOf c u.data.length) (z - x.alloc % z) * sb)

/-- Some channel with a share has a write-back or a pre-veneer write that it may issue (R356). -/
def Mach.sharedReady (m : Mach) : Bool :=
  (m.chans.map Prod.fst).any fun c =>
    decide (0 < m.share c) &&
      (match (m.chan c).redo, m.headUnit c with
       | p :: _, _ => m.mayRequest && m.rd E.ENGINE_STATE == 0 && m.credited c p.write.data.length
       | [], some u => !u.late && m.canTake c u && m.credited c (m.nextLength c u)
       | [], none => false)

/-- May the unit's next write, of `n` bytes, be issued now under the limiter (R356)? -/
def Mach.limiterLets (m : Mach) (c : Nat) (u : Unit) (n : Nat) : Bool :=
  if u.late ∨ m.share c = 0 then !m.sharedReady else m.credited c n

/-- Charge the limiter (R356). -/
def Mach.charge (m : Mach) (c : Nat) (u : Unit) (n : Nat) : Mach :=
  if u.late ∨ m.share c = 0 then m
  else
    let m := m.refill c
    m.setChan c { m.chan c with cred := (m.chan c).cred - n * 1024 }

/-- Issue one planned write of a unit (R344, R356, R364). -/
def Mach.issueWrite (m : Mach) (c : Nat) (u : Unit) (p : Planned) : Mach :=
  let m := (m.charge c u p.write.data.length).inc E.BYTES c p.write.data.length
  let m := { m with ep.writes := m.ep.writes ++ [p.write] }
  let x := m.chan c
  let m := m.setChan c { x.setUnit (u.seq.getD 0) { u with done := u.done + 1 } with hw := if p.closes then (x.hw + 1) % 2 ^ 32 else x.hw }
  if p.event then m.chanEvent c 2 p.write.seq else m

/-- The last write of a unit is issued: it leaves the queue, and waits among the issued for its writes to be sent. -/
def Mach.unitWritten (m : Mach) (c seq : Nat) (u : Unit) : Mach :=
  let x := m.chan c
  let x : Chan := { x with queue := x.queue.filter fun v => v.seq != some seq, issued := x.issued ++ [{ unit := { u with noted := true }, seq := seq }] }
  let m := m.setChan c { x with hw := if m.chClass c = 1 then x.hw else x.ringIndex }
  let m := m.inc E.UNITS c
  let m := if u.skip then m.inc E.SHUFFLE_SKIPPED c else m
  let m := (m.unitEnded u seq (some u.data) u.skip false).chanEvent c 1 seq
  ((m.advance c seq).fetchDesc c).markHead c

/-- Issue the writes of unit `seq` while credit lets them go; its place grows as far as the descriptors held allow. -/
def Mach.issueWrites (c seq : Nat) : Nat → Mach → Mach
  | 0, m => m
  | n + 1, m =>
    match (m.chan c).queue.find? fun u => u.seq == some seq with
    | none => m
    | some u =>
      match u.plan[u.done]? with
      | some p => if m.limiterLets c u p.write.data.length then Mach.issueWrites c seq n (m.issueWrite c u p) else m
      | none => if u.data.length ≤ u.placed then m.unitWritten c seq u else m

/-- Issue the write-backs that wait, in their order, while credit lets them go (R349, R356, R362). -/
def Mach.issueBacks (c : Nat) : Nat → Mach → Mach
  | 0, m => m
  | n + 1, m =>
    match (m.chan c).redo with
    | [] => m
    | p :: ps =>
      let blank : Unit := { kind := 0, data := [] }
      if m.mayRequest && m.rd E.ENGINE_STATE == 0 && m.limiterLets c blank p.write.data.length then
        let m := ((m.charge c blank p.write.data.length).inc E.BYTES c p.write.data.length)
        let m := { m with ep.writes := m.ep.writes ++ [p.write] }
        let x := m.chan c
        let m := m.setChan c { x with redo := ps, hw := if p.closes then (x.hw + 1) % 2 ^ 32 else x.hw }
        Mach.issueBacks c n (if p.event then m.chanEvent c 2 p.write.seq else m)
      else m

/-- A unit starts (R339, R404): it takes its SEQ, its bytes stand, its wait is over, and the delivery log names it. -/
def Mach.startUnit (m : Mach) (c : Nat) (u : Unit) (status : Nat) : Nat × Mach :=
  let (seq, m) := m.takeSeq c u
  let (data, skip) := m.unitBytesNow c u seq status
  let m := if u.seq.isNone then m.logUnit c u seq false (if u.kind = 1 ∨ u.kind = 2 ∨ u.kind = 7 then data else []) else m
  let m := match u.headAt with | some h => m.peak E.CH_WAIT_PEAK c (m.ns - h) | none => m
  let v : Unit := { u with seq := some seq, data := data, skip := skip, built := true }
  let x := m.chan c
  (seq, m.setChan c { x with queue := v :: eraseUnit u x.queue })

/-- Go on with a channel's head unit (R339, R344, R347, R356): it starts if it has no place, takes its place as far as it can,
and its writes are issued while credit lets them go. -/
def Mach.issueUnit (m : Mach) (c : Nat) (u : Unit) (status : Nat) : Mach :=
  let r := if u.placed = 0 then m.startUnit c u status else (u.seq.getD 0, m)
  match (r.2.chan c).queue.find? fun v => v.seq == some r.1 with
  | none => r.2
  | some v =>
    let m := r.2.placeUnit c r.1 v
    let n := ((m.chan c).queue.map fun (w : Unit) => w.plan.length).sum
    Mach.issueWrites c r.1 (n + 1) m

end Sys2Proof.Machine
end

