-- ==== Sys2Proof/Machine/Dma.lean ====
section
/-! DEFINITION. Commands of the DMA engine: starting and stopping channels (R340, R341, R346), descriptors (R342,
R343, R345), decision entries (R348), issue and drop of units (R339, R349), veneers (R127, R350, R354), bus errors and
their recovery (R359 to R361), and the drain of a power-down (R363). -/

namespace Sys2Proof.Machine

/-! ### Channel states (R340, R341) -/

/-- Every channel asks for what it needs next, and waiting reads are issued (R331, R345, R348). -/
def Mach.kick (m : Mach) : Mach :=
  let m := m.each (m.chans.map Prod.fst) fun c m => (m.fetchDesc c).fetchEntries c
  Mach.issueReads (m.ep.waiting.length + 1) m

/-- The host has provided nothing that the channel could go on with: no descriptor beyond the tail, or no ring room for its head unit (R340, R345,
R347). -/
def Mach.unprovided (m : Mach) (c : Nat) : Bool :=
  let x := m.chan c
  if m.chClass c = 1 then x.descs.isEmpty && x.atTail && !x.doorbell && !x.fetching
  else m.toHostC c && (m.headUnit c).any fun u => decide (u.placed = 0) && decide (m.ringSlots c < x.fill + m.slotsOf c u.data.length)

/-- Channels in HELD resume when nothing stands against it, and the engine goes on; one that is provided nothing waits at once (R329, R340, R362). -/
def Mach.resume (m : Mach) : Mach :=
  let held := (m.chans.filter fun x => x.2.state == 3).map Prod.fst
  let m := (m.resumeChannels.kick).flushMsix
  m.each held fun c m => if (m.chan c).state = 1 ∧ m.unprovided c = true then m.setChan c { m.chan c with state := 2 } else m

/-- A unit meets a ring whose fill is greater than its slots (R347): counted once for each unit. -/
def Mach.meetRing (m : Mach) (c : Nat) (u : Unit) : Mach :=
  let x := m.chan c
  if m.toHostC c ∧ m.ringSlots c < x.fill ∧ u.met = false then
    (m.setChan c { x with queue := x.queue.map fun (v : Unit) => if v = u then { v with met := true } else v }).inc E.INDEX_ERRORS c
  else m

/-- The engine restarts behind the last probe (R360). -/
def Mach.restartEngine (m : Mach) : Mach :=
  let e := m.engine
  let m := if e.parked then m else m.inc E.RECOVERIES_BLIND 0
  let m := (m.wr E.LAST_RECOVERY 0 (m.ns - e.since)).wr E.ENGINE_STATE 0 0
  let m := m.each (m.chans.map Prod.fst) fun c m => m.setChan c { m.chan c with stopped := false }
  ({ m with engine := {} }).resume

/-- A channel that has gone to IDLE since the stop reads nothing more and is not probed (R341, R360). -/
def Mach.probed (m : Mach) (c : Nat) : Bool := (m.chan c).state == 1 || (m.chan c).state == 2 || (m.chan c).state == 5

/-- The next probe is issued alone (R360), or the engine restarts. -/
def Mach.nextProbe (m : Mach) : Mach :=
  match m.engine.probes.dropWhile fun c => !m.probed c with
  | [] => { m with engine := { m.engine with probes := [] } }.restartEngine
  | c :: cs =>
    let m := { m with engine := { m.engine with probes := c :: cs } }
    let x := m.chan c
    let addr := if m.chClass c = 1 then x.fetch else m.rd E.CH_ADDR c + x.hw % m.ringSlots c * m.slotBytes c
    (m.wr E.ENGINE_STATE 0 2).askRead { chan := c, what := .probe, addr := addr, len := 32 }

/-- The probe's read, while it is wanted. -/
def Mach.probeRead (m : Mach) : Option HostRead :=
  m.ep.reads.find? fun r => r.wanted && (match r.what with | .probe => true | _ => false)

/-- The reads of a channel are no longer wanted. -/
def Mach.cancelReads (m : Mach) (c : Nat) : Mach :=
  { m with ep.reads := m.ep.reads.map (fun (r : HostRead) => if r.chan = c then { r with wanted := false } else r)
           ep.waiting := m.ep.waiting.filter fun r => r.chan != c }

/-- A channel enters IDLE (R341): SEQ_NEXT and its queue stay; a unit in progress starts afresh with its SEQ. -/
def Mach.toIdle (m : Mach) (c : Nat) : Mach :=
  let m := m.cancelReads c
  let x := m.chan c
  m.setChan c { x with state := 0, doorbell := false, fetching := false, atTail := false, descs := [], off := 0, alloc := x.hw,
                       stopped := false, queue := x.queue.map Unit.afresh }

/-- A channel starts (R340): RUN, or HELD while the module may not master host memory (notes/assumptions/24.md). -/
def Mach.startChan (m : Mach) (c : Nat) : Mach :=
  let x := m.chan c
  let m := m.setChan c { x with state := if m.mayRequest then 1 else 3, doorbell := false, fetch := m.rd E.CH_ADDR c, atTail := false,
                                descs := [], off := 0, alloc := x.hw, error := 0, queue := x.queue.map Unit.afresh }
  (((m.fillLimiter c).markHead c).fetchDesc c).fetchEntries c

/-- The host gave a Class C channel room or entries: TAIL_WAIT ends (R340, R347, R348). -/
def Mach.provided (m : Mach) (c : Nat) : Mach :=
  if m.toHostC c then
    let x := m.chan c
    let fits : Bool := match m.headUnit c with
      | some u => decide (x.fill + m.slotsOf c u.data.length ≤ m.ringSlots c)
      | none => true
    if x.state = 2 ∧ fits = true then m.setChan c { x with state := 1 } else m
  else m.fetchEntries c

/-- The value of SW_INDEX (R321, R346). -/
def Mach.setSw (m : Mach) (c v : Nat) : Mach := (m.setChan c { m.chan c with sw := v }).provided c

/-- A doorbell (R340, R345, R346). -/
def Mach.ring (m : Mach) (c v : Nat) : Mach :=
  let k := m.chClass c
  let m := if k = 2 then m.setSw c v else m
  let st := (m.chan c).state
  if k = 0 then m
  else if st = 0 then m.startChan c
  else
    let m := m.setChan c { m.chan c with doorbell := k == 1, state := if st = 4 then (if m.mayRequest then 1 else 3) else st }
    (m.fetchDesc c).fetchEntries c

/-- A host write of DOORBELL (0) or SW_INDEX (1) (R403, R406): the active module passes it on; a module that follows
ignores its own host. -/
def Mach.hostRing (m : Mach) (c reg v : Nat) : Mach :=
  m.barWrite fun m =>
    if m.follows then m.inc E.STANDBY_WRITES 0
    else
      let m := if m.leads then m.pairSend 0x66 2 0 0 (leBytes 4 c ++ leBytes 4 reg ++ leBytes 4 v) else m
      if reg = 0 then m.ring c v else m.setSw c v

/-- DOORBELL (R340, R345, R346). -/
def execDoorbell (c v : Nat) (s : State) : Host.Outcome State Fault Refusal :=
  s.onMach (c < 128) fun m => m.hostRing c 0 (v % 2 ^ 32)

/-- SW_INDEX (R321, R346). -/
def execSwIndex (c v : Nat) (s : State) : Host.Outcome State Fault Refusal :=
  s.onMach (c < 128) fun m => m.hostRing c 1 (v % 2 ^ 32)

/-- The channel being probed has gone to IDLE: its probe ends with it, and the next follows (R341, R360). -/
def Mach.leaveProbe (m : Mach) (c : Nat) : Mach :=
  if m.rd E.ENGINE_STATE = 2 ∧ m.engine.probes.head? = some c ∧ (m.chan c).state = 0 then m.nextProbe else m

/-- A DRAINING channel whose unit in progress has ended goes to IDLE (R340). -/
def Mach.settle (m : Mach) (c : Nat) : Mach :=
  let x := m.chan c
  if x.state = 5 ∧ (x.queue.any fun u => decide (0 < u.placed)) = false then (m.toIdle c).leaveProbe c else m

/-- CH_CMD 2, and 3 where it stops: by state (R341). -/
def Mach.stopChan (c : Nat) (m : Mach) : Mach :=
  let st := (m.chan c).state
  if st = 1 ∨ st = 2 then (m.setChan c { m.chan c with state := 5 }).settle c else m.toIdle c

/-- CH_CMD by a path (R341). -/
def Mach.chCmd (m : Mach) (path c k : Nat) : Mach :=
  let st := (m.chan c).state
  let ok := if k = 1 then st == 0 else if k = 2 then st == 1 || st == 2 || st == 3 else st == 1 || st == 2 || st == 3 || st == 4
  m.command path (0x5800 + c) 0x0D [BitVec.ofNat 8 k] ok fun m =>
    if k = 1 then (if m.chClass c = 0 then m else m.startChan c) else (m.stopChan c).leaveProbe c

/-- CH_CMD_START (R341). -/
def execChCmdStart (path c : Nat) (s : State) : Host.Outcome State Fault Refusal :=
  s.onMach (path < 5 ∧ c < 128) fun m => m.chCmd path c 1

/-- CH_CMD_STOP (R341). -/
def execChCmdStop (path c : Nat) (s : State) : Host.Outcome State Fault Refusal :=
  s.onMach (path < 5 ∧ c < 128) fun m => m.chCmd path c 2

/-- CH_CMD_RELEASE (R341). -/
def execChCmdRelease (path c : Nat) (s : State) : Host.Outcome State Fault Refusal :=
  s.onMach (path < 5 ∧ c < 128) fun m => m.chCmd path c 3

/-! ### What reads bring (R342 to R345, R348) -/

/-- A descriptor from its 32 bytes, and whether a clamp changed a field (R342, R343). -/
def parseDesc (addr : Nat) (b : Bytes) : Desc × Bool :=
  let w2 := leAt b 8 4
  let buf := leAt b 0 8
  let len := bitsOf w2 24 0
  let l := Nat.min 16777216 (Nat.max 64 len) / 64 * 64
  let next := leAt b 16 8
  let w6 := leAt b 24 4
  ({ addr := addr, buf := buf / 64 * 64, len := l, pack := bitOf w2 25, event := bitOf w2 26, next := next / 32 * 32, link := bitOf w6 0 },
   decide (buf % 64 ≠ 0 ∨ l ≠ len ∨ next % 32 ≠ 0 ∨ w2 / 2 ^ 27 ≠ 0 ∨ w6 / 2 ≠ 0))

/-- The engine goes on behind a descriptor (R345). -/
def Chan.follow (x : Chan) (d : Desc) : Chan :=
  if d.link then { x with fetch := d.next, atTail := false } else { x with fetch := d.addr, atTail := true }

/-- A new descriptor arrives (R342, R343, R345). -/
def Mach.gotDesc (m : Mach) (c addr : Nat) (b : Bytes) : Mach :=
  let (d, clamped) := parseDesc addr b
  let m := (if clamped then m.inc E.DESC_CLAMPS c else m).setChan c { m.chan c with tailClamp := clamped }
  let m := m.inc E.BYTES c 32
  let x := m.chan c
  if 0 < x.off ∧ x.descs.isEmpty ∧ (d.pack = false ∨ d.len < x.off + 64) then
    -- behind a takeover: units that the old active wrote have used this buffer (R406)
    (m.setChan c (({ x with fetching := false, off := x.off - d.len } : Chan).follow d)).fetchDesc c
  else
    let x := ({ x with fetching := false, descs := x.descs ++ [d], state := if x.state = 2 then 1 else x.state } : Chan).follow d
    ((m.setChan c x).growPlace c).fetchDesc c

/-- The tail arrives again (R345): its link is followed when it is there now. A clamp that its first reading
needed not is counted (R343). -/
def Mach.gotTail (m : Mach) (c addr : Nat) (b : Bytes) : Mach :=
  let (d, clamped) := parseDesc addr b
  let m := m.inc E.BYTES c 32
  let m := if clamped && !(m.chan c).tailClamp then m.inc E.DESC_CLAMPS c else m
  let x := m.chan c
  let x : Chan := { x with fetching := false, tailClamp := x.tailClamp || clamped, descs := x.descs.map fun (e : Desc) => if e.addr = addr then { e with next := d.next, link := d.link } else e }
  (m.setChan c (x.follow d)).fetchDesc c

/-- Decision slots arrive (R348): each is accepted and passed on with its ring index. -/
def Mach.gotEntries (m : Mach) (c idx n : Nat) (b : Bytes) : Mach :=
  let x := m.chan c
  let sb := m.slotBytes c
  let l := (List.range n).map fun i => ((idx + i) % 2 ^ 32, (b.drop (i * sb)).take sb)
  let m := m.setChan c { x with fetching := false, hw := (x.hw + n) % 2 ^ 32, entries := x.entries ++ l, state := if x.state = 2 then 1 else x.state }
  (m.inc E.BYTES c (n * sb)).fetchEntries c

/-- RING_ENTRY_FETCH (R348): the engine reads the available slots of a from-host ring. -/
def execRingEntryFetch (c : Nat) (s : State) : Host.Outcome State Fault Refusal :=
  s.onMach (c < 128) fun m => m.fetchEntries c

/-! ### Issue and drop of units -/

/-- The head unit finds no descriptor beyond the tail, or no ring room: TAIL_WAIT (R340, R345). -/
def Mach.tailWait (m : Mach) (c : Nat) (u : Unit) : Mach :=
  let m := m.meetRing c u
  let x := m.chan c
  if x.state = 1 ∧ m.unprovided c = true then m.setChan c { x with state := 2 } else m.fetchDesc c

/-- A logged unit begins at its logged POINT and OFFSET (R414): where the channel stands elsewhere, it goes there. -/
def Mach.reseat (m : Mach) (c : Nat) (u : Unit) : Mach :=
  match u.at_ with
  | none => m
  | some (point, off) =>
    let x := m.chan c
    if 0 < u.placed then m
    else if m.chClass c = 1 then
      let there : Bool := match x.descs with
        | d :: _ => d.addr == point && x.off == off
        | [] => x.fetch == point && !x.atTail && x.off == off
      if there then m
      else
        let m := m.cancelReads c
        (m.setChan c { m.chan c with descs := [], fetch := point, atTail := false, fetching := false, off := off }).fetchDesc c
    else m.setChan c { x with alloc := point % 2 ^ 32 }

/-- Issue what a channel and its limiter can take of a unit, else the channel waits. -/
def Mach.tryIssue (m : Mach) (c : Nat) (u : Unit) (status : Nat) : Mach :=
  if m.canTake c u then (if m.limiterLets c u (m.nextLength c u) then (m.issueUnit c u status).settle c else m) else m.tailWait c u

/-- The unit has waited at the head of its channel's queue for SPACE_WAIT (R349). -/
def Mach.waitedOut (m : Mach) (c : Nat) (u : Unit) : Bool :=
  match u.headAt with
  | some h => decide (h + m.rd E.SPACE_WAIT c * 1000 ≤ m.ns)
  | none => false

/-- What goes before a channel's head unit: the write-backs that wait, and its logged place. -/
def Mach.headBacks (m : Mach) (c : Nat) : Mach :=
  let m := Mach.issueBacks c (m.chan c).redo.length m
  match m.headUnit c with
  | some u => m.reseat c u
  | none => m

/-- UNIT_ISSUE (R339, R344, R347, R356): the head unit of a channel; a veneer only where it was written once and discarded (R362). -/
def execUnitIssue (c : Nat) (s : State) : Host.Outcome State Fault Refusal :=
  s.onMach (c < 128) fun m =>
    let m := m.headBacks c
    match m.headUnit c with
    | none => m
    | some u => if (u.kind = 1 ∨ u.kind = 2) ∧ u.noted = false then m else (m.tryIssue c u 0).offerVeneers u.stream

/-- SPACE_WAIT (R349): the head unit of a channel that cannot take it is dropped. -/
def execSpaceWait (c : Nat) (s : State) : Host.Outcome State Fault Refusal :=
  s.onMach (c < 128) fun m =>
    match m.headUnit c with
    | none => m
    | some u => m.when (!m.canTake c u && m.waitedOut c u) fun m => ((m.dropUnit c u false).settle c).offerVeneers u.stream

/-! ### Veneers (R115, R127, R350, R354) -/

/-- A condition failed within the last `since` ns. -/
def Mach.failedWithin (m : Mach) (since : Nat) : Option Nat → Bool
  | some n => decide (m.ns ≤ n + since)
  | none => false

/-- Some island is in recovery (R474). -/
def Mach.recovering (m : Mach) : Bool := (List.range 0x36).any fun i => m.rd E.ISLAND_STATE i == 2

/-- The cause of a miss (R127). `stall` is the longest time in ns for which the host has withheld posted-write credits since the stripe's close
(R124 cause 1). -/
def Mach.missCause (m : Mach) (s : Nat) (d : Deliv) (t : TW64) (stall : Nat) : Nat :=
  let x := m.strm s
  let since := twAfter t d.close / 256
  if d.why.contains 4 then 4
  else if d.why.contains 3 then 3
  else if Terms.creditStall d.terms < stall then 1
  else if m.failedWithin since m.fail2 then 2
  else if m.failedWithin since x.routeLost then 6
  else if d.why.contains 7 ∨ m.failedWithin since x.phaseLost then 7
  else if m.failedWithin since m.fail8 ∨ m.recovering then 8
  else if m.failedWithin since m.pair.tookAt ∧ m.rd E.BOUND_NS s + 120000 < since then 5
  else 9

/-- The delivery time of a stripe is measured as its veneer is posted at `t` (R115, R127). -/
def Mach.measure (m : Mach) (s : Nat) (d : Deliv) (t : TW64) (stall : Nat) : Bool × Mach :=
  let late : Bool := decide (m.rd E.BOUND_NS s * 256 < twAfter t d.close)
  let m := m.peak E.WORST_SEEN s (twAfter t d.close / 256)
  (late, if late then (m.inc E.MISSES s).wr E.LAST_MISS_CAUSE s (m.missCause s d t stall) else m)

/-- VENEER_POST (R350): the veneer of a stream's oldest unposted stripe, at instant `t`; `stall` as for `missCause`. -/
def execVeneerPost (k : Nat) (t : TW64) (stall : Nat) (s : State) : Host.Outcome State Fault Refusal :=
  s.onMach (k < 256) fun m =>
    match (m.strm k).delivs.find? fun d => !d.posted with
    | none => m
    | some d =>
      let c := Terms.dma d.terms 0
      let m := m.headBacks c
      match m.headUnit c with
      | none => m
      | some u =>
        if u.kind = 1 ∧ u.stream = k ∧ u.deliv = d.id then
          if m.canTake c u = false then m.tailWait c u
          else if m.limiterLets c u (m.nextLength c u) = false then m
          else
            let r := if u.built = false then m.measure k d t stall else (false, m)
            ((r.2.issueUnit c u (d.status ||| bn r.1 * 128)).settle c).offerVeneers k
        else m

/-- The trailer of a delivery is its channel's head unit. -/
def Mach.trailerHead (m : Mach) (k : Nat) (d : Deliv) : Bool :=
  (m.headUnit (Terms.dma d.terms 0)).any fun u => u.kind == 2 && u.stream == k && u.deliv == d.id

/-- TRAILER_VENEER (R354): of the stream's first stripe whose trailer is due. -/
def execTrailerVeneer (k : Nat) (_t : TW64) (s : State) : Host.Outcome State Fault Refusal :=
  s.onMach (k < 256) fun m =>
    match (m.strm k).delivs.find? fun d => d.posted && decide (d.lateLeft = 0) && m.trailerHead k d with
    | none => m
    | some d =>
      let c := Terms.dma d.terms 0
      let m := m.headBacks c
      match m.headUnit c with
      | none => m
      | some u => m.tryIssue c u (d.lateStatus / 4 * 4)

/-! ### Bus errors (R359 to R361) -/

/-- End the queued units of a channel that `which` names, each as the queue then holds it (R349, R363). -/
def Mach.endAll (c : Nat) (which : Unit → Bool) (f : Mach → Unit → Mach) : Nat → Mach → Mach
  | 0, m => m
  | n + 1, m =>
    match (m.chan c).queue.find? which with
    | some u => Mach.endAll c which f n (f m u)
    | none => m

/-- A channel parks (R360): its units are dropped at once (R349). -/
def Mach.park (m : Mach) (c code : Nat) : Mach :=
  let m := (m.setChan c { m.chan c with state := 4, error := code, stopped := false }).inc E.PARKS c
  let m := m.cause 3
  let q := (m.chan c).queue
  let m := Mach.endAll c (fun _ => true) (fun m u => m.dropUnit c u false) q.length m
  m.each (q.map Unit.stream).dedup fun s m => m.offerVeneers s

/-- A bus error (R359): the engine stops every channel, abandons its reads and probes. -/
def Mach.busError (m : Mach) : Mach :=
  let l := (List.range 128).filter fun c =>
    let st := (m.chan c).state
    (st = 1 ∨ st = 2) ∧ (m.chClass c = 1 ∨ (m.chClass c = 2 ∧ m.rd E.RING_DIR c = 1))
  let m := (m.abandonReads.inc E.BUS_ERRORS 0).wr E.ENGINE_STATE 0 1
  let m := m.each (List.range 128) fun c m =>
    let x := m.chan c
    if x.state = 1 ∨ x.state = 2 then m.setChan c { x with stopped := true } else m
  ({ m with engine := { probes := l, since := m.ns }, fail2 := some m.ns }).nextProbe

/-- The probe of the first channel has ended, with CH_ERROR `code` or 0 (R360). -/
def Mach.probeEnd (m : Mach) (code : Nat) : Mach :=
  match m.engine.probes with
  | [] => m
  | c :: cs =>
    let m := { m with engine := { m.engine with probes := cs, parked := m.engine.parked || decide (code ≠ 0) } }
    let m := if code = 0 then m else m.park c code
    m.nextProbe

/-- PROBE_COMPLETE (R360): status 0 success, 1 UR, otherwise CA. -/
def execProbeComplete (status : Nat) (_data : Bytes) (s : State) : Host.Outcome State Fault Refusal :=
  s.onMach true fun m =>
    match m.probeRead with
    | none => m
    | some r =>
      let m := { m with ep.reads := m.ep.reads.filter fun k => k.tag != r.tag }
      m.probeEnd (if status = 0 then 0 else if status = 1 then 1 else 2)

/-- PROBE_TIMEOUT (R360): the read, abandoned, stays outstanding under R330. -/
def execProbeTimeout (s : State) : Host.Outcome State Fault Refusal :=
  s.onMach true fun m =>
    match m.probeRead with
    | none => m
    | some r =>
      let m := { m with ep.reads := m.ep.reads.map fun (k : HostRead) => if k.tag = r.tag then { k with wanted := false } else k }
      m.probeEnd 3

/-- A recovery ends without a restart (R361). -/
def Mach.endRecovery (m : Mach) : Mach :=
  if m.rd E.ENGINE_STATE = 0 then m
  else
    let m := m.each (m.chans.map Prod.fst) fun c m => m.setChan c { m.chan c with stopped := false }
    ({ m with engine := {} }).wr E.ENGINE_STATE 0 0

/-! ### The drain of a power-down (R363) -/

/-- Abort a queued unit at the drain limit. -/
def Mach.abortUnit (m : Mach) (c : Nat) (u : Unit) : Mach :=
  let m := (m.inc E.DRAIN_ABORTS 0).dropUnit c u true
  m.setChan c { m.chan c with error := 4 }

/-- A drain has run too long (R363): units that remain are aborted; the veneers of their stripes follow on channels that still
run, and channels in DRAINING go to IDLE. -/
def Mach.cutDrains (m : Mach) : Mach :=
  let on := fun (c : Nat) => m.rd E.MODULE_STATE == 8 || (m.chan c).state == 5
  let m := m.each ((List.range 128).filter on) fun c m =>
    let stays := (m.chan c).state == 1
    Mach.endAll c (fun u => !(stays && (u.kind == 1 || u.kind == 2))) (fun m u => m.abortUnit c u) (m.chan c).queue.length m
  let m := m.each (m.streams.map Prod.fst) fun s m => m.offerVeneers s
  m.each (List.range 128) fun c m => if (m.chan c).state = 5 then (m.toIdle c).leaveProbe c else m

/-- DRAIN_TIMEOUT (R363). -/
def execDrainTimeout (s : State) : Host.Outcome State Fault Refusal :=
  s.onMach true fun m => m.when (m.rd E.MODULE_STATE == 8 || m.chans.any fun x => x.2.state == 5) Mach.cutDrains

end Sys2Proof.Machine
end

