-- ==== Sys2Proof/Machine/Codec.lean ====
section
/-! DEFINITION. The model's own layout of what SYNC_DATA carries (R418, notes/assumptions/17.md): numbers in order, each as a
byte count and that many little-endian bytes; a list as its length and its elements. -/

namespace Sys2Proof.Machine

/-- Numbers as bytes. -/
def wordsBytes (l : List Nat) : Bytes := l.flatMap fun n => let k := n.log2 / 8 + 1; BitVec.ofNat 8 k :: leBytes k n

/-- Bytes as numbers. -/
def bytesWords : Nat → Bytes → List Nat
  | 0, _ => []
  | _, [] => []
  | fuel + 1, k :: b => leNat (b.take k.toNat) :: bytesWords fuel (b.drop k.toNat)

/-! ### Writing -/

def encB (b : Bool) : List Nat := [bn b]
def encI (i : Int) : List Nat := [if 0 ≤ i then 2 * i.toNat else 2 * i.natAbs - 1]
def encL {α : Type} (f : α → List Nat) (l : List α) : List Nat := l.length :: l.flatMap f
def encO {α : Type} (f : α → List Nat) : Option α → List Nat
  | none => [0]
  | some a => 1 :: f a
def encN (n : Nat) : List Nat := [n]
def encBytes (b : Bytes) : List Nat := encL (fun x => [BitVec.toNat x]) b
def encNs (l : List Nat) : List Nat := encL encN l

def encSlot (x : SetSlot) : List Nat :=
  encBytes x.params ++ [x.tag, x.seq] ++ encO (fun k => [k.1, k.2]) x.fromRow ++ encO (fun k => [k.1, k.2]) x.pend ++
    [bn x.uncertain, bn x.sure, bn x.atNext, bn x.write]

def encStamp (x : RowStamp) : List Nat := [x.row, x.time.toNat, x.pos, x.frame, x.line]

def encObj (x : Obj) : List Nat :=
  [x.order, x.a, x.sx, x.sy, x.x0, x.x1, x.y0, x.y1] ++ encNs x.sum ++ encNs x.sq ++ encNs x.mn ++ encNs x.mx ++ [x.flags] ++
    encO encN x.reserved ++ encL (fun k => [k.1, k.2.1, k.2.2]) x.runs

def encPlace (x : Place) : List Nat := [x.n0, x.row, x.first, x.behind] ++ encO encN x.bottom ++ encNs x.terms ++
  [x.prof.pw, x.prof.ph, x.prof.phase, x.prof.sigBits, x.prof.outCh]

def encStamped (x : Stamped) : List Nat :=
  encObj x.obj ++ [x.rc] ++ encStamp x.first ++ encStamp x.last ++ encStamp x.centroid ++ [x.key] ++ encO encPlace x.place

def encCutRow (x : CutRow) : List Nat := [x.row] ++ encL encNs x.px ++ [x.time.toNat, x.pos, x.frame, x.line, bn x.bad]

def encCut (x : Cut) : List Nat :=
  encL encNs x.bg.b ++ encNs x.bg.fg ++ [x.bg.k] ++ encL (fun k => k.1 :: encL encB k.2) x.raw ++ encL encCutRow x.rows ++
    encL (fun k => [k.1, k.2.1, k.2.2]) x.labels ++ encL encObj x.objs ++ [x.nextOrder, bn x.episode, x.seq] ++
    encL encStamp x.stamps ++ encO encPlace x.place ++ [x.s0, bn x.fresh]

def encRef (x : TRef) : List Nat := [x.frame, x.inst, x.slot] ++ encL (encO (encL encI)) x.rows

def encAcc (x : StatAcc) : List Nat :=
  [x.frame, x.inst, x.line, x.rows, x.tag, x.seq, x.cond] ++ encL encNs x.hist ++ encNs x.low ++ encNs x.high ++ encNs x.sum ++
    encNs x.cnt ++ encNs x.sharp ++ [bn x.sat]

def encCtx (x : PlanerCtx) : List Nat := encO encRef x.tref ++ encO encRef x.trefNew ++ encO encAcc x.acc ++ encCut x.cut

def encVal : Val → List Nat
  | .num n => [0, n]
  | .bytes b => 1 :: encBytes b

/-! ### Reading -/

/-- A reader takes words from the front; past the end it reads 0. -/
abbrev Rd (α : Type) := StateM (List Nat) α

def rdN : Rd Nat := fun w => match w with | [] => (0, []) | a :: t => (a, t)
def rdB : Rd Bool := do return (← rdN) == 1
def rdI : Rd Int := do let n ← rdN; return if n % 2 = 0 then ((n / 2 : Nat) : Int) else -(((n + 1) / 2 : Nat) : Int)
def rdT : Rd TW64 := do return BitVec.ofNat 64 (← rdN)
def rdMany {α : Type} (f : Rd α) : Nat → Rd (List α)
  | 0 => return []
  | n + 1 => do let a ← f; let l ← rdMany f n; return a :: l
/-- A list; no longer than the words that are left. -/
def rdL {α : Type} (f : Rd α) : Rd (List α) := do let n ← rdN; let w ← get; rdMany f (min n w.length)
def rdO {α : Type} (f : Rd α) : Rd (Option α) := do if (← rdN) = 1 then return some (← f) else return none
def rdBytes : Rd Bytes := rdL (do return BitVec.ofNat 8 (← rdN))
def rdNs : Rd (List Nat) := rdL rdN
def rdPair : Rd (Nat × Nat) := do let a ← rdN; let b ← rdN; return (a, b)
def rdTriple : Rd (Nat × Nat × Nat) := do let a ← rdN; let b ← rdN; let c ← rdN; return (a, b, c)

def rdSlot : Rd SetSlot := do
  let params ← rdBytes; let tag ← rdN; let seq ← rdN
  let fromRow ← rdO rdPair; let pend ← rdO rdPair
  let uncertain ← rdB; let sure ← rdB; let atNext ← rdB; let write ← rdB
  return { params, tag, seq, write, fromRow, pend, uncertain, sure, atNext }

def rdStamp : Rd RowStamp := do
  let row ← rdN; let time ← rdT; let pos ← rdN; let frame ← rdN; let line ← rdN
  return { row, time, pos, frame, line }

def rdObj : Rd Obj := do
  let order ← rdN; let a ← rdN; let sx ← rdN; let sy ← rdN
  let x0 ← rdN; let x1 ← rdN; let y0 ← rdN; let y1 ← rdN
  let sum ← rdNs; let sq ← rdNs; let mn ← rdNs; let mx ← rdNs
  let flags ← rdN; let reserved ← rdO rdN; let runs ← rdL rdTriple
  return { order, a, sx, sy, x0, x1, y0, y1, sum, sq, mn, mx, flags, reserved, runs }

def rdPlace : Rd Place := do
  let n0 ← rdN; let row ← rdN; let first ← rdN; let behind ← rdN; let bottom ← rdO rdN; let terms ← rdNs
  let pw ← rdN; let ph ← rdN; let phase ← rdN; let sigBits ← rdN; let outCh ← rdN
  return { n0, row, first, behind, bottom, terms, prof := { pw, ph, phase, sigBits, outCh } }

def rdStamped : Rd Stamped := do
  let obj ← rdObj; let rc ← rdN; let first ← rdStamp; let last ← rdStamp; let centroid ← rdStamp; let key ← rdN
  let place ← rdO rdPlace
  return { obj, rc, first, last, centroid, key, place }

def rdCutRow : Rd CutRow := do
  let row ← rdN; let px ← rdL rdNs; let time ← rdT; let pos ← rdN; let frame ← rdN; let line ← rdN; let bad ← rdB
  return { row, px, time, pos, frame, line, bad }

def rdCut : Rd Cut := do
  let b ← rdL rdNs; let fg ← rdNs; let k ← rdN
  let raw ← rdL (do let n ← rdN; let l ← rdL rdB; return (n, l))
  let rows ← rdL rdCutRow; let labels ← rdL rdTriple; let objs ← rdL rdObj
  let nextOrder ← rdN; let episode ← rdB; let seq ← rdN
  let stamps ← rdL rdStamp; let place ← rdO rdPlace; let s0 ← rdN; let fresh ← rdB
  return { bg := { b, fg, k }, raw, rows, labels, objs, nextOrder, episode, seq, stamps, place, s0, fresh }

def rdRef : Rd TRef := do
  let frame ← rdN; let inst ← rdN; let slot ← rdN; let rows ← rdL (rdO (rdL rdI))
  return { frame, inst, slot, rows }

def rdAcc : Rd StatAcc := do
  let frame ← rdN; let inst ← rdN; let line ← rdN; let rows ← rdN; let tag ← rdN; let seq ← rdN; let cond ← rdN
  let hist ← rdL rdNs; let low ← rdNs; let high ← rdNs; let sum ← rdNs; let cnt ← rdNs; let sharp ← rdNs; let sat ← rdB
  return { frame, inst, line, rows, tag, seq, cond, hist, low, high, sum, cnt, sharp, sat }

def rdCtx : Rd PlanerCtx := do
  let tref ← rdO rdRef; let trefNew ← rdO rdRef; let acc ← rdO rdAcc; let cut ← rdCut
  return { tref, trefNew, acc, cut }

def rdVal : Rd Val := do if (← rdN) = 0 then return .num (← rdN) else return .bytes (← rdBytes)

end Sys2Proof.Machine
end

