-- ==== Sys2Proof/Machine/Ports.lean ====
section
/-! DEFINITION. Commands of the camera ports: linking and identity (R74 to R78), register transactions (R81 to
R88), triggers' and beacons' ACKs (R90 to R96), camera events (R106), and reception under the checks of R101. -/

namespace Sys2Proof.Machine

/-! ### Linking and identity -/

/-- The port's quad is a fabric quad. -/
def Mach.isFabricPort (m : Mach) (p : Nat) : Bool := m.rd E.QUAD_ROLE (p / 4) == 2

/-- LINK_OFFER payload (R75). -/
def Mach.linkOffer (m : Mach) (p : Nat) : Bytes :=
  leBytes 8 (m.rd E.MODULE_EUI) ++ leBytes 4 (p + 128 * bn m.paired) ++ leBytes 4 (m.rd E.BEACON_PERIOD)

/-- LINK_OFFER_SEND (R74, R78): a LINKED port without a valid IDENTITY, or a FAULTED port. -/
def execLinkOfferSend (p : Nat) (s : State) : Host.Outcome State Fault Refusal :=
  s.onMach (p < 96) fun m =>
    m.when (!m.isFabricPort p && (m.rd E.PORT_STATE p == 7 || (m.linked p && !(m.port p).ident))) fun m =>
      m.queueDown p { pri := 5, dt := 0x38, payload := m.linkOffer p }

/-- IDENTITY_TIMEOUT (R78). -/
def execIdentityTimeout (p : Nat) (s : State) : Host.Outcome State Fault Refusal :=
  s.onMach (p < 96) fun m =>
    m.when (!m.isFabricPort p && m.rd E.PORT_STATE p == 4 && !(m.port p).ident) fun m => m.portFault p 1

/-- Charge a control packet of `len` payload bytes to the control bucket (R105): whether it is accepted. -/
def Mach.chargeControl (m : Mach) (p len : Nat) : Bool × Mach :=
  let x := m.port p
  let fill := Nat.min 2000000 (x.ctlFill + (m.ns - x.ctlT))
  let cost := 1000 * (len + 33)
  if cost ≤ fill then (true, m.setPort p { x with ctlFill := fill - cost, ctlT := m.ns })
  else (false, (m.setPort p { x with ctlFill := fill, ctlT := m.ns }).inc E.CTRL_EXCESS p)

/-- IDENTITY meets R77 but for PROTO. -/
def identityFits (pay : Bytes) : Bool :=
  let w5 := leAt pay 20 4
  (!bitOf w5 9 || decide (8 ≤ bitsOf w5 31 24)) && decide (1024 ≤ leAt pay 28 2)

/-- An IDENTITY of a port, its payload checked and charged (R77, R78). -/
def Mach.onIdentity (m : Mach) (p : Nat) (pay : Bytes) : Mach :=
  let st := m.rd E.PORT_STATE p
  if leAt pay 20 1 ≠ 1 then (if st = 7 then m else m.portFault p 2)
  else if st ≠ 7 ∧ m.rd E.CAM_IDENTIFIED p = 1 ∧ (m.rdB E.CAM_IDENTITY p).take 16 ≠ pay.take 16 then m.portFault p 3
  else if identityFits pay = false then m
  else
    let m := (m.wr E.CAM_IDENTIFIED p 1).wrB E.CAM_IDENTITY p (pay.take 64)
    let m := m.setPort p { m.port p with heard := true, ident := true }
    if st = 7 then (m.wr E.PORT_STATE p 4).wr E.PORT_FAULT p 0 else m

/-! ### Register transactions -/

/-- REG_CMD by a path (R85, R86): busy transactions keep it without effect. Behind the Bench's own transaction it waits, busy, and REG_DATA of
another length is filled with zeros or cut (notes/assumptions/51.md). -/
def Mach.regCmd (m : Mach) (path p kind : Nat) : Mach :=
  m.command path (0x2800 + p) 4 [BitVec.ofNat 8 kind] (m.rd E.REG_STATUS p != 1) fun m =>
    let n := m.rd E.REG_COUNT p
    let d := m.rdB E.REG_DATA p
    let m := m.wr E.REG_STATUS p 1
    m.regAsk p { kind := kind, addr := m.rd E.REG_ADDR p, count := n,
                 data := (d ++ zeros (4 * n)).take (4 * n) }

/-- REG_CMD_READ (R85). -/
def execRegCmdRead (path p : Nat) (s : State) : Host.Outcome State Fault Refusal :=
  s.onMach (path < 5 ∧ p < 96) fun m => m.regCmd path p 1

/-- REG_CMD_WRITE (R85). -/
def execRegCmdWrite (path p : Nat) (s : State) : Host.Outcome State Fault Refusal :=
  s.onMach (path < 5 ∧ p < 96) fun m => m.regCmd path p 2

/-- REG_CMD_SETTINGS_WRITE (R86). -/
def execRegCmdSettingsWrite (path p : Nat) (s : State) : Host.Outcome State Fault Refusal :=
  s.onMach (path < 5 ∧ p < 96) fun m => m.regCmd path p 3

/-- REG_BUCKET_READY (R84). -/
def execRegBucketReady (p : Nat) (s : State) : Host.Outcome State Fault Refusal :=
  s.onMach (p < 96) fun m => m.regGo p

/-- The row `n` lines after (f, l) in line order (R151). -/
def RxCfg.linesAfter (c : RxCfg) : Nat → Nat → Nat → Nat × Nat
  | 0, f, l => (f, l)
  | n + 1, f, l => let r := c.after f l; c.linesAfter n r.1 r.2

/-- From-row of a settings write by its EXEC (R151). -/
def Mach.execRow (m : Mach) (t : Terms) (f l : Nat) : Nat × Nat :=
  let n := m.latency t
  if t.area then ((f + n) % 2 ^ 32, 0) else t.rxCfg.linesAfter n f l

/-- A settings write with tag `tag` of stream `s` takes its from-row by EXEC, for a camera that does not echo
(R151, R152). -/
def Mach.bindExec (m : Mach) (s tag f l : Nat) : Mach :=
  let x := m.strm s
  let t : Terms := x.cur
  if m.echoes t then m
  else
    let row := m.execRow t f l
    let last := x.writeSlot tag
    let m := m.setStrm s (x.onSlots fun k =>
      some (if some k.seq = last then { k with fromRow := some row, pend := none, sure := true } else k))
    let late := match x.lastBound with
      | some b => t.rxCfg.notAfter row b
      | none => false
    if late then m.inc E.LATE_BINDS s else m

/-- A waiting settings write of a port goes on once every stream of it has a free slot, under the checks of its start (R85, R149). -/
def Mach.resumeSettings (m : Mach) (p : Nat) : Mach :=
  let x := m.port p
  match x.reg with
  | some t =>
    if t.phase = 0 ∧ m.slotsFree p then Mach.regPump (x.regQ.length + 2) p (m.setPort p { x with reg := none, regQ := t :: x.regQ }) else m
  | none => m

/-- A REG_RESPONSE that matches the outstanding request (R88). -/
def Mach.onResponse (m : Mach) (p : Nat) (t : RegTxn) (pay : Bytes) : Mach :=
  let st := bitsOf (leAt pay 0 4) 23 16
  let m := m.wr E.REG_CAM_STATUS p st
  let m :=
    if st ≠ 0 then
      let m := m.regStatus p t 3
      if t.kind = 3 then m.onSlots p t.tag fun _ _ => none else m
    else
      let m := m.regStatus p t 2
      if t.kind = 1 then m.wrB E.REG_DATA p ((pay.drop 16).take (4 * t.count))
      else if t.kind = 3 then
        let f := leAt pay 8 4
        let l := leAt pay 12 4
        let m := (m.wr E.LAST_EXEC p (f * 2 ^ 32 + l)).wr E.TAG_UNCERTAIN p 0
        let m := m.each (m.streamsOn p) fun s m => m.bindExec s t.tag f l
        m.setNotice p 2 t.tag fun _ => leBytes 4 f ++ leBytes 4 l ++ zeros 8
      else if t.kind = 4 then
        let bits := leNat t.data
        let m := m.setPort p { m.port p with vcEnable := bits }
        let on := (m.runningOn p).any fun s => bitOf bits (Terms.vc (m.force s))
        if on ∧ m.rd E.PORT_STATE p = 4 then (m.wr E.PORT_STATE p 5).portFollow p else m
      else m
  m.regNext p

/-- REG_TIMEOUT (R81, R82): a resend, which a write needs authority for (R85); after the last the transaction fails and the port goes to
FAULTED. -/
def Mach.regTimeout (m : Mach) (p : Nat) (t : RegTxn) : Mach :=
  if t.resends < m.rd E.REG_RETRIES then
    if t.kind ≠ 1 ∧ m.auth = false then m.regBarred p t
    else
      let m := m.setPort p { m.port p with reg := some { t with phase := 1, resends := t.resends + 1 } }
      (m.inc E.REG_RESENDS p).regSend p
  else
    let m := m.regStatus p t 4
    let m := m.inc E.REG_FAILURES p
    let m := if t.kind = 3 then m.settingsLost p t else m
    let m := if m.linked p then m.portFault p 4 else m
    m.regNext p

/-- REG_TIMEOUT (R81). -/
def execRegTimeout (p : Nat) (s : State) : Host.Outcome State Fault Refusal :=
  s.onMach (p < 96) fun m =>
    match (m.port p).reg with
    | some t => m.when (t.phase == 2) fun m => m.regTimeout p t
    | none => m

/-! ### Triggers and beacons -/

/-- An ACK to a trigger (R90, R92, R260): a resend that waits for the link is not sent. -/
def Mach.onTrigAck (m : Mach) (p : Nat) (g : TrigPend) (st : Nat) : Mach :=
  let x := m.port p
  let m := m.setPort p { x with trigs := x.trigs.filter fun (k : TrigPend) => k.tid != g.tid
                                tx := x.tx.filter fun (k : DownPkt) => !(k.dt == 0x3B && leAt k.payload 0 2 == g.tid) }
  let late := st == 1 || st == 4 || st == 5
  let m := if late then m.inc E.TRIG_LATE p else if st = 2 ∨ st = 6 then m.inc E.TRIG_FULL p else m
  if late ∧ g.mg < 32 ∧ g.immediate = false then
    let m := m.inc E.TRIG_LATE_ACKS g.mg
    if m.rd E.MG_MODE g.mg = 5 then m.wr E.MG_STATE g.mg (putBit (m.rd E.MG_STATE g.mg) 7 true) else m
  else m

/-- An ACK to the outstanding beacon, stamped T4 (R95, R96). -/
def Mach.onBeaconAck (m : Mach) (p : Nat) (b : Beacon) (pay : Bytes) (t4 : TW64) : Mach :=
  let t2 : TW64 := BitVec.ofNat 64 (leAt pay 4 8)
  let t3 : TW64 := BitVec.ofNat 64 (leAt pay 12 8)
  let rt : Int := ((t4 - b.t1) - (t3 - t2)).toInt
  let d := patternOf 32 (asr (rt + 1) 1 + m.rdI E.ASYM_CORR p)
  let m := m.wr E.LINK_DELAY p d
  let used := if b.delayValid then b.delay else d
  let m := m.wrI E.CAM_OFFSET p (t2 - b.t1 - BitVec.ofNat 64 used).toInt
  m.setPort p { m.port p with beacon := none, delayValid := true }

/-- An ACK (R90, R105): unmatched ones are unsolicited. -/
def Mach.onAck (m : Mach) (p : Nat) (pay : Bytes) (t4 : TW64) : Mach :=
  let id := leAt pay 0 2
  let dt := bitsOf (leAt pay 0 4) 21 16
  let st := leAt pay 3 1
  if dt = 0x3B then
    match (m.port p).trigs.find? fun g => g.tid == id && (g.sent || decide (0 < g.resends)) with
    | some g => m.onTrigAck p g st
    | none => m.inc E.UNSOLICITED p
  else if dt = 0x3C then
    match (m.port p).beacon with
    | some b => if b.bid = id ∧ b.sent then m.onBeaconAck p b pay t4 else m.inc E.UNSOLICITED p
    | none => m.inc E.UNSOLICITED p
  else m.inc E.UNSOLICITED p

/-- TRIGGER_ACK_TIMEOUT (R92): up to 3 resends; then the trigger is lost (R260). Without authority nothing is resent (R262). -/
def execTriggerAckTimeout (p tid : Nat) (s : State) : Host.Outcome State Fault Refusal :=
  s.onMach (p < 96) fun m =>
    match (m.port p).trigs.find? fun g => g.tid == tid && g.sent with
    | none => m
    | some g =>
      let x := m.port p
      if g.resends < 3 ∧ m.auth = false then m.holdTrig p g
      else if g.resends < 3 then
        let m := m.setPort p { x with trigs := x.trigs.map fun (k : TrigPend) =>
          if k.tid = tid then { k with resends := k.resends + 1, sent := false } else k }
        (m.inc E.TRIG_RESENDS p).queueDown p
          { pri := if g.immediate then 1 else 2, dt := 0x3B, retry := true, payload := g.payload }
      else
        let m := m.setPort p { x with trigs := x.trigs.filter fun (k : TrigPend) => k.tid != tid }
        if g.mg < 32 then m.inc E.TRIG_LOST g.mg else m

/-- A fresh beacon with a new BID (R95). -/
def Mach.newBeacon (m : Mach) (p tries : Nat) : Mach :=
  let x := m.port p
  let m := m.setPort p { x with nextBid := (x.nextBid + 1) % 65536, beaconTries := tries,
                                beacon := some { bid := x.nextBid, t1 := 0, delayValid := x.delayValid, delay := 0 } }
  let m := m.setPort p { m.port p with tx := (m.port p).tx.filter fun (k : DownPkt) => k.dt != 0x3C }
  m.queueDown p { pri := 3, dt := 0x3C, payload := [] }

/-- BEACON_SEND (R95): on a LINKED or higher port. A FAULTED port is sent none: DESIGN CHOICE (notes/assumptions/58.md). -/
def execBeaconSend (p : Nat) (s : State) : Host.Outcome State Fault Refusal :=
  s.onMach (p < 96) fun m => m.when (!m.isFabricPort p && m.linked p && (m.port p).heard) fun m => m.newBeacon p 0

/-- BEACON_ACK_TIMEOUT (R95). -/
def execBeaconAckTimeout (p bid : Nat) (s : State) : Host.Outcome State Fault Refusal :=
  s.onMach (p < 96) fun m =>
    match (m.port p).beacon with
    | none => m
    | some b =>
      m.when (b.bid == bid && b.sent) fun m =>
        let m := m.inc E.BEACON_MISSES p
        if (m.port p).beaconTries < 3 then m.newBeacon p ((m.port p).beaconTries + 1)
        else m.setPort p { m.port p with beacon := none }

/-! ### Reception (R63, R66, R101, R105) -/

/-- A received packet's parts after R63 and the header checks. -/
structure Hdr where
  vc : Nat
  dt : Nat
  uplink : Nat
  last : Bool
  frame : Nat
  line : Nat
  tag : Nat
  offset : Nat
  ctime : Nat
  payload : Bytes
  /-- The payload CRC is right. -/
  crcOk : Bool
  deriving DecidableEq, Repr

/-- Fields of the 24-byte header (R65) and the payload of LEN bytes. -/
def readHdr (b : Bytes) : Hdr :=
  let w0 := leAt b 0 4
  let len := bitsOf w0 31 16
  let pay := (b.drop 24).take len
  { vc := bitsOf w0 3 0, dt := bitsOf w0 9 4, uplink := bitsOf w0 10 10, last := bitOf w0 11, frame := leAt b 4 4,
    line := leAt b 8 4, tag := leAt b 12 2, offset := leAt b 14 2, ctime := leAt b 16 4, payload := pay,
    crcOk := len == 0 || crc32c pay == leAt b (24 + len) 4 }

/-- The packet is as long as its LEN and fill let it be (R63). -/
def lengthFits (b : Bytes) : Bool :=
  let len := bitsOf (leAt b 0 4) 31 16
  let need := 24 + len + (if len = 0 then 0 else 4)
  decide (need ≤ b.length ∧ b.length ≤ need + 3)

/-- HCRC of a 24-byte header is right (R66). -/
def headerOk (b : Bytes) : Bool := crc16 (b.take 22) == leAt b 22 2

/-- POS that a stream's lines take now (R217). -/
def Mach.posNow (m : Mach) (src : Nat) : Nat := if src < 8 then m.rd E.COUNT src else 0

/-- The stream of a port and VC whose contract is RUNNING and enabled (R101 check 4). -/
def Mach.findStream (m : Mach) (p vc : Nat) : Option Nat :=
  (m.runningOn p).find? fun s => (m.strm s).enabled && Terms.vc (m.force s) == vc

/-- MAX_PACKET of the port's camera (R76, R101 check 9). -/
def Mach.maxPacket (m : Mach) (p : Nat) : Nat :=
  if m.rd E.CAM_IDENTIFIED p = 1 then leAt (m.rdB E.CAM_IDENTITY p) 28 2 else 65535

/-- The terms under which the next line of a stream is received: the new ones from the apply point on (R128). -/
def Mach.rxTerms (m : Mach) (s : Nat) : Terms :=
  let x := m.strm s
  if x.applyAt ∧ x.stripe = none ∧ x.rx.asm = none ∧ (Terms.area x.cur = false ∨ x.newSeq) then m.force s else x.cur

/-- Send one line of a forward entry as LINE frames (R382): fragments of at most 2,048 bytes. -/
def Mach.sendFragments (m : Mach) (x : Fwd) (l : LineOut) (stamp : Bytes) : Nat → Nat → Bytes → Mach
  | 0, _, _ => m
  | fuel + 1, off, b =>
    let part := b.take 2048
    let rest := b.drop 2048
    let a := l.tag % 65536 + bn rest.isEmpty * 2 ^ 16 + bn (l.missing || l.refused) * 2 ^ 17 + bn l.damaged * 2 ^ 18 +
      bn l.refused * 2 ^ 19
    let m := (m.sendTo x.node 2 0x30 a off (stamp ++ part) x.flow).2
    if rest.isEmpty then m else m.sendFragments x l stamp fuel (off + part.length) rest

/-- A line of forward entry `k` leaves for its processing node (R379, R382). -/
def Mach.forwardLine (m : Mach) (k : Nat) (l : LineOut) : Mach :=
  let x := m.fwds.get {} k
  let t : Terms := x.terms
  let b := if l.missing then [] else packBits t.bits l.pixels
  let stamp := leBytes 8 l.time.toNat ++ leBytes 8 l.arr.toNat ++ leBytes 4 l.pos ++ leBytes 4 l.frame ++
    leBytes 4 l.line ++ zeros 4
  (m.sendFragments x l stamp (b.length / 2048 + 2) 0 b).inc E.FWD_LINES k

/-- Carry out what reception of a forward entry answers: it counts in its own entries alone (R379). -/
def applyFwd (k : Nat) (m : Mach) : List RxOut → Mach
  | [] => m
  | .line l :: os => applyFwd k (m.forwardLine k l) os
  | .rateDrop :: os =>
    let x := m.fwds.get {} k
    applyFwd k ({ m with fwds := SMap.set {} m.fwds k { x with refusedAt := m.ns } }.inc E.FWD_RATE_DROPS k) os
  | .squall _ :: os => applyFwd k (m.portFollow (let x := m.fwds.get {} k; x.port)) os
  | _ :: os => applyFwd k m os

/-- The position channel of the stamp of line (f, l) as its first header arrives (R217, R237): that of the area frame or of the stripe in which the line
lies where that is open, else the one that POS_SRC names now. -/
def Mach.posSource (m : Mach) (s f l : Nat) : Nat :=
  let x := m.strm s
  let t := m.rxTerms s
  let n := t.rxCfg.lines x.rx.frame x.rx.line f l
  let ahead := n.toNat + bn x.rx.asm.isSome
  let now := m.rd E.POS_SRC s
  if t.area then (if x.frameNo = some f then x.frameCut.posSrc else now)
  else match x.stripe with
    | some p => if n ≤ 1024 ∧ p.rows + ahead * t.rowsPerLine < t.height p.row0 then p.cut.posSrc else now
    | none => now

/-- A pixel packet or frame marker (R101 from check 4 on). -/
def onPixel (h : Memory) (m : Mach) (p : Nat) (k : Hdr) (bad : Bool) (t1 t2 : TW64) : Memory × Mach :=
  let pk : PixPkt := { dt := k.dt, last := k.last, frame := k.frame, line := k.line, tag := k.tag, offset := k.offset,
                       ctime := k.ctime, payload := k.payload, bad := bad, first := t1, lastByte := t2 }
  match m.findStream p k.vc with
  | some s =>
    let t := m.rxTerms s
    let c : RxCfg := { t.rxCfg with maxPacket := m.maxPacket p, linkDelay := m.rd E.LINK_DELAY p,
                                    pos := m.posNow (m.posSource s k.frame k.line) }
    let r := (m.strm s).rx.packet c pk
    let m := m.setStrm s { m.strm s with rx := r.1 }
    let hm := applyRx s r.2 (h, m)
    (hm.1, ((hm.2.showPolice s).portFollow p))
  | none =>
    match (m.fwdsOf p).find? fun x => Terms.vc x.2.terms == k.vc with
    | some (i, x) =>
      let t : Terms := x.terms
      let c : RxCfg := { t.rxCfg with maxPacket := m.maxPacket p, linkDelay := m.rd E.LINK_DELAY p,
                                      pos := m.posNow x.posSrc }
      let r := x.rx.packet c pk
      (h, applyFwd i { m with fwds := SMap.set {} m.fwds i { x with rx := r.1 } } r.2)
    | none => (h, m.inc E.UNKNOWN_VC p)

/-- A camera event, checked and charged (R106). -/
def Mach.onCamEvent (m : Mach) (p : Nat) (pay : Bytes) (t : TW64) : Mach :=
  let w0 := leAt pay 0 4
  let m := (m.inc E.CAM_EVENTS p).wr E.LAST_CAM_EVENT p w0
  m.produce 6 p (m.rd E.CAM_EC p) w0 t

/-- A control packet whose payload is right (R105). Its LEN is not held against R67: bytes that are not there read as 0
(notes/assumptions/51.md). -/
def Mach.onControl (m : Mach) (p : Nat) (k : Hdr) (t : TW64) : Mach :=
  if k.dt = 0x31 then
    match (m.port p).reg with
    | some r => if r.phase = 2 ∧ r.tid = leAt k.payload 0 2 then m.onResponse p r k.payload else m.inc E.UNSOLICITED p
    | none => m.inc E.UNSOLICITED p
  else if k.dt = 0x32 then m.onAck p k.payload t
  else
    let r := m.chargeControl p k.payload.length
    if r.1 = false then r.2
    else if k.dt = 0x30 then r.2.onIdentity p k.payload
    else r.2.onCamEvent p k.payload t

/-- Data types that a camera sends (R67). -/
def cameraDt (dt : Nat) : Bool := [0x01, 0x02, 0x08, 0x09, 0x0A, 0x0B, 0x0C, 0x30, 0x31, 0x32, 0x33].contains dt

/-- Reception of one upstream packet with its damage marks and the stamps of its first and last byte (R63, R66,
R78, R101, R105). The far end's first valid packet (R74) is one with a right header and a known DT, and a control packet's payload must be right
too: DESIGN CHOICE (notes/assumptions/58.md). -/
def receive (p : Nat) (b : Bytes) (hdrDamaged payDamaged : Bool) (t1 t2 : TW64) (h : Memory) (m : Mach) : Memory × Mach :=
  let m := m.setPort p { m.port p with rx := (m.port p).rx.eraseP fun k => k.bytes == b }
  if m.talking p = false ∨ m.isFabricPort p then (h, m)
  else if b.length < 24 then (h, m.inc E.FRAMING_ERRORS p)
  else if hdrDamaged ∨ headerOk b = false then (h, m.inc E.HCRC_ERRORS p)
  else if lengthFits b = false then (h, m.inc E.FRAMING_ERRORS p)
  else
    let k := readHdr b
    if m.rd E.PORT_STATE p = 7 ∧ k.dt ≠ 0x30 then (h, m)
    else if cameraDt k.dt = false then (h, m.inc E.UNKNOWN_DT p)
    else
      let bad := payDamaged || !k.crcOk
      if 0x30 ≤ k.dt ∧ bad = true then (h, m.inc E.CTRL_CRC_ERRORS p)
      else
        let m := (m.setPort p { m.port p with heard := true }).wr E.CAM_UPLINK p k.uplink
        if 0x30 ≤ k.dt then (h, m.onControl p k t1) else onPixel h m p k bad t1 t2

/-- IDENTITY (R77). -/
def execIdentity (p : Nat) (b : Bytes) (hd pd : Bool) (t : TW64) (s : State) : Host.Outcome State Fault Refusal :=
  s.onAll (p < 96) (receive p b hd pd t t)

/-- PIXEL_PACKET (R101). -/
def execPixelPacket (p : Nat) (b : Bytes) (hd pd : Bool) (t1 t2 : TW64) (s : State) : Host.Outcome State Fault Refusal :=
  s.onAll (p < 96) (receive p b hd pd t1 t2)

/-- REG_RESPONSE (R88). -/
def execRegResponse (p : Nat) (b : Bytes) (hd pd : Bool) (t : TW64) (s : State) : Host.Outcome State Fault Refusal :=
  s.onAll (p < 96) (receive p b hd pd t t)

/-- ACK (R90). -/
def execAck (p : Nat) (b : Bytes) (hd pd : Bool) (t : TW64) (s : State) : Host.Outcome State Fault Refusal :=
  s.onAll (p < 96) (receive p b hd pd t t)

/-- CAM_EVENT (R106). -/
def execCamEvent (p : Nat) (b : Bytes) (hd pd : Bool) (t : TW64) (s : State) : Host.Outcome State Fault Refusal :=
  s.onAll (p < 96) (receive p b hd pd t t)

/-- The forwarded flows in squall whose buckets have refused nothing for SQUALL_CALM leave it (R104, R379). -/
def Mach.calmFwds (m : Mach) : Mach :=
  let calm := m.fwds.filter fun x => x.2.rx.squall && decide (x.2.refusedAt + m.rd E.SQUALL_CALM * 1000 ≤ m.ns)
  calm.foldl (fun m x => { m with fwds := SMap.set {} m.fwds x.1 { x.2 with rx := { x.2.rx with squall := false } } }.portFollow x.2.port) m

/-- SQUALL_CALM (R104): no refusal for SQUALL_CALM, and the stream leaves squall. -/
def execSquallCalm (k : Nat) (s : State) : Host.Outcome State Fault Refusal :=
  s.onMach (k < 256) fun m =>
    m.when (m.strm k).rx.squall fun m =>
      let m := m.setStrm k { m.strm k with rx := { (m.strm k).rx with squall := false } }
      let m := (m.showPolice k).squallEvent k 0 m.now
      m.portFollow (Terms.port (m.force k))

/-- STREAM_ABSENT (R104). -/
def execStreamAbsent (k : Nat) (s : State) : Host.Outcome State Fault Refusal :=
  s.onMach (k < 256) fun m =>
    m.when (m.strm k).enabled fun m =>
      (m.setStrm k { m.strm k with rx := { (m.strm k).rx with absent := true } }).showPolice k

end Sys2Proof.Machine
end

