-- ==== Sys2Proof/Machine/Stages.lean ====
section
/-! DEFINITION. The arithmetic of stages 1 to 10 of a planer on one stripe (R137, R140, R159 to R211): a pure
function of the rows that the stripe reads, the sets bound to them, the profile and the tables. -/

namespace Sys2Proof.Machine

/-! ### Sets and rows -/

/-- A frame-parameter set (R169, R195). -/
structure Params where
  bl : Array Nat
  bn : Array Nat
  ng : Array Nat
  no : Array Nat
  wb : Array Nat
  mx : Array Int
  mo : Array Int

/-- `n` little-endian numbers of `k` bytes from offset `o`. -/
def numbersAt (b : Bytes) (o k n : Nat) : Array Nat := ((List.range n).map fun i => leAt b (o + k * i) k).toArray

/-- The fields of a set's 512 bytes (R169, R195). -/
def readParams (b : Bytes) : Params :=
  { bl := numbersAt b 0 2 16, bn := numbersAt b 32 2 16, ng := numbersAt b 64 2 16,
    no := (numbersAt b 96 4 16).map fun n => n % 2 ^ 24, wb := numbersAt b 160 2 8,
    mx := (numbersAt b 256 2 64).map (signedOf 16), mo := (numbersAt b 384 4 8).map (signedOf 32) }

/-- A row that a stripe reads, after R140. -/
structure SrcRow where
  px : Array Nat
  set : Params
  /-- Its slot's sequence number and tag. -/
  seq : Nat
  tag : Nat
  /-- Replaced under R140. -/
  replaced : Bool
  damaged : Bool

/-- What stages 1 to 5 of a stripe read. -/
structure Ctx where
  prof : Profile
  area : Bool
  /-- Rows per line, bits per pixel, pixels per row. -/
  r : Nat
  bits : Nat
  w : Nat
  /-- The row at the top edge; the first row behind the bottom edge; rows from `have_` on are supplied by R137. -/
  first : Nat
  edge : Nat
  have_ : Nat
  /-- Number of the first of the rows at hand, and the rows. -/
  lo : Nat
  rows : Array SrcRow
  /-- Flat field: WIDTH, HEIGHT and the entries' bytes; and the defect map's entries. -/
  ffW : Nat
  ffH : Nat
  ff : Array Byte
  dm : List (Nat × Nat)
  /-- The rows of the temporal reference in use (R147). -/
  tref : Option (Array (Array Int))

/-- The edge rule on 0 to n − 1 with period `ph` (R137). -/
def edgeSrc (i : Int) (n ph : Nat) : Nat :=
  let j : Int := if i < 0 then i + (ph * cdiv (-i).toNat ph : Nat)
    else if (n : Int) ≤ i then i - (ph * cdiv (i - n + 1).toNat ph : Nat) else i
  (clampInt j 0 ((n : Int) - 1)).toNat

/-- The row of the sequence that supplies row `y` (R137, R139). -/
def Ctx.rowSrc (c : Ctx) (y : Int) : Nat :=
  if y < c.first ∨ (c.have_ : Int) ≤ y then c.first + edgeSrc (y - c.first) (c.edge - c.first) c.prof.ph else y.toNat

/-- The column that supplies column `x` (R137). -/
def Ctx.colSrc (c : Ctx) (x : Int) : Nat := edgeSrc x c.w c.prof.pw

/-- The row at hand with number `n`; the last of them where there is none. -/
def Ctx.row (c : Ctx) (n : Nat) : SrcRow :=
  c.rows.getD (n - c.lo) ⟨#[], readParams [], 0, 0, true, false⟩

/-- PHASE_X and PHASE_Y (R162). -/
def Profile.px (p : Profile) : Nat := p.phase % 4
/-- See `Profile.px`. -/
def Profile.py (p : Profile) : Nat := p.phase / 4 % 4

/-- sy of R162. -/
def Profile.siteRow (p : Profile) (y : Int) : Nat := ((y + p.py) % (p.ph : Int)).toNat

/-- The site of column `x` and row `y` (R162). -/
def Profile.site (p : Profile) (x y : Int) : Nat := p.siteRow y * p.pw + ((x + p.px) % (p.pw : Int)).toNat

/-- The band of a site (R162, R163). -/
def Profile.bandOf (p : Profile) (site : Nat) : Nat :=
  let b := (p.pattern.getD site 0).toNat % 8
  if b < p.bands then b else 0

/-- Is a band below BANDS carried by no site (R163)? -/
def Profile.missing (p : Profile) (c : Nat) : Bool := !((List.range (p.pw * p.ph)).any fun k => p.bandOf k == c)

/-- BANDS_MISSING (R163). -/
def Profile.missingMask (p : Profile) : Nat :=
  (List.range p.bands).foldl (fun r c => if p.missing c then r + 2 ^ c else r) 0

/-- Stage 1 (R168). -/
def Profile.unpack (p : Profile) (bits v : Nat) : Nat :=
  let sb := if p.sigBits = 0 then bits else (clampInt p.sigBits 8 bits).toNat
  Nat.min v (2 ^ sb - 1) * 2 ^ (16 - sb)

/-- Is a source position a mapped defect (R173, R178)? -/
def Ctx.isDefect (c : Ctx) (row col : Nat) : Bool :=
  c.dm.contains (if c.area then row else row % c.r, col)

/-! ### Stage 2 (R165, R166, R171 to R176) -/

/-- First and second ring of neighbours (R166). -/
def rings (pw ph : Int) : List (Int × Int) × List (Int × Int) :=
  if ph < 4 then
    ([(-pw, 0), (pw, 0), (0, -ph), (0, ph)], [(-pw, -ph), (pw, -ph), (-pw, ph), (pw, ph)])
  else ([(-pw, 0), (pw, 0)], [(-2 * pw, 0), (2 * pw, 0)])

/-- Step 2a at a position, with whether it is a mapped defect (R167, R171). -/
def Ctx.normal (c : Ctx) (x y : Int) : Int × Bool :=
  let sr := c.rowSrc y
  let sc := c.colSrc x
  let row := c.row sr
  let k := c.prof.site x y
  let u := c.prof.unpack c.bits (row.px.getD sc 0)
  let d : Int := (u : Int) - row.set.bl.getD k 0
  (clampInt (asr (d * row.set.bn.getD k 0 + 8192) 14) (-8192) 65535, c.isDefect sr sc)

/-- The noise model at site `k` (R172). -/
def Params.var (p : Params) (k : Nat) (m : Int) : Int :=
  asr ((p.ng.getD k 0 : Int) * max m 0 + 128) 8 + p.no.getD k 0

/-- What a pixel's noise stage counts (R173, R174, R176, R181): bit 0 replaced, 1 unrepaired, 2 high, 3 low,
4 motion, 5 clipped at 0, 6 clipped at 65,535. -/
abbrev Marks := Nat

/-- Least and greatest of a list with at least one member. -/
def leastOf (d : Int) (l : List Int) : Int := l.foldl min d
/-- See `leastOf`. -/
def mostOf (d : Int) (l : List Int) : Int := l.foldl max d

/-- Step 2b (R173). -/
def step2b (n : Int) (own : Bool) (r1 r2 : List (Int × Bool)) : Int × Marks :=
  if own then
    let a := (r1.filter fun v => !v.2).map Prod.fst
    let b := if a.isEmpty then (r2.filter fun v => !v.2).map Prod.fst else a
    if b.isEmpty then (n, 2) else (rdiv (b.foldl (· + ·) 0) b.length, 1)
  else (n, 0)

/-- Step 2c (R174). -/
def step2c (k : Nat) (s : Params) (outK : Nat) (x : Int) (vs : List Int) : Int × Marks :=
  match vs with
  | a :: _ :: _ =>
    let lo := leastOf a vs
    let hi := mostOf a vs
    let k2 : Int := (outK * outK : Nat)
    if hi < x ∧ k2 * s.var k hi < (x - hi) * (x - hi) * 256 then (hi, 4)
    else if x < lo ∧ k2 * s.var k lo < (lo - x) * (lo - x) * 256 then (lo, 8)
    else (x, 0)
  | _ => (x, 0)

/-- Step 2d (R175). -/
def step2d (k : Nat) (s : Params) (snrK str : Nat) (x : Int) (vs : List Int) : Int :=
  let t := asr ((snrK * snrK : Nat) * s.var k x) 8
  let r := vs.foldl (fun (acc : Int × Int) v =>
    let q := (v - x) * (v - x)
    let w : Int := if 4 * q ≤ t then 4 else if q ≤ t then 2 else if q ≤ 4 * t then 1 else 0
    (acc.1 + w * v, acc.2 + w)) (4 * x, 4)
  let y := rdiv r.1 r.2
  x + asr ((y - x) * str + 128) 8

/-- Step 2e (R176). -/
def step2e (k : Nat) (s : Params) (tnrK alpha : Nat) (x r : Int) : Int × Marks :=
  let t := asr ((tnrK * tnrK : Nat) * s.var k x) 8
  let q := (x - r) * (x - r)
  let a : Int := if q ≤ t then alpha else if q ≤ 4 * t then ((alpha + 257) / 2 : Nat) else 256
  (r + asr ((x - r) * a + 128) 8, if q ≤ 4 * t then 0 else 16)

/-- A grid of values over rows `y0 …` and columns `x0 …`. -/
structure Grid (α : Type) where
  x0 : Int
  y0 : Int
  a : Array (Array α)

/-- The value at (x, y). -/
def Grid.at {α : Type} (d : α) (g : Grid α) (x y : Int) : α :=
  (g.a.getD (y - g.y0).toNat #[]).getD (x - g.x0).toNat d

/-- The grid of `f` over `h` rows and `w` columns. -/
def Grid.of {α : Type} (x0 y0 : Int) (w h : Nat) (f : Int → Int → α) : Grid α :=
  { x0 := x0, y0 := y0, a := ((List.range h).map fun (j : Nat) => ((List.range w).map fun (i : Nat) => f (x0 + (i : Int)) (y0 + (j : Int))).toArray).toArray }

/-- Stage 2 at a position (R173 to R176), from the grid of step 2a. -/
def Ctx.noise (c : Ctx) (g : Grid (Int × Bool)) (x y : Int) : Int × Marks :=
  let p := c.prof
  let k := p.site x y
  let row := c.row (c.rowSrc y)
  let ring := rings p.pw p.ph
  let v := fun (o : Int × Int) => g.at (0, true) (x + o.1) (y + o.2)
  let r1 := ring.1.map v
  let r2 := ring.2.map v
  let self := g.at (0, true) x y
  let b := step2b self.1 (bitOf p.flags 0 && self.2) r1 r2
  let vs := ((r1 ++ r2).filter fun v => !v.2).map Prod.fst
  let o := if bitOf p.flags 1 ∧ 0 < p.outK then step2c k row.set p.outK b.1 vs else (b.1, 0)
  let d := if bitOf p.flags 2 then step2d k row.set p.snrK p.snrStr o.1 vs else o.1
  let e := match c.tref with
    | some t => if bitOf p.flags 3 ∧ c.area then
        step2e k row.set p.tnrK p.tnrAlpha d ((t.getD (c.rowSrc y) #[]).getD (c.colSrc x) 0) else (d, 0)
    | none => (d, 0)
  (e.1, b.2 + o.2 + e.2)

/-! ### Stages 3 and 4 (R180, R181) -/

/-- The flat-field entry of a source position: GAIN and OFFSET (R178, R180). -/
def Ctx.flat (c : Ctx) (sr sc : Nat) : Int × Int :=
  let row := if c.area then sr else c.prof.siteRow sr
  if sc < c.ffW ∧ row < c.ffH then
    let o := 8 + 4 * (row * c.ffW + sc)
    let u := fun (i : Nat) => (c.ff.getD (o + i) 0).toNat
    ((u 0 + 256 * u 1 : Nat), signedOf 16 (u 2 + 256 * u 3))
  else (16384, 0)

/-- Stages 3 and 4 of a stage 2 value. -/
def Ctx.balance (c : Ctx) (x y : Int) (v : Int × Marks) : Int × Marks :=
  let p := c.prof
  let sr := c.rowSrc y
  let f := if bitOf p.flags 4 then
      let e := c.flat sr (c.colSrc x)
      clampInt (asr ((v.1 - e.2) * e.1 + 8192) 14) (-8192) 65535
    else v.1
  let wb : Int := (c.row sr).set.wb.getD (p.bandOf (p.site x y)) 0
  let u := asr (f * wb + 2048) 12
  if u < 0 then (0, v.2 + 32) else if 65535 < u then (65535, v.2 + 64) else (u, v.2)

/-! ### Stage 5 (R182 to R185) -/

/-- Sum of a function over pairs of a list of offsets. -/
def sumInt (l : List Int) : Int := l.foldl (· + ·) 0

/-- The integers from `a` to before `b`. -/
def intRange (a b : Int) : List Int := (List.range (b - a).toNat).map fun (i : Nat) => a + (i : Int)

/-- The directional mode of a pixel: 0 N, 1 H, 2 V (R182). -/
def Profile.mode (p : Profile) (v : Int → Int → Int) (x y : Int) : Nat :=
  if bitOf p.flags 5 = false then 0
  else
    let gh := sumInt ((intRange (y - 1) (y + 2)).flatMap fun j => (intRange (x - p.pw) x).map fun i =>
      ((v (i + p.pw) j - v i j).natAbs : Int))
    let gv := sumInt ((intRange (x - 1) (x + 2)).flatMap fun i => (intRange (y - p.ph) y).map fun j =>
      ((v i (j + p.ph) - v i j).natAbs : Int))
    let h := gh * p.ph
    let g := gv * p.pw
    if 4 * h < 3 * g then 1 else if 4 * g < 3 * h then 2 else 0

/-- The weighted mean M of a band (R183). -/
def Profile.mean (p : Profile) (v : Int → Int → Int) (mode band : Nat) (x y : Int) : Int :=
  let r := (intRange (-p.ph) (p.ph + 1)).foldl (fun acc dj =>
    (intRange (-p.pw) (p.pw + 1)).foldl (fun (acc : Int × Int) di =>
      if p.bandOf (p.site (x + di) (y + dj)) = band then
        let tx : Int := (p.pw : Int) + 1 - di.natAbs
        let ty : Int := (p.ph : Int) + 1 - dj.natAbs
        let w := if mode = 1 then tx * ty ^ 3 else if mode = 2 then tx ^ 3 * ty else tx * ty
        (acc.1 + w * v (x + di) (y + dj), acc.2 + w)
      else acc) acc) ((0 : Int), (0 : Int))
  if r.2 = 0 then 0 else Int.fdiv (2 * r.1 + r.2) (2 * r.2)

/-- KD[c][a] (R184). -/
def Profile.kd (p : Profile) (c a : Nat) : Int := signedOf 16 (leAt p.detail (2 * (8 * c + a)) 2)

/-- The BANDS values of a pixel (R184, R185). -/
def Profile.reconstruct (p : Profile) (v : Int → Int → Int) (x y : Int) : List Nat :=
  let a := p.bandOf (p.site x y)
  let v0 := v x y
  let mode := p.mode v x y
  let ma := if p.pw = 1 ∧ p.ph = 1 then 0 else p.mean v mode a x y
  (List.range p.bands).map fun c =>
    if c = a then v0.toNat
    else if p.missing c ∨ (p.pw = 1 ∧ p.ph = 1) then 0
    else (clampInt (p.mean v mode c x y + asr ((v0 - ma) * p.kd c a + 2048) 12) 0 65535).toNat

/-- What stages 1 to 5 give of a stripe of rows `a` to before `e`: stage 2 rows (for the reference), stage 4 rows and
band values of the output rows up to before `o`, and the marks of their pixels. -/
structure Front where
  stage2 : List (List Int)
  v4 : List (List Nat)
  bands : List (List (List Nat))
  marks : List Marks

/-- Stages 1 to 5 (R160). -/
def Ctx.front (c : Ctx) (a o e : Nat) : Front :=
  let p := c.prof
  let vr := if p.ph < 4 then p.ph else 0
  let hr := if p.ph < 4 then p.pw else 2 * p.pw
  let xo := p.pw + hr
  let h := e - a + 2 * p.ph
  let g := Grid.of (-(xo : Int)) ((a : Int) - p.ph - vr) (c.w + 2 * xo) (h + 2 * vr) c.normal
  let n := Grid.of (-(p.pw : Int)) ((a : Int) - p.ph) (c.w + 2 * p.pw) h (c.noise g)
  let b := Grid.of (-(p.pw : Int)) ((a : Int) - p.ph) (c.w + 2 * p.pw) h fun x y => c.balance x y (n.at (0, 0) x y)
  let v := fun (x y : Int) => (b.at (0, 0) x y).1
  let cols := List.range c.w
  let out := (List.range (o - a)).map (a + ·)
  { stage2 := (List.range (e - a)).map fun j => cols.map fun (x : Nat) => (n.at (0, 0) x ((a + j : Nat) : Int)).1,
    v4 := out.map fun (y : Nat) => cols.map fun (x : Nat) => (v x y).toNat,
    bands := out.map fun (y : Nat) => cols.map fun (x : Nat) => p.reconstruct v x y,
    marks := out.flatMap fun (y : Nat) => cols.map fun (x : Nat) => (b.at (0, 0) x y).2 }

/-- Pixels whose marks have bit `i`. -/
def countMarks (l : List Marks) (i : Nat) : Nat := l.foldl (fun r m => r + bn (bitOf m i)) 0

/-! ### Stages 6 to 8 (R197, R200, R202) -/

/-- Stage 6 of a pixel: the channels, and how many were clamped (R197). -/
def matrixPixel (s : Params) (outCh : Nat) (bands : List Nat) : List Nat × Nat :=
  let r := (List.range outCh).map fun o =>
    let acc := (bands.zipIdx.foldl (fun (r : Int) b => r + s.mx.getD (8 * o + b.2) 0 * b.1) 0) + s.mo.getD o 0 * 4096
    let v := asr (acc + 2048) 12
    let w := clampInt v 0 65535
    (w.toNat, bn (v ≠ w))
  (r.map Prod.fst, r.foldl (fun n x => n + x.2) 0)

/-- Entry i of LUT o of a tone table (R198). -/
def toneEntry (b : Array Byte) (o i : Nat) : Int :=
  let k := 8 + 2 * (4096 * o + i)
  ((b.getD k 0).toNat + 256 * (b.getD (k + 1) 0).toNat : Nat)

/-- Stage 7 of channel `o` (R200). -/
def tonePixel (b : Array Byte) (o v : Nat) : Nat :=
  let i := v / 16
  let f : Int := (v % 16 : Nat)
  let a := toneEntry b o i
  let nxt := if i < 4095 then toneEntry b o (i + 1) else 2 * toneEntry b o 4095 - toneEntry b o 4094
  (clampInt (a + asr ((nxt - a) * f + 8) 4) 0 65535).toNat

/-- K[o][i] and OFF[o] of stage 8 (R201). -/
def Profile.csc (p : Profile) : List Int × List Int :=
  if p.cscMode = 1 then ([3483, 11718, 1183, -1878, -6314, 8192, 8192, -7442, -750], [0, 32768, 32768])
  else if p.cscMode = 2 then ([4899, 9617, 1868, -2765, -5427, 8192, 8192, -6860, -1332], [0, 32768, 32768])
  else ((List.range 9).map fun i => signedOf 16 (leAt p.cscMatrix (2 * i) 2),
        (List.range 3).map fun o => signedOf 32 (leAt p.cscOffset (4 * o) 4))

/-- Stage 8 (R201, R202). -/
def Profile.convert (p : Profile) (t : List Nat) : List Nat :=
  if p.cscMode = 0 ∨ p.outCh < 3 then t
  else
    let k := p.csc
    let c := (List.range 3).map fun o =>
      let acc := (List.range 3).foldl (fun (r : Int) i => r + k.1.getD (3 * o + i) 0 * (t.getD i 0 : Nat)) 0
      (clampInt (asr (acc + 8192) 14 + k.2.getD o 0) 0 65535).toNat
    c ++ t.drop 3

/-- Stages 6 to 8 of a pixel: its channels and the values clamped by stage 6. -/
def Profile.channels (p : Profile) (s : Params) (luts : Nat) (tone : Array Byte) (bands : List Nat) : List Nat × Nat :=
  let m := matrixPixel s p.outCh bands
  let t := m.1.zipIdx.map fun v => if bitOf p.toneMask v.2 ∧ v.2 < luts then tonePixel tone v.2 v.1 else v.1
  (p.convert t, m.2)

/-! ### Stage 10 (R209 to R211) -/

/-- v8 of R209. -/
def narrow8 (v : Nat) : Nat := Nat.min ((v + 128) / 256) 255
/-- v12 of R209. -/
def narrow12 (v : Nat) : Nat := Nat.min ((v + 8) / 16) 4095

/-- One byte. -/
def byte (n : Nat) : Byte := BitVec.ofNat 8 n

/-- YCC422_8 of a row (R210). -/
def ycc422 : List (List Nat) → Bytes
  | [] => []
  | [a] => [byte (narrow8 (a.getD 0 0)), byte (narrow8 (a.getD 1 0)), byte (narrow8 (a.getD 0 0)), byte (narrow8 (a.getD 2 0))]
  | a :: b :: t =>
    [byte (narrow8 (a.getD 0 0)), byte (narrow8 ((a.getD 1 0 + b.getD 1 0 + 1) / 2)), byte (narrow8 (b.getD 0 0)),
     byte (narrow8 ((a.getD 2 0 + b.getD 2 0 + 1) / 2))] ++ ycc422 t

/-- A row of the stripe output, padded to RB bytes (R210, R211). -/
def Profile.packRow (p : Profile) (v4 : List Nat) (ch : List (List Nat)) : Bytes :=
  let b : Bytes := match p.outFormat with
    | 0 => ch.map fun c => byte (narrow8 (c.getD 0 0))
    | 1 => ch.flatMap fun c => leBytes 2 (c.getD 0 0)
    | 2 => ch.flatMap fun c => (List.range p.outCh).map fun o => byte (narrow8 (c.getD o 0))
    | 3 => ch.flatMap fun c => (List.range p.outCh).flatMap fun o => leBytes 2 (c.getD o 0)
    | 4 => packBits 12 (ch.flatMap fun c => (List.range p.outCh).map fun o => narrow12 (c.getD o 0))
    | 5 => ycc422 ch
    | _ => v4.flatMap fun v => leBytes 2 v
  let rb := rowBytesOut v4.length p.outFormat p.outCh
  (b ++ zeros (rb - b.length)).take rb

/-! ### Stage 9 (R203 to R208) -/

/-- sat32 (R205). -/
def sat32 (n : Nat) : Nat := Nat.min n 0xFFFFFFFF

/-- The channels tapped, ascending (R203). -/
def Profile.tapped (p : Profile) : List Nat := (List.range 8).filter fun c => bitOf p.statsCh c

/-- An accumulator of zeros for a record of zone rows `zy` (R205). -/
def StatAcc.zero (p : Profile) (zy : Nat) : StatAcc :=
  let n := p.tapped.length
  let z := p.zonesX * zy
  { hist := List.replicate n (List.replicate 256 0), low := List.replicate n 0, high := List.replicate n 0,
    sum := List.replicate (z * n) 0, cnt := List.replicate z 0, sharp := List.replicate z 0 }

/-- Add `d` at index `i`. -/
def addAt (l : List Nat) (i d : Nat) : List Nat := l.set i (l.getD i 0 + d)
/-- Add 1 at index `i`, stopping at 0xFFFF_FFFF. -/
def satAt (l : List Nat) (i : Nat) : List Nat := l.set i (sat32 (l.getD i 0 + 1))

/-- Tap the value of the `j`-th channel tapped, in zone `z` of `n` channels (R205). -/
def StatAcc.tap (a : StatAcc) (p : Profile) (n z j v : Nat) : StatAcc :=
  { a with
    hist := a.hist.set j (satAt (a.hist.getD j []) (v / 256))
    low := if v ≤ p.clipLo then satAt a.low j else a.low
    high := if p.clipHi ≤ v then satAt a.high j else a.high
    sum := addAt a.sum (z * n + j) v }

/-- Rows of one stripe from its first covered row on: their values by column and channel (R203); an empty array where a row is not covered. -/
abbrev TapRows := Array (Array (Array Nat))

/-- Tap one pixel (R205): `y` is the row's place among them, `zy` its zone row. -/
def StatAcc.pixel (p : Profile) (w n : Nat) (ch : List Nat) (rows : TapRows) (y zy x : Nat) (a : StatAcc) : StatAcc :=
  let v := fun (x y c : Nat) => ((rows.getD y #[]).getD x #[]).getD c 0
  let z := zy * p.zonesX + x * p.zonesX / w
  let a := ch.zipIdx.foldl (fun a c => a.tap p n z c.2 (v x y c.1)) a
  let k := p.sharpCh
  let sharp := if ch.contains k then
      let gh := if 0 < x ∧ x + 1 < w then absd (v (x + 1) y k) (v (x - 1) y k) else 0
      let on := fun (y : Nat) => decide (0 < (rows.getD y #[]).size)
      let gv := if 0 < y ∧ on (y - 1) ∧ on (y + 1) then absd (v x (y + 1) k) (v x (y - 1) k) else 0
      addAt a.sharp z (((gh + gv) / 16) ^ 2)
    else a.sharp
  { a with cnt := addAt a.cnt z 1, sharp := sharp }

/-- Tap the covered rows of a stripe; `zone` gives a row's zone row by its place (R205). -/
def StatAcc.tapRows (a : StatAcc) (p : Profile) (w : Nat) (rows : TapRows) (zone : Nat → Nat) : StatAcc :=
  let ch := p.tapped
  let n := ch.length
  let on := (List.range rows.size).filter fun y => decide (0 < (rows.getD y #[]).size)
  on.foldl (fun a y =>
    (List.range w).foldl (fun a x => StatAcc.pixel p w n ch rows y (zone y) x a) a) { a with rows := a.rows + on.length }

/-- A histogram or clip count stopped at its end (R206). -/
def StatAcc.saturated (a : StatAcc) : Bool :=
  a.hist.any (fun h => h.contains 0xFFFFFFFF) || a.low.contains 0xFFFFFFFF || a.high.contains 0xFFFFFFFF

/-- The statistics record (R207). `kind` 1 stripe, 2 frame. -/
def StatAcc.record (a : StatAcc) (p : Profile) (kind stream profile zy : Nat) : Bytes :=
  let n := p.tapped.length
  let z := p.zonesX * zy
  let hist := if bitOf p.statsEn 0 then a.hist.flatMap fun h => h.flatMap (leBytes 4) else []
  let clip := if bitOf p.statsEn 1 then (List.range n).flatMap fun j => leBytes 4 (a.low.getD j 0) ++ leBytes 4 (a.high.getD j 0)
    else []
  let mean := if bitOf p.statsEn 2 then
      let b := (List.range z).flatMap fun k => (List.range n).flatMap fun j =>
        let c := a.cnt.getD k 0
        leBytes 2 (if c = 0 then 0 else (2 * a.sum.getD (k * n + j) 0 + c) / (2 * c))
      b ++ zeros (cdiv b.length 8 * 8 - b.length)
    else []
  let sharp := if bitOf p.statsEn 3 then (List.range z).flatMap fun k => leBytes 8 (a.sharp.getD k 0) else []
  let len := 32 + hist.length + clip.length + mean.length + sharp.length
  leBytes 4 (kind + stream * 2 ^ 8 + profile * 2 ^ 16 + p.statsEn * 2 ^ 24 + p.statsSrc * 2 ^ 28) ++
  leBytes 4 a.frame ++ leBytes 4 a.line ++ leBytes 4 a.rows ++ leBytes 4 (a.tag + a.cond * 2 ^ 16) ++ leBytes 4 a.seq ++
  leBytes 4 (p.statsCh + p.zonesX * 2 ^ 8 + zy * 2 ^ 16 + p.sharpCh * 2 ^ 24) ++
  leBytes 4 (len / 8 + bn a.saturated * 2 ^ 16) ++ hist ++ clip ++ mean ++ sharp

end Sys2Proof.Machine
end

