-- ==== Sys2Proof/Machine/Cutter.lean ====
section
/-! DEFINITION. The cutter, stage 11: background model (R218 to R220), opening and labelling (R221 to R223),
closing, numbering and overflow (R224 to R230), records and tiles (R231 to R236). -/

namespace Sys2Proof.Machine

/-! ### Background model (R218 to R220) -/

/-- MODE[o] of THR_MODE. -/
def CutCfg.mode (c : CutCfg) (o : Nat) : Nat := c.thrMode / 4 ^ o % 4
/-- T[o] of THRESHOLDS. -/
def CutCfg.thr (c : CutCfg) (o : Nat) : Int := leAt c.thresholds (2 * o) 2

/-- A model of `w` columns and `nb` bands that has learned nothing (R219). -/
def BgModel.fresh (w nb : Nat) : BgModel := { b := List.replicate w (List.replicate nb 0), fg := List.replicate w 0, k := 0 }

/-- hit[o] of R220. -/
def hits (mode : Nat) (t dev : Int) : Bool := (bitOf mode 0 && decide (dev ≤ -t)) || (bitOf mode 1 && decide (t ≤ dev))

/-- The raw mask bit of a pixel whose column's model is `b` (R220). -/
def CutCfg.rawBit (c : CutCfg) (b v : List Nat) : Bool :=
  let act := ((v.zip b).zipIdx.filter fun x => c.mode x.2 ≠ 0).map fun x =>
    hits (c.mode x.2) (c.thr x.2) ((x.1.1 : Int) - asr ((x.1.2 : Int) + 128) 8)
  !act.isEmpty && (if c.maskLogic = 1 then act.all id else act.any id)

/-- The new model value of one band (R220). -/
def bgStep (sh b v : Nat) : Nat :=
  let e : Int := (v : Int) * 256 - b
  (if sh = 0 then (b : Int) + e else b + asr (e + (2 ^ (sh - 1) : Nat)) sh).toNat

/-- One row (R220): the mask, the model after it, and the forced updates. -/
def BgModel.row (m : BgModel) (c : CutCfg) (px : List (List Nat)) (bad : Bool) : List Bool × BgModel × Nat :=
  let learning := decide (m.k < c.bgLearn)
  let sh := if learning then Nat.min c.bgShift (Nat.log2 (m.k + 1)) else c.bgShift
  let cols := ((px.zip m.b).zip m.fg).map fun x =>
    let v := x.1.1
    let b := x.1.2
    let r := !learning && c.rawBit b v
    let fg := if r then Nat.min (x.2 + 1) 0xFFFFFFFF else 0
    let forced := r && decide (0 < c.bgStall) && decide (c.bgStall ≤ fg)
    let upd := !bad && (learning || !r || forced)
    (r, (if upd then (v.zip b).map fun y => bgStep sh y.2 y.1 else b), fg, upd && forced)
  (cols.map fun x => x.1,
   { b := cols.map fun x => x.2.1, fg := cols.map fun x => x.2.2.1, k := Nat.min (m.k + 1) 0xFFFFFFFF },
   cols.foldl (fun n x => n + bn x.2.2.2) 0)

/-! ### Opening (R221) -/

/-- Each column joined with its neighbours by `f`; columns outside take the nearest column. -/
def spread (f : Bool → Bool → Bool) (l : List Bool) : List Bool :=
  let a := l.head?.getD false
  let z := l.getLast?.getD false
  let left := a :: l.dropLast
  let right := l.drop 1 ++ [z]
  ((left.zip l).zip right).map fun x => f (f x.1.1 x.1.2) x.2

/-- Rows joined column by column. -/
def joinRows (f : Bool → Bool → Bool) (a b : List Bool) : List Bool := (a.zip b).map fun x => f x.1 x.2

/-- Maximal runs of true columns. -/
def runsAux : List Bool → Nat → Option Nat → List (Nat × Nat)
  | [], _, none => []
  | [], x, some a => [(a, x - 1)]
  | true :: t, x, none => runsAux t (x + 1) (some x)
  | true :: t, x, some a => runsAux t (x + 1) (some a)
  | false :: t, x, none => runsAux t (x + 1) none
  | false :: t, x, some a => (a, x - 1) :: runsAux t (x + 1) none

/-- The opened mask of a row whose raw masks around it are given by `raw` (R221). -/
def openedRow (raw : Int → List Bool) (y : Int) : List Bool :=
  let e := fun (y : Int) => spread (· && ·) (joinRows (· && ·) (joinRows (· && ·) (raw (y - 1)) (raw y)) (raw (y + 1)))
  spread (· || ·) (joinRows (· || ·) (joinRows (· || ·) (e (y - 1)) (e y)) (e (y + 1)))

/-! ### Objects (R223 to R228) -/

/-- The running state of labelling a stripe. -/
structure Run where
  cut : Cut
  /-- New objects opened in the stripe (R227). -/
  opened : Nat := 0
  /-- Objects numbered, in order of their numbers' taking. -/
  closed : List (Nat × Stamped) := []
  small : Nat := 0
  openOv : Nat := 0
  newOv : Nat := 0
  trunc : Nat := 0
  edge : Nat := 0
  unused : Nat := 0
  peak : Nat := 0

/-- Flags of R233. -/
def fTRUNCATED : Nat := 0
/-- See `fTRUNCATED`. -/
def fCONTINUED : Nat := 1
/-- See `fTRUNCATED`. -/
def fEDGE : Nat := 2
/-- See `fTRUNCATED`. -/
def fSIDE : Nat := 3
/-- See `fTRUNCATED`. -/
def fDEGRADED : Nat := 4
/-- See `fTRUNCATED`. -/
def fOVERFLOW : Nat := 5
/-- See `fTRUNCATED`. -/
def fCLIPPED : Nat := 6
/-- See `fTRUNCATED`. -/
def fAFTER : Nat := 7

/-- Raise a flag. -/
def Obj.flag (o : Obj) (b : Nat) : Obj := { o with flags := putBit o.flags b true }

/-- Join two lists member by member. -/
def zipNat (f : Nat → Nat → Nat) (a b : List Nat) : List Nat :=
  if a.isEmpty then b else if b.isEmpty then a else (a.zip b).map fun x => f x.1 x.2

/-- Merge `o` into `j` (R225): the survivor, and the reserved numbers released. -/
def Obj.merge (j o : Obj) : Obj × Nat :=
  let y0 := Nat.min j.y0 o.y0
  let res := match j.reserved, o.reserved with
    | some a, some b => (some (Nat.min a b), 1)
    | some a, none => (some a, 0)
    | none, b => (b, 0)
  ({ j with
     a := sat32 (j.a + o.a), sx := j.sx + o.sx
     sy := j.sy + (j.y0 - y0) * j.a + (o.sy + (o.y0 - y0) * o.a)
     x0 := Nat.min j.x0 o.x0, x1 := Nat.max j.x1 o.x1, y0 := y0, y1 := Nat.max j.y1 o.y1
     sum := zipNat (· + ·) j.sum o.sum, sq := zipNat (· + ·) j.sq o.sq
     mn := zipNat Nat.min j.mn o.mn, mx := zipNat Nat.max j.mx o.mx
     flags := j.flags ||| o.flags, reserved := res.1, runs := j.runs ++ o.runs }, res.2)

/-- Add one run of row `y` to an object (R225). -/
def Obj.addRun (o : Obj) (y x0 x1 : Nat) (px : List (List Nat)) (bad : Bool) : Obj :=
  let n := x1 + 1 - x0
  let vs := (px.drop x0).take n
  let first := o.a = 0
  let bands := fun (f : Nat → Nat → Nat) (g : Nat → Nat) (init : List Nat) => vs.foldl (fun r v => zipNat f r (v.map g)) init
  let o := if bad then o.flag fDEGRADED else o
  { o with
    a := sat32 (o.a + n), sx := o.sx + (x0 + x1) * n / 2
    sy := o.sy + (y - (if first then y else o.y0)) * n
    x0 := if first then x0 else Nat.min o.x0 x0, x1 := Nat.max o.x1 x1
    y0 := if first then y else o.y0, y1 := y
    sum := bands (· + ·) id o.sum, sq := bands (· + ·) (fun v => v * v) o.sq
    mn := bands Nat.min id o.mn, mx := bands Nat.max id o.mx, runs := o.runs ++ [(y, x0, x1)] }

/-- The least column of an object's last row. -/
def Obj.key (o : Obj) : Nat :=
  match o.runs.filter fun r => r.1 == o.y1 with
  | [] => 0
  | r :: rs => rs.foldl (fun k q => Nat.min k q.2.1) r.2.1

/-- The stamp of a row. -/
def Cut.stampOf (c : Cut) (row : Nat) : RowStamp :=
  (c.stamps.find? fun s => s.row == row).getD { row := row, time := 0, pos := 0, frame := 0, line := 0 }

/-- rc of R226. -/
def Obj.centroidRow (o : Obj) : Nat := o.y0 + (2 * o.sy + o.a) / (2 * o.a)

/-- A closed object takes its stamps (R226) and TOUCHES_SIDE (R233). -/
def Cut.stamp (c : Cut) (w : Nat) (o : Obj) : Stamped :=
  let o := if o.x0 = 0 ∨ o.x1 + 1 = w then o.flag fSIDE else o
  { obj := o, rc := o.centroidRow, first := c.stampOf o.y0, last := c.stampOf o.y1, centroid := c.stampOf o.centroidRow,
    key := o.key }

/-- Insert by (Y1, least column of the last row) (R228). -/
def insertClosed (x : Stamped) : List Stamped → List Stamped
  | [] => [x]
  | y :: t => if x.obj.y1 < y.obj.y1 ∨ (x.obj.y1 = y.obj.y1 ∧ x.key ≤ y.key) then x :: y :: t else y :: insertClosed x t

/-- Number objects that close together (R228). -/
def Run.number (r : Run) (minArea : Nat) (l : List Stamped) : Run :=
  let r0 : Run × List (Nat × Nat) := (r, [])
  let out := (l.foldr insertClosed []).foldl (fun (acc : Run × List (Nat × Nat)) s =>
    let r := acc.1
    let trunc := bitOf s.obj.flags fTRUNCATED
    let cont := bitOf s.obj.flags fCONTINUED
    let held : Option Nat := match s.obj.reserved with
      | some n => some n
      | none => if cont then (acc.2.find? fun x => x.1 == s.obj.order).map Prod.snd else none
    let r : Run := { r with edge := r.edge + bn (bitOf s.obj.flags fEDGE) }
    if held = none ∧ trunc = false ∧ s.obj.a < minArea then ({ r with small := r.small + 1 }, acc.2)
    else
      let own := held.getD r.cut.seq
      let next := if held = none then r.cut.seq + 1 else r.cut.seq
      let r := { r with closed := r.closed ++ [(own, s)],
                        trunc := r.trunc + bn trunc, cut := { r.cut with seq := if trunc then next + 1 else next } }
      (r, if trunc then (acc.2.filter fun x => x.1 != s.obj.order) ++ [(s.obj.order, next)] else acc.2)) r0
  let give := fun (o : Obj) => match o.reserved with
    | some _ => o
    | none => { o with reserved := (out.2.find? fun x => x.1 == o.order && bitOf o.flags fCONTINUED).map Prod.snd }
  { out.1 with cut := { out.1.cut with objs := out.1.cut.objs.map give } }

/-- The orders of the objects that touch a run (R223). -/
def touching (labels : List (Nat × Nat × Nat)) (x0 x1 : Nat) : List Nat :=
  (labels.filter fun l => decide (l.1 ≤ x1 + 1) && decide (x0 ≤ l.2.1 + 1)).foldl (fun r l =>
    if r.contains l.2.2 then r else r ++ [l.2.2]) []

/-- The state within one row: the runs assigned so far, the objects born, and whether a run was refused. -/
structure RowRun where
  run : Run
  prev : List (Nat × Nat × Nat)
  now : List (Nat × Nat × Nat) := []
  born : List Nat := []
  refused : Bool := false

/-- Merge object `b` into object `a` wherever they stand. -/
def RowRun.merge (r : RowRun) (a b : Nat) : RowRun :=
  let objs := r.run.cut.objs
  match objs.find? fun o => o.order == a, objs.find? fun o => o.order == b with
  | some x, some y =>
    let m := x.merge y
    let swap := fun (l : Nat × Nat × Nat) => if l.2.2 = b then (l.1, l.2.1, a) else l
    { r with
      prev := r.prev.map swap, now := r.now.map swap
      run := { r.run with unused := r.run.unused + m.2
                          cut := { r.run.cut with objs := (objs.filter fun o => o.order != b).map fun (o : Obj) =>
                                     if o.order = a then m.1 else o } } }
  | _, _ => r

/-- One run of a row (R223, R227). -/
def RowRun.step (r : RowRun) (x : Nat × Nat) : RowRun :=
  match touching r.prev x.1 x.2 with
  | [] =>
    let full := decide (2048 ≤ r.run.cut.objs.length)
    let many := decide (4096 ≤ r.run.opened)
    if full ∨ many then
      { r with refused := true, run := { r.run with openOv := r.run.openOv + bn full, newOv := r.run.newOv + bn many } }
    else
      let o : Obj := { order := r.run.cut.nextOrder }
      { r with
        now := r.now ++ [(x.1, x.2, o.order)], born := r.born ++ [o.order]
        run := { r.run with opened := r.run.opened + 1, peak := Nat.max r.run.peak (r.run.cut.objs.length + 1)
                            cut := { r.run.cut with objs := r.run.cut.objs ++ [o], nextOrder := o.order + 1 } } }
  | p :: ps =>
    let j := ps.foldl Nat.min p
    let r := ((p :: ps).filter fun k => k != j).foldl (fun (r : RowRun) k => r.merge j k) r
    { r with now := r.now ++ [(x.1, x.2, j)] }

/-- Add the row's runs to their object. -/
def addRuns (y : Nat) (row : CutRow) (now : List (Nat × Nat × Nat)) (o : Obj) : Obj :=
  (now.filter fun l => l.2.2 == o.order).foldl (fun o l => o.addRun y l.1 l.2.1 row.px row.bad) o

/-- Label one opened row (R223, R224, R227, R228). `last` is the last row before a bottom edge. -/
def Run.label (r : Run) (c : CutCfg) (w : Nat) (row : CutRow) (mask : List Bool) (last : Bool) : Run :=
  let y := row.row
  let r := { r with cut := { r.cut with stamps := r.cut.stamps ++
    [{ row := y, time := row.time, pos := row.pos, frame := row.frame, line := row.line }] } }
  let s := (runsAux mask 0 none).foldl RowRun.step { run := r, prev := r.cut.labels }
  let here := fun (o : Obj) => s.now.any fun l => l.2.2 == o.order
  let objs := s.run.cut.objs
  let over_ := r.cut.episode || s.refused
  let mark := fun (o : Obj) => if over_ then o.flag fOVERFLOW else o
  -- objects that close, and those that go on, with truncation
  let tooLong := fun (o : Obj) => here o && decide (0 < o.a) && decide (c.maxRows < y + 1 - o.y0)
  let ended := objs.filter fun o => !here o
  let cutOff := (objs.filter tooLong).map fun o => o.flag fTRUNCATED
  let go := (objs.filter here).map fun (o : Obj) =>
    let o := if tooLong o then mark (({ order := o.order } : Obj).flag fCONTINUED)
      else if s.born.contains o.order then mark o else o
    addRuns y row s.now o
  let edge := if last then go.map fun o => o.flag fEDGE else []
  let cut := s.run.cut
  let cut := { cut with objs := if last then [] else go, labels := s.now, episode := s.refused }
  { s.run with cut := cut }.number c.minArea ((ended ++ cutOff ++ edge).map (cut.stamp w))

/-! ### Records and tiles (R226, R232, R234 to R236) -/

/-- The object record (R232). -/
def objectRecord (stream seq r : Nat) (s : Stamped) (outCh flags tileSeq : Nat) : Bytes :=
  let o := s.obj
  let band := fun (i : Nat) =>
    if i < outCh then
      let sm := o.sum.getD i 0
      let mean := (2 * sm + o.a) / (2 * o.a)
      let sd := isqrt ((o.a * o.sq.getD i 0 - sm * sm) / (o.a * o.a))
      leBytes 2 mean ++ leBytes 2 sd ++ leBytes 2 (o.mn.getD i 0) ++ leBytes 2 (o.mx.getD i 0)
    else zeros 8
  leBytes 8 (stream * 2 ^ 56 + seq % 2 ^ 56) ++ leBytes 8 s.first.time.toNat ++
  leBytes 4 (Nat.min ((s.last.time - s.first.time).toNat / 256) 0xFFFFFFFF) ++
  leBytes 8 s.centroid.time.toNat ++ leBytes 4 s.centroid.pos ++ leBytes 4 s.first.frame ++ leBytes 4 s.first.line ++
  leBytes 2 o.x0 ++ leBytes 2 o.x1 ++ leBytes 4 ((o.y1 + 1 - o.y0) % 2 ^ 16 + o.y0 % r * 2 ^ 16) ++ leBytes 4 o.a ++
  leBytes 4 ((2 * o.sx * 65536 + o.a) / (2 * o.a)) ++
  leBytes 4 ((2 * o.sy * 256 + o.a) / (2 * o.a) % 2 ^ 24 + flags * 2 ^ 24) ++ leBytes 4 tileSeq ++
  (List.range 8).flatMap band

/-- What a tile takes a row of pixels from. -/
inductive RawRow where
  /-- Pixels as packed. -/
  | px (l : List Nat)
  /-- Zeros that clip nothing: beyond an edge, missing or refused. -/
  | blank
  /-- Zeros that set TILE_CLIPPED. -/
  | lost

/-- Greatest value not above `v` in phase (R235). -/
def inPhase (v : Int) (phase period : Nat) : Int := v - (v + phase) % (period : Int)

/-- The window of a tile (R235): x0, W, y0, H, clipped. -/
def tileWindow (p : Profile) (margin : Nat) (o : Obj) (rc : Nat) : Int × Nat × Int × Nat × Bool :=
  let m : Int := margin
  let x0 := inPhase (o.x0 - m) p.px p.pw
  let w := cdiv (o.x1 + m + 1 - x0).toNat p.pw * p.pw
  let y0 := inPhase (o.y0 - m) p.py p.ph
  let h := cdiv (o.y1 + m + 1 - y0).toNat p.ph * p.ph
  let yend := y0 + h - 1
  let wmax := 512 - 512 % p.pw
  let hmax := 512 - 512 % p.ph
  let cx := decide (wmax < w)
  let cy := decide (hmax < h)
  let x0 := if cx then inPhase (rdiv o.sx o.a - (wmax / 2 : Nat)) p.px p.pw else x0
  let y1 := inPhase ((rc : Int) - (hmax / 2 : Nat)) p.py p.ph
  let y1 := if yend < y1 + hmax - 1 then inPhase (yend - hmax + 1) p.py p.ph else y1
  (x0, if cx then wmax else w, if cy then y1 else y0, if cy then hmax else h, cx || cy)

/-- The tile of an object (R236), and whether it is clipped. -/
def tileOf (stream seq tileSeq : Nat) (p : Profile) (c : CutCfg) (bits width : Nat) (raw : Int → RawRow) (s : Stamped) :
    Bytes × Bool :=
  let o := s.obj
  let (x0, w, y0, h, clip) := tileWindow p c.margin o s.rc
  let raw8 := bitOf c.format 0
  let mask := bitOf c.format 1
  let rb := cdiv (w * (if raw8 then 1 else 2)) 8 * 8
  let mrb := if mask then cdiv w 64 * 8 else 0
  let rows := (List.range h).map fun (i : Nat) => raw (y0 + (i : Int))
  let cols := (List.range w).map fun (i : Nat) => x0 + (i : Int)
  let line := fun (r : RawRow) => match r with
    | .px l =>
      let a := l.toArray
      let us := cols.map fun x => if x < 0 ∨ (width : Int) ≤ x then 0 else p.unpack bits (a.getD x.toNat 0)
      let b := us.flatMap fun u => if raw8 then [byte (narrow8 u)] else leBytes 2 u
      b ++ zeros (rb - b.length)
    | _ => zeros rb
  let maskRow := fun (y : Int) =>
    let runs := o.runs.filter fun r => (r.1 : Int) == y
    let b := packBits 1 (cols.map fun x => bn (runs.any fun r => decide ((r.2.1 : Int) ≤ x ∧ x ≤ r.2.2)))
    b ++ zeros (mrb - b.length)
  let pix := rows.flatMap line
  let msk := if mask then (List.range h).flatMap fun (i : Nat) => maskRow (y0 + (i : Int)) else []
  let lost := rows.any fun r => match r with | .lost => true | _ => false
  let xo := patternOf 24 x0
  (leBytes 8 (stream * 2 ^ 56 + seq % 2 ^ 56) ++ leBytes 2 xo ++ leBytes 2 w ++ leBytes 2 (patternOf 16 (y0 - o.y0)) ++
   leBytes 2 h ++ leBytes 4 (bn raw8 + bn mask * 2 ^ 8 + p.pw * 2 ^ 16 + p.ph * 2 ^ 20) ++
   leBytes 4 (rb + mrb * 2 ^ 16 + xo / 2 ^ 16 * 2 ^ 24) ++ leBytes 4 (32 + h * (rb + mrb)) ++ leBytes 4 tileSeq ++ pix ++ msk,
   clip || lost)

end Sys2Proof.Machine
end

