-- ==== Sys2Proof/Machine/Stripes.lean ====
section
/-! DEFINITION. One stripe from its start to its results: the temporal reference (R147), the run of stages 1 to 11 (R140, R147, R154, R156, R177,
R204, R215, R222, R229), and its units. -/

namespace Sys2Proof.Machine

/-! ### The temporal reference (R147, R177) -/

/-- The reference that frame `f` may use: filtered from frame f − 1 under slot `k`. It lies in the context of the stripe's own live set, so that no
apply point is between. -/
def TRef.serves (r : TRef) (p : Stripe) (k : Nat) : Bool :=
  (r.frame + 1) % 2 ^ 32 == p.frame && r.slot == k && r.rows.all Option.isSome

/-- The slot of a stripe's first own row. -/
def Stripe.firstSlot (p : Stripe) : Nat :=
  ((p.readRows.zip p.bind).find? fun r => p.owns r.1).elim 0 Prod.snd

/-- The slot of a stripe's last output row. -/
def Stripe.lastSlot (p : Stripe) : Nat :=
  ((p.readRows.zip p.bind).reverse.find? fun r => p.owns r.1 && decide (r.1 < p.outEnd)).elim 0 Prod.snd

/-- Tag of a slot of the stripe. -/
def Stripe.tagOf (p : Stripe) (k : Nat) : Nat := ((p.sets.find? fun q => q.seq == k).map SetSlot.tag).getD 0

/-! ### The run of stages 1 to 11 -/

/-- What a stripe's run reads besides the stripe itself. -/
structure RunIn where
  /-- The row's pixels as they stand in HBM, for terms. -/
  pixels : Terms → LineInfo → Nat → List Nat
  /-- The lines still in the ring, for tiles and POS. -/
  lines : List LineInfo
  tref : Option TRef
  acc : Option StatAcc
  /-- Next TILE_SEQ (R234), and the objects of aborted stripes that await this one (R230). -/
  tileSeq : Nat := 0
  waiting : List Stamped := []
  flat : Bytes
  defects : Bytes
  tone : Bytes
  stream : Nat

/-- Counters that a run adds to: entry keys without their base, in the order of R191, R214 and R238. -/
structure Counts where
  marks : List Nat := []
  clips : Nat := 0
  records : Nat := 0
  saturated : Nat := 0
  objects : Nat := 0
  small : Nat := 0
  openOv : Nat := 0
  newOv : Nat := 0
  trunc : Nat := 0
  edge : Nat := 0
  late : Nat := 0
  tiles : Nat := 0
  clipped : Nat := 0
  relearn : Nat := 0
  forced : Nat := 0
  unused : Nat := 0
  peak : Nat := 0
  deriving DecidableEq, Repr

/-- A unit that a run produces. -/
structure Made where
  kind : Nat
  late : Bool := false
  data : Bytes
  shape : Shape := {}
  key : Nat := 0
  deriving DecidableEq, Repr

/-- The results of a stripe's run. -/
structure Ran where
  units : List Made := []
  cut : Cut
  tileSeq : Nat := 0
  waiting : List Stamped := []
  acc : Option StatAcc := none
  /-- Stage 2 rows with their row numbers, for the temporal reference. -/
  refRows : List (Nat × List Int) := []
  counts : Counts := {}
  /-- Objects numbered, with their centroid TIME, for R268. -/
  seen : List (Nat × TW64) := []
  outRows : Nat := 0
  bgRuns : Bool := false

/-- The replacement of a missing row (R140): nearest received row of its phase above, else below, among those read. -/
def replaceRow (ok : Nat → Bool) (ph lo hi y : Nat) : Option Nat :=
  let up := (List.range ((y - lo) / ph)).map fun i => y - ph * (i + 1)
  let down := (List.range ((hi - 1 - y) / ph)).map fun i => y + ph * (i + 1)
  (up ++ down).find? ok

/-- The rows as stages 1 to 5 read them. -/
def Stripe.srcRows (p : Stripe) (r : RunIn) : List SrcRow :=
  let rows := p.readRows
  let lo := rows.headD 0
  let hi := lo + rows.length
  let sets := p.sets.map fun (k : SetSlot) => (k.seq, readParams k.params, k.tag)
  let info := fun (y : Nat) => p.lineOf p.infos y
  let good := fun (y : Nat) => match info y with
    | some i => !(i.missing || i.refused)
    | none => false
  let rpl := Nat.max 1 (Terms.rowsPerLine p.terms)
  let px := fun (y : Nat) => match info y with
    | some i => (r.pixels p.terms i (y % rpl)).toArray
    | none => #[]
  (rows.zip p.bind).map fun yb =>
    let y := yb.1
    let s := (sets.find? fun k => k.1 == yb.2).elim (readParams [], 0) Prod.snd
    let src := if good y then some y else replaceRow good (Nat.max 1 p.prof.ph) lo hi y
    { px := match src with | some z => px z | none => #[], set := s.1, seq := yb.2, tag := s.2,
      replaced := !good y, damaged := match info y with | some i => i.damaged | none => false }

/-- The context of stages 1 to 5. -/
def Stripe.ctx (p : Stripe) (r : RunIn) (rows : List SrcRow) : Ctx :=
  let t : Terms := p.terms
  let d := flatDims r.flat
  { prof := p.prof, area := t.area, r := Nat.max 1 t.rowsPerLine, bits := t.bits, w := t.rowPixels, first := p.first,
    edge := p.edgeRow, have_ := p.limit, lo := p.readRows.headD 0, rows := rows.toArray, ffW := d.1, ffH := d.2,
    ff := r.flat.toArray, dm := defects r.defects,
    tref := if p.useRef then r.tref.map fun k => (k.rows.map fun o => (o.getD []).toArray).toArray else none }

/-- The frame record is due with this stripe: the last of its area frame, or the last before the frame was cut off (R204). -/
def Stripe.endsFrame (p : Stripe) : Bool := p.ends || (Terms.area p.terms && decide (Terms.frameRows p.terms ≤ p.behind))

/-- Statistics of a stripe (R203 to R208): the record, if one is produced now, and the accumulator left. In a split stripe the taps cover the rows of
the second slot alone, and an area frame whose rows use more than one slot is accumulated anew at each, so that no record mixes sets (R154,
notes/assumptions/53.md). -/
def Stripe.stats (p : Stripe) (r : RunIn) (src : List SrcRow) (vals : List (List (List Nat))) :
    Option (Bytes × Bool) × Option StatAcc :=
  let t : Terms := p.terms
  if bitOf t.outputs 1 = false then (none, none)
  else
    let lo := p.readRows.headD 0
    let own := (List.range (p.outEnd - p.row0)).map (p.row0 + ·)
    let slotOf := fun (y : Nat) => p.bind.getD (y - lo) 0
    let split := bitOf p.cond 4
    let second := ((own.map slotOf).find? fun k => k != slotOf p.row0).getD (slotOf p.row0)
    let covered := fun (y : Nat) => !split || slotOf y == second
    let rows := own.dropWhile fun y => !covered y
    let tapped : TapRows := (rows.map fun y =>
      if covered y then ((vals.getD (y - p.row0) []).map List.toArray).toArray else #[]).toArray
    let first := rows.headD p.row0
    let lineKey := match p.lineOf p.infos first with | some i => (i.frame, i.line) | none => (p.frame, p.line)
    let n := src.length
    let tag := if n = 0 then 0 else (src.getD (first - lo) ⟨#[], readParams [], 0, 0, true, false⟩).tag
    let head := fun (a : StatAcc) => { a with frame := lineKey.1, line := lineKey.2, tag := tag, seq := slotOf first }
    if t.area = false then
      let a := (head (StatAcc.zero p.prof 1)).tapRows p.prof t.rowPixels tapped (fun _ => 0)
      let a := { a with cond := p.cond }
      (some (a.record p.prof 1 r.stream t.profile 1, a.saturated), none)
    else
      let zero := { head (StatAcc.zero p.prof p.prof.zonesY) with inst := p.inst }
      let a := match r.acc with
        | some a => if a.inst ≠ p.inst then zero else if a.rows = 0 ∨ a.seq ≠ slotOf first then { zero with cond := a.cond } else a
        | none => zero
      let nrows := t.frameRows - t.frameRows % Nat.max 1 p.prof.ph
      let a := a.tapRows p.prof t.rowPixels tapped (fun i => (first + i) * p.prof.zonesY / Nat.max 1 nrows)
      let a := { a with cond := a.cond ||| p.cond }
      if p.endsFrame then (some (a.record p.prof 2 r.stream t.profile p.prof.zonesY, a.saturated), none) else (none, some a)

/-- The statistics of an area frame whose stripe was aborted (R204): its record covers the other stripes. -/
def Stripe.statsAborted (p : Stripe) (r : RunIn) : Option (Bytes × Bool) × Option StatAcc :=
  let t : Terms := p.terms
  if bitOf t.outputs 1 = false ∨ t.area = false then (none, none)
  else
    let old := match r.acc with
      | some a => if a.inst = p.inst then some a else none
      | none => none
    let a := old.getD { StatAcc.zero p.prof p.prof.zonesY with frame := p.frame, inst := p.inst, line := p.line, tag := p.tagOf p.firstSlot, seq := p.firstSlot }
    let a := { a with cond := a.cond ||| p.cond ||| 1024 }
    if p.endsFrame then (some (a.record p.prof 2 r.stream t.profile p.prof.zonesY, a.saturated), none) else (none, some a)

/-- A row of the stripe as the cutter takes it (R217, R220). -/
def Stripe.cutRow (p : Stripe) (r : RunIn) (y : Nat) (px : List (List Nat)) : CutRow :=
  match (p.lineOf r.lines y).or (p.lineOf p.infos y) with
  | some i => { row := y, px := px, time := i.time, pos := i.pos, frame := i.frame, line := i.line,
                bad := i.missing || i.refused || i.damaged }
  | none => { row := y, px := px, time := 0, pos := 0, frame := 0, line := 0, bad := true }

/-- The place of a stripe's rows. -/
def Stripe.place (p : Stripe) : Place :=
  { n0 := p.n0, row := p.row0, first := p.first, behind := p.behind, bottom := p.bottom, terms := p.terms, prof := p.prof }

/-- Where a tile's row comes from (R235): zeros beyond an edge, nothing beyond the lower halo or behind the ring. -/
def Place.rawRow (q : Place) (r : RunIn) (y : Int) : RawRow :=
  let rpl := Nat.max 1 (Terms.rowsPerLine q.terms)
  let behind : Bool := match q.bottom with | some b => decide ((b : Int) ≤ y) | none => false
  if y < q.first ∨ behind = true then .blank
  else if (q.behind + 6 : Nat) ≤ y then .lost
  else
    let n := (q.n0 : Int) + Int.fdiv (y - q.row) rpl
    match r.lines.find? fun i => (i.n : Int) == n with
    | none => .lost
    | some i => if i.missing || i.refused then .blank else .px (r.pixels q.terms i (y.toNat % rpl))

/-- Where a tile's row comes from (R235): as `Place.rawRow`, but for rows of the lower halo that had not come when the stripe was released. -/
def Stripe.rawRow (p : Stripe) (r : RunIn) (y : Int) : RawRow :=
  let beyond : Bool := match p.bottom with | some b => decide ((b : Int) ≤ y) | none => false
  if beyond = false ∧ (p.limit : Int) ≤ y then .lost else p.place.rawRow r y

/-- Empty the seam state but for the background model (R229, R230). -/
def Cut.clear (c : Cut) : Cut :=
  { c with raw := [], rows := [], labels := [], objs := [], stamps := [], episode := false, place := none }

/-- The objects that an aborted stripe closes (R230): they keep their stamps and the place of their rows. Those that an earlier sequence left open
end at its bottom edge. -/
def Cut.closedBy (c : Cut) (w : Nat) (p : Stripe) : List Stamped :=
  let place := if p.row0 = p.first then c.place.map fun (q : Place) => { q with bottom := some q.behind } else some p.place
  c.objs.map fun o => { c.stamp w (o.flag fEDGE) with place := place }

/-- The rows of a stripe run through the background model: masks by row, the model after, forced updates (R220). -/
def runModel (c : CutCfg) : BgModel → List CutRow → List (Nat × List Bool) × BgModel × Nat
  | b, [] => ([], b, 0)
  | b, r :: rs =>
    let x := b.row c r.px r.bad
    let y := runModel c x.2.1 rs
    ((r.row, x.1) :: y.1, y.2.1, x.2.2 + y.2.2)

/-- The raw mask of a row among those known; beyond an edge R is 0 (R221). -/
def maskAt (w : Nat) (l : List (Nat × List Bool)) (y : Int) : List Bool :=
  ((l.find? fun m => (m.1 : Int) == y).map Prod.snd).getD (List.replicate w false)

/-- A sequence ended behind a stripe that had left a seam state, since it was released short of its lookahead: its last rows are labelled and its
open objects close at that bottom edge, and the stripe that opens the next sequence numbers them (R229, notes/assumptions/53.md). -/
def Run.closeSeam (r : Run) (c : CutCfg) : Run :=
  match r.cut.place with
  | none => r
  | some q =>
    let w := match r.cut.raw with | m :: _ => m.2.length | [] => 0
    let n := r.closed.length
    let run := r.cut.rows.zipIdx.foldl (fun (r' : Run) k =>
      r'.label c w k.1 (openedRow (maskAt w r.cut.raw) k.1.row) (k.2 + 1 == r.cut.rows.length)) r
    { run with opened := 0, closed := run.closed.take n ++ (run.closed.drop n).map fun x =>
        (x.1, { x.2 with place := some { q with bottom := some q.behind } }) }

/-- Number the objects that await the stripe, then label its rows (R222, R223, R228 to R230). -/
def Stripe.labelRows (p : Stripe) (w : Nat) (cut : Cut) (waiting : List Stamped) (masks : List (Nat × List Bool)) (rows : List CutRow) : Run :=
  let c := p.cut
  let top := decide (p.row0 = p.first) || cut.fresh
  let bottom := p.atBottom
  let run := ({ cut := cut } : Run).number c.minArea waiting
  let run := if top then let r := run.closeSeam c; { r with cut := { r.cut.clear with fresh := false } } else run
  let cut := run.cut
  let raw := maskAt w (cut.raw ++ masks)
  let e := p.outEnd
  let from_ := if top then p.row0 else p.row0 - 2
  let upto := if bottom then e else e - 2
  let known := cut.rows ++ rows
  (List.range (upto - from_)).foldl (fun (r : Run) i =>
    let y := from_ + i
    match known.find? fun k => k.row == y with
    | some k => r.label c w k (openedRow raw y) (bottom && y + 1 == upto)
    | none => r) run

/-- The state that the cutter leaves for the next stripe (R222, R229). -/
def Stripe.seamAfter (p : Stripe) (cut : Cut) (masks : List (Nat × List Bool)) (rows : List CutRow) : Cut :=
  let e := p.outEnd
  if p.atBottom then { cut.clear with fresh := false }
  else
    let least := cut.objs.foldl (fun r o => Nat.min r o.y0) (e - 4)
    { cut with
      raw := (cut.raw ++ masks).filter fun m => decide (e ≤ m.1 + 4)
      rows := (cut.rows ++ rows).filter fun k => decide (e ≤ k.row + 2)
      stamps := cut.stamps.filter fun s => decide (least ≤ s.row)
      place := some p.place
      fresh := false }

/-- The records and tiles of numbered objects (R231 to R236). -/
def Stripe.objUnits (p : Stripe) (r : RunIn) (l : List (Nat × Stamped)) : List Made × Counts × Nat :=
  let t : Terms := p.terms
  let out := l.zipIdx.foldl (fun (acc : List Made × List Made × Counts × Nat × Nat) x =>
    let (recs, tiles, k, ts, bytes) := acc
    let (seq, s) := x.1
    let q := s.place.getD p.place
    let own : Terms := q.terms
    let raw := match s.place with | some q => q.rawRow r | none => p.rawRow r
    let wants := bitOf t.outputs 3 && decide (p.cut.minTile ≤ s.obj.a)
    let tile := if wants then some (tileOf r.stream seq ts q.prof p.cut own.bits own.rowPixels raw s) else none
    let clip := match tile with | some b => b.2 | none => false
    let bytes := bytes + (match tile with | some b => b.1.length | none => 0)
    let late := decide (t.objMax ≤ x.2) || decide (t.tileBytes < bytes)
    let flags := s.obj.flags + bn clip * 64 + bn late * 128
    let rec_ := objectRecord r.stream seq (Nat.max 1 own.rowsPerLine) s q.prof.outCh flags (if wants then ts else 0xFFFFFFFF)
    let key := r.stream * 2 ^ 56 + seq
    let recs := recs ++ [{ kind := 5, late := decide (t.objMax ≤ x.2), data := rec_, key := key }]
    let tiles := match tile with
      | some b =>
        let w := leAt b.1 10 2
        let h := leAt b.1 14 2
        tiles ++ [{ kind := 6, late := late, data := b.1, key := key,
                    shape := { kind := 2, z := if bitOf p.cut.format 0 then 1 else 2, n := 1, p := w, rows := h, header := 32,
                               rowBytes := leAt b.1 20 2, maskBytes := leAt b.1 22 1 } }]
      | none => tiles
    (recs, tiles, { k with objects := k.objects + 1, late := k.late + bn late, tiles := k.tiles + bn wants, clipped := k.clipped + bn clip },
     if wants then (ts + 1) % 2 ^ 32 else ts, bytes)) ([], [], {}, r.tileSeq, 0)
  (out.1 ++ out.2.1, out.2.2.1, out.2.2.2.1)

/-- Stage 11 on the stripe's channel rows (R215 to R236). -/
def Stripe.cutter (p : Stripe) (r : RunIn) (cut : Cut) (chans : List (List (List Nat))) : Ran :=
  let t : Terms := p.terms
  if bitOf t.outputs 2 = false ∧ bitOf t.outputs 3 = false then { cut := cut, tileSeq := r.tileSeq, waiting := r.waiting }
  else
    let w := t.rowPixels
    let nb := p.prof.outCh
    let fits := decide (cut.bg.b.length = w) && decide ((cut.bg.b.headD []).length = nb)
    let learn := p.relearn || !fits
    let bg := if learn then BgModel.fresh w nb else cut.bg
    let rows := chans.zipIdx.map fun c => p.cutRow r (p.row0 + c.2) c.1
    let mod := runModel p.cut bg rows
    let run := p.labelRows w cut r.waiting mod.1 rows
    let closed := run.closed.foldr (fun x l => insertSeq x l) []
    let o := p.objUnits r closed
    let after := { p.seamAfter run.cut mod.1 rows with bg := mod.2.1 }
    let units := o.1.filter fun u => u.kind == 6 || bitOf t.outputs 2
    { cut := after, tileSeq := o.2.2, units := units, bgRuns := true, seen := closed.map fun x => (x.1, x.2.centroid.time),
      counts := { o.2.1 with
                  small := run.small, openOv := run.openOv, newOv := run.newOv, trunc := run.trunc, edge := run.edge,
                  relearn := bn learn, forced := mod.2.2, unused := run.unused, peak := run.peak } }
where
  /-- Records follow sequence order (R231). -/
  insertSeq (x : Nat × Stamped) : List (Nat × Stamped) → List (Nat × Stamped)
    | [] => [x]
    | y :: t => if x.1 ≤ y.1 then x :: y :: t else y :: insertSeq x t

/-- Shape of a stripe output for the reshuffle (R357). -/
def Profile.shape (p : Profile) (w rows : Nat) : Shape :=
  let rb := rowBytesOut w p.outFormat p.outCh
  let mk := fun (z n : Nat) => ({ kind := 1, z := z, n := n, p := w, rows := rows, rowBytes := rb } : Shape)
  match p.outFormat with
  | 0 => mk 1 1
  | 1 => mk 2 1
  | 2 => mk 1 p.outCh
  | 3 => mk 2 p.outCh
  | 4 => {}
  | 5 => {}
  | _ => mk 2 1

/-- The run of a stripe through stages 1 to 11. -/
def Stripe.run (p : Stripe) (r : RunIn) (cut : Cut) : Ran :=
  let t : Terms := p.terms
  let src := p.srcRows r
  let lo := p.readRows.headD 0
  let e := p.outEnd
  let f := (p.ctx r src).front p.row0 e p.behind
  let luts := toneCount r.tone
  let tone := r.tone.toArray
  let blank : SrcRow := ⟨#[], readParams [], 0, 0, true, false⟩
  let ch := f.bands.zipIdx.map fun row =>
    let s := (src.getD (p.row0 + row.2 - lo) blank).set
    row.1.map fun b => p.prof.channels s luts tone b
  let chans := ch.map fun row => row.map Prod.fst
  let clips := ch.foldl (fun n row => row.foldl (fun n c => n + c.2) n) 0
  let stripe := if bitOf t.outputs 0 then
      [({ kind := 3, data := (f.v4.zip chans).flatMap fun x => p.prof.packRow x.1 x.2,
          shape := p.prof.shape t.rowPixels (e - p.row0), key := p.frame * 2 ^ 32 + p.line } : Made)]
    else []
  let vals := if p.prof.statsSrc = 0 then f.bands else chans
  let st := p.stats r src vals
  let stats := match st.1 with
    | some b => [({ kind := 4, data := b.1, key := p.frame * 2 ^ 32 + p.line } : Made)]
    | none => []
  let c := p.cutter r cut chans
  { c with
    units := stripe ++ stats ++ c.units, acc := st.2, outRows := e - p.row0
    refRows := f.stage2.zipIdx.map fun x => (p.row0 + x.2, x.1)
    counts := { c.counts with marks := (List.range 7).map (countMarks f.marks), clips := clips, records := stats.length,
                              saturated := match st.1 with | some b => bn b.2 | none => 0 } }

/-- An aborted stripe (R155, R204, R230): no output but an area frame's record of its other stripes. -/
def Stripe.aborted (p : Stripe) (r : RunIn) (cut : Cut) : Ran :=
  let st := p.statsAborted r
  { cut := { cut.clear with fresh := true }, tileSeq := r.tileSeq, waiting := r.waiting ++ cut.closedBy (Terms.rowPixels p.terms) p, acc := st.2
    units := match st.1 with
      | some b => [{ kind := 4, data := b.1, key := p.frame * 2 ^ 32 + p.line }]
      | none => []
    counts := { records := bn st.1.isSome, saturated := match st.1 with | some b => bn b.2 | none => 0 } }

/-- STRIPE_DIGEST of a stripe's units in the order of R407. -/
def stripeDigest (s : Nat) (p : Stripe) (units : List Made) : Nat :=
  let body := [3, 4, 5, 6].flatMap fun k => (units.filter fun u => u.kind == k).flatMap fun u => u.data
  crc64 0 (leBytes 1 s ++ leBytes 4 p.frame ++ leBytes 4 p.line ++ leBytes 2 p.cond ++ body)

end Sys2Proof.Machine
end

