-- ==== Sys2Proof/Machine/Planers.lean ====
section
/-! DEFINITION. The planers: choice and start of a stripe (R141, R142, R146, R147, R152, R156), its finish and its
results (R126, R145, R149, R155, R177, R191, R214, R238), replay slices (R144), the comparison of digests with the
partner (R407 to R409), set slots (R149), and the table loader (R186, R187). -/

namespace Sys2Proof.Machine

/-! ### Choice of a stripe (R141, R142) -/

/-- The stripes of a stream that a planer may consider: the oldest unfinished one, and across an apply point that
moves the stream to another planer the first under the new terms once the last under the old ones is the oldest. -/
def candidatesOf : List Stripe → List Stripe
  | [] => []
  | [a] => [a]
  | a :: b :: t => if a.apply ≠ b.apply ∧ a.planer ≠ b.planer then a :: candidatesOf (b :: t) else [a]

/-- The bucket of a stream at this instant, in cycle·ps (R142). -/
def Mach.budgetNow (m : Mach) (x : Stream) (t : Terms) : Nat :=
  Nat.min (m.budgetDepth t) (x.budget + t.cycles * (m.ps - x.budgetT))

/-- The stream is within budget for a stripe under `t` (R142). -/
def Mach.withinBudget (m : Mach) (x : Stream) (t : Terms) : Bool := decide (t.cycles * t.pstr ≤ m.budgetNow x t)

/-- K of R141. -/
def Stripe.key (p : Stripe) : TW64 := p.close + BitVec.ofNat 64 (Terms.deadline p.terms * 256)

/-- A stripe that a planer may start now: stream, whether it is over budget, the stripe. -/
structure Choice where
  s : Nat
  isOver : Bool
  p : Stripe

/-- Does choice `a` go before `b` (R141)? -/
def Choice.before (a b : Choice) : Bool :=
  if a.isOver ≠ b.isOver then !a.isOver
  else
    let d := twDiff a.p.key b.p.key
    if d = 0 then decide (a.s < b.s) else decide (d < 0)

/-- Every stripe that planer `n` may start. -/
def Mach.choices (m : Mach) (n : Nat) : List Choice :=
  m.streams.flatMap fun x =>
    ((candidatesOf x.2.stripes).filter fun p => p.planer == n && p.released && !p.started).map fun p =>
      { s := x.1, isOver := !m.withinBudget x.2 p.terms, p := p }

/-- The stripe that planer `n` takes next. -/
def Mach.choose (m : Mach) (n : Nat) : Option Choice :=
  (m.choices n).foldl (fun r c => match r with
    | none => some c
    | some b => if c.before b then some c else some b) none

/-! ### Start -/

/-- Replace the stripe of a stream that begins at line `n0` of the ring. -/
def Stream.putStripe (x : Stream) (p : Stripe) : Stream :=
  { x with stripes := x.stripes.map fun (q : Stripe) => if q.n0 = p.n0 then p else q }

/-- The context in which a stripe runs (R145, R156). The first stripe behind an apply point begins one at a top edge, with the sequence number
S0 + 262,144 for each apply point since the newest context, and with the model as it stands, or stood at the start of the last old stripe. What
short-released rows left open at the old edge is carried to it (R229). -/
def Stream.ctxFor (x : Stream) (a : Nat) : PlanerCtx :=
  match (x.ctxs.filter fun c => decide (c.apply ≤ a)).foldl (fun (r : Option PlanerCtx) c => match r with
      | none => some c
      | some k => if k.apply < c.apply then some c else some k) none with
  | none => { apply := a, cut := { apply := a } }
  | some c =>
    if c.apply = a then c
    else
      let old := (x.stripes.map Stripe.apply).filter fun b => decide (c.apply ≤ b) && decide (b < a)
      let pending := old.contains c.apply
      let crossed := ((old.filter fun b => b != c.apply).dedup).length
      let seq := (if pending then c.cut.seq else c.cut.s0) + 262144 * (crossed + 1)
      let cut := if old.isEmpty then c.cut else { bg := c.cut.bg }
      { apply := a, cut := { cut with seq := seq, s0 := seq, apply := a, fresh := true } }

/-- Put a context in its place. -/
def Stream.putCtx (x : Stream) (c : PlanerCtx) : Stream :=
  { x with ctxs := (x.ctxs.filter fun (k : PlanerCtx) => k.apply != c.apply) ++ [c] }

/-- Keep the contexts that a stripe may still run in, or begin from: the newest up to each unfinished stripe, and the newest of all. -/
def Stream.keepCtxs (x : Stream) : Stream :=
  let newest := fun (a : Nat) => maxOf ((x.ctxs.filter fun c => decide (c.apply ≤ a)).map PlanerCtx.apply)
  let used := newest x.applies :: (x.stripes ++ x.stripe.toList).map fun p => newest p.apply
  { x with ctxs := x.ctxs.filter fun (c : PlanerCtx) => used.contains c.apply }

/-- The temporal reference at the start of a stripe (R147, R177): a new frame reads what the last frame wrote, and begins a reference of its own. -/
def PlanerCtx.turnRef (c : PlanerCtx) (p : Stripe) : PlanerCtx :=
  if (c.trefNew.any fun r => decide (r.inst = p.inst)) then c
  else { c with tref := c.trefNew,
                trefNew := some { frame := p.frame, inst := p.inst, slot := p.firstSlot, rows := List.replicate (Terms.frameRows p.terms) none } }

/-- The stripe takes part in the temporal reference: the pool held its buffers as it opened (R177). -/
def Stripe.filtersTime (p : Stripe) : Bool := Terms.area p.terms && bitOf p.prof.flags 3 && p.refPool

/-- Start a stripe on planer `n` (R141, R142, R146, R147, R152, R153, R156). -/
def Mach.startStripe (m : Mach) (n : Nat) (c : Choice) : Mach :=
  let s := c.s
  let x := m.strm s
  let t : Terms := c.p.terms
  let pl := m.planer n
  let kerf := m.rd E.PLANER_CONTEXT n != s || pl.afterWatchdog
  let infos := c.p.readRows.filterMap (c.p.lineOf x.lines)
  let infos := infos.dedup
  let b := x.bindStripe (m.echoes t) c.p infos
  let k := x.ctxFor c.p.apply
  let p := { c.p with started := true, infos := infos, bind := b.bind,
                      sets := x.slots.filter fun k => b.bind.contains k.seq,
                      cond := b.cond + bn c.isOver * 512, cutIn := some { k.cut with s0 := k.cut.seq } }
  let k := if p.filtersTime then k.turnRef p else k
  let use_ := p.filtersTime && k.tref.any fun r => r.serves p p.firstSlot
  let restart := t.area && bitOf p.prof.flags 3 && !use_
  let p := { p with useRef := use_, cond := p.cond + bn restart * 8192 }
  let full := m.budgetNow x t
  let x := { (x.putStripe p).putCtx { k with cut := { k.cut with s0 := k.cut.seq } } with
    budget := full - Nat.min full (x.lastCycles * t.pstr), budgetT := m.ps, lastCycles := 0
    lastBound := match b.last with | some k => some k | none => x.lastBound }
  let m := m.setStrm s x
  let m := if c.isOver then m.inc E.OVER_BUDGET s else m
  let m := if b.split then m.inc E.SET_SPLITS s else m
  let m := if b.provisional then m.inc E.PROVISIONAL_STRIPES s else m
  let m := (m.inc E.SET_DEFERRED s b.deferred).inc E.TAG_UNKNOWN s b.unknown
  let m := m.peak E.WAIT_PEAK s (twAfter m.now p.relAt / 256)
  let m := if kerf then m.inc E.KERFS n else m
  let m := m.setPlaner n { pl with run := some (s, p.n0), startLtc := m.ltc.toNat, sliceCycles := 0, kerf := kerf,
                                   afterWatchdog := false, gated := false }
  (m.wr E.PLANER_STATE n 1).wr E.PLANER_CONTEXT n s

/-- STRIPE_START (R141): an idle planer that runs no slice takes its next stripe. -/
def execStripeStart (n : Nat) (s : State) : Host.Outcome State Fault Refusal :=
  s.onMach (n < 16) fun m =>
    let pl := m.planer n
    m.when (pl.run == none && !pl.slice && m.rd E.PLANER_STATE n != 4 && m.rd E.ISLAND_STATE (24 + n) == 1) fun m =>
      match m.choose n with
      | some c => m.startStripe n c
      | none => m

/-! ### The comparison with the partner (R407 to R409) -/

/-- The entry of a stripe under comparison. -/
def Stream.digestOf (x : Stream) (f l : Nat) : Option Digest := x.digests.find? fun d => d.frame == f && d.line == l

/-- Replace or add an entry. -/
def Stream.putDigest (x : Stream) (d : Digest) : Stream :=
  if (x.digestOf d.frame d.line).isSome then
    { x with digests := x.digests.map fun (e : Digest) => if e.frame = d.frame ∧ e.line = d.line then d else e }
  else { x with digests := x.digests ++ [d] }

/-- The comparison of a stripe ends: its starting state is freed (R409). -/
def Stream.dropDigest (x : Stream) (f l : Nat) : Stream :=
  { x with digests := x.digests.filter fun d => !(d.frame == f && d.line == l) }

/-- The first comparable digest of a stream that SYNCING awaits has come (R418). -/
def Mach.digestSeen (m : Mach) (s : Nat) : Mach :=
  { m with pair.awaitDigest := m.pair.awaitDigest.filter fun k => k != s }

/-- Every row of a stripe is still in the ring (R409). -/
def Stream.replayable (x : Stream) (p : Stripe) : Bool :=
  p.infos.all fun i => x.lines.any fun l => l.n == i.n

/-- Payload of a REPLAY frame (notes/assumptions/17.md): stream, FRAME, FIRST_LINE, flags ([0] a replay was possible), replay digest,
INPUT_DIGEST, input events. -/
def replayPayload (s f l : Nat) (r : Option (Nat × Nat × Nat)) : Bytes :=
  let v := r.getD (0, 0, 0)
  leBytes 4 s ++ leBytes 4 f ++ leBytes 4 l ++ leBytes 4 (bn r.isSome) ++ leBytes 8 v.1 ++ leBytes 8 v.2.1 ++ leBytes 8 v.2.2

/-- The replay check of a stripe begins (R409, R410): its replay is pending on the planer where it ran, or it is
not possible. -/
def Mach.beginReplay (m : Mach) (s : Nat) (d : Digest) : Mach :=
  let x := m.strm s
  match d.seed with
  | some k =>
    if x.replayable k.stripe then
      let n := k.stripe.planer
      let pl := m.planer n
      let c := Terms.cycles k.stripe.terms
      let m := m.setStrm s (x.putDigest { d with replay := true })
      m.setPlaner n { pl with replays := pl.replays ++ [(s, d.frame, d.line)],
                              replayCycles := if pl.replays.isEmpty then c else pl.replayCycles }
    else
      (m.setStrm s (x.putDigest { d with replay := true, result := some none })).pairSend 0x67 3 0 0
        (replayPayload s d.frame d.line none)
  | none =>
    (m.setStrm s (x.putDigest { d with replay := true, result := some none })).pairSend 0x67 3 0 0
      (replayPayload s d.frame d.line none)

/-- Compare a stripe's digests once both are there (R407, R408). -/
def Mach.compareDigests (m : Mach) (s : Nat) (d : Digest) : Mach :=
  match d.own, d.partner with
  | some a, some b =>
    if d.notComparable then (m.setStrm s ((m.strm s).dropDigest d.frame d.line)).inc E.NOT_COMPARED 0
    else if a = b then
      ((m.setStrm s ((m.strm s).dropDigest d.frame d.line)).inc E.STRIPES_COMPARED 0).digestSeen s
    else
      let m := m.inc E.DIVERGENCES 0
      let m := m.wr E.LAST_DIVERGENCE 0 (s * 2 ^ 56 + d.frame % 2 ^ 24 * 2 ^ 32 + d.line)
      (m.pairEvent 3 0).beginReplay s d
  | _, _ => m

/-- Payload of a STRIPE_DIGEST frame (notes/assumptions/17.md): stream, FRAME, FIRST_LINE, NOT_COMPARABLE, digest. -/
def digestPayload (s f l : Nat) (nc : Bool) (d : Nat) : Bytes :=
  leBytes 4 s ++ leBytes 4 f ++ leBytes 4 l ++ leBytes 4 (bn nc) ++ leBytes 8 d

/-- A stripe's own digest is ready (R407, R408). -/
def Mach.ownDigest (m : Mach) (s : Nat) (p : Stripe) (seed : Seed) (digest : Nat) : Mach :=
  let m := { m with pair.awaitStripe := m.pair.awaitStripe.filter fun k => k != (s, p.frame, p.line) }
  if m.paired = false then m
  else
    let localPos := p.infos.any fun i =>
      decide (p.n0 ≤ i.n) && decide (i.n < p.n0 + p.rows / Nat.max 1 (Terms.rowsPerLine p.terms)) &&
        ((m.strm s).lines.any fun l => l.n == i.n && l.posState == 2)
    let nc := bitOf p.cond 0 || bitOf p.cond 3 || bitOf p.cond 7 || bitOf p.cond 10 || localPos
    let ev := match p.infos.head?, p.infos.getLast? with
      | some a, some b => b.events - a.events + (bn a.damaged + bn a.missing + bn a.refused)
      | _, _ => 0
    let old := ((m.strm s).digestOf p.frame p.line).getD { frame := p.frame, line := p.line }
    let d := { old with own := some digest, at_ := m.ns, notComparable := old.notComparable || nc, seed := some seed, events := ev }
    let m := m.setStrm s ((m.strm s).putDigest d)
    let m := m.when m.xlinkUp fun m => m.pairSend 0x63 2 0 0 (digestPayload s p.frame p.line nc digest)
    m.compareDigests s d

/-! ### Finish -/

/-- What a stripe's run reads. -/
def Mach.runIn (h : Memory) (m : Mach) (s : Nat) (p : Stripe) : RunIn :=
  let x := m.strm s
  let t : Terms := p.terms
  let n := t.profile
  let k := x.ctxFor p.apply
  { pixels := fun (t : Terms) i j =>
      ((unpackBits t.bits (t.rowPixels * t.rowsPerLine) (h.readBytes i.addr t.lb)).drop (j * t.rowPixels)).take t.rowPixels
    lines := x.lines, tref := k.tref, acc := k.acc, tileSeq := x.tileSeq, waiting := x.waiting, flat := (m.tableGen n 1 p.gens.1).bytes,
    defects := (m.tableGen n 2 p.gens.2.1).bytes, tone := (m.tableGen n 3 p.gens.2.2).bytes, stream := s }

/-- The counters that a run adds to (R191, R214, R238). -/
def Mach.countRun (m : Mach) (s : Nat) (c : Counts) : Mach :=
  let l := [(E.DEFECTS_REPLACED, c.marks.getD 0 0), (E.DEFECTS_UNREPAIRED, c.marks.getD 1 0), (E.OUTLIERS_HIGH, c.marks.getD 2 0),
    (E.OUTLIERS_LOW, c.marks.getD 3 0), (E.TNR_MOTION, c.marks.getD 4 0), (E.WB_CLIP_LOW, c.marks.getD 5 0),
    (E.WB_CLIP_HIGH, c.marks.getD 6 0), (E.MATRIX_CLIPS, c.clips), (E.STATS_RECORDS, c.records),
    (E.STATS_SATURATED, c.saturated), (E.OBJECTS, c.objects), (E.SMALL_DROPPED, c.small), (E.OPEN_OVERFLOW, c.openOv),
    (E.NEW_OVERFLOW, c.newOv), (E.TRUNCATIONS, c.trunc), (E.EDGE_CLOSES, c.edge), (E.LATE_RECORDS, c.late),
    (E.TILES, c.tiles), (E.TILES_CLIPPED, c.clipped), (E.RELEARNS, c.relearn), (E.BG_FORCED, c.forced),
    (E.RESERVED_UNUSED, c.unused)]
  (l.foldl (fun (m : Mach) x => if x.2 = 0 then m else m.inc x.1 s x.2) m).peak E.OPEN_PEAK s c.peak

/-- Rows of the temporal reference written by a finished stripe (R177). A frame whose rows use another slot than its first is no reference filtered under
one slot (R147): its rows so far are dropped. -/
def TRef.write (r : TRef) (p : Stripe) (rows : List (Nat × List Int)) : TRef :=
  let one := ((p.readRows.zip p.bind).filter fun q => p.owns q.1).all fun q => q.2 == r.slot
  let old := if one then r.rows else List.replicate r.rows.length none
  { r with rows := (if one then rows else []).foldl (fun l x => l.set x.1 (some x.2)) old }

/-- Free the slots that lie before every slot of a finished stripe (R149). -/
def Stream.freeSlots (x : Stream) (p : Stripe) : Stream :=
  match p.bind with
  | [] => x
  | b :: bs =>
    let least := bs.foldl Nat.min b
    x.dropSlots fun k => decide (k.seq < least)

/-- Why the bound of a stripe may fail, as known at its finish (R124). -/
def Stripe.causes (p : Stripe) : List Nat :=
  let refused := p.infos.any fun i => i.refused && decide (p.n0 ≤ i.n)
  (if refused then [4] else []) ++ (if p.noRoom then [3] else []) ++ (if p.phaseBad then [7] else [])

/-- The channel of a unit's kind: veneer, stripe, statistics, record or tile. -/
def Terms.chanFor (t : Terms) (kind : Nat) : Nat :=
  match kind with
  | 3 => t.dma 1
  | 4 => t.dma 2
  | 5 => t.dma 3
  | 6 => t.dma 4
  | _ => t.dma 0

/-- The results of a stripe become a delivery, and its units are offered to their channels (R126, R350). In a drain of the module the engine takes
none (R363 step 1). -/
def Mach.deliver (m : Mach) (s : Nat) (p : Stripe) (rows : Nat) (units : List Made) : Mach :=
  if m.rd E.MODULE_STATE = 8 then m
  else
  let x := m.strm s
  let t : Terms := p.terms
  let first := p.lineOf (x.lines ++ p.infos) p.row0
  let late := units.filter Made.late
  let d : Deliv :=
    { id := x.nextDeliv, frame := p.frame, line := p.line, close := p.close, cond := p.cond, tag := p.tagOf p.lastSlot,
      time := (first.map LineInfo.time).getD 0, pos := (first.map LineInfo.pos).getD 0, rows := rows, terms := p.terms,
      apply := p.apply, preLeft := units.length - late.length, lateLeft := late.length, trails := !late.isEmpty, why := p.causes,
      status := bn (late.any fun u => u.kind == 5) + 2 * bn (late.any fun u => u.kind == 6) }
  let m := m.setStrm s { x with nextDeliv := x.nextDeliv + 1, delivs := x.delivs ++ [d] }
  let m := units.foldl (fun (m : Mach) u =>
    m.offerUnit (t.chanFor u.kind) { kind := u.kind, stream := s, deliv := d.id, late := u.late, data := u.data, shape := u.shape, key := u.key }) m
  m.offerVeneers s

/-- The records of area frames that were cut off behind their last finished stripe are offered, as those of no delivery (R204). -/
def Mach.offerFrameEnds (m : Mach) : Mach :=
  m.each ((m.streams.filter fun x => !x.2.cutFrames.isEmpty).map Prod.fst) fun s m =>
    let l := (m.strm s).cutFrames
    l.foldl (fun (m : Mach) (f : CutFrame) =>
      let m := (m.inc E.STATS_RECORDS s).inc E.STATS_SATURATED s (bn f.acc.saturated)
      m.offerUnit (Terms.dma f.terms 2)
        { kind := 4, stream := s, deliv := 2 ^ 64, data := f.acc.record f.prof 2 s (Terms.profile f.terms) f.prof.zonesY,
          key := f.acc.frame * 2 ^ 32 + f.acc.line }) (m.setStrm s { m.strm s with cutFrames := [] })

/-- The cutter writes the IDs and CENTROID_TIMEs of the objects it numbered into the object memory (R268). -/
def Mach.remember (m : Mach) (s : Nat) (l : List (Nat × TW64)) : Mach :=
  let put := fun (o : SMap (Nat × Nat)) (x : Nat × TW64) =>
    SMap.put (s * 65536 + x.1 % 65536) (s * 2 ^ 56 + x.1 % 2 ^ 56, x.2.toNat) o
  { m with mallet.objs := l.foldl put m.mallet.objs }

/-- Send bytes of one section of SYNC_DATA (R418, notes/assumptions/17.md): ARG_A the section, ARG_B 1 on its last piece. -/
def Mach.sendSync (m : Mach) (section_ : Nat) (w : List Nat) : Mach :=
  let b := wordsBytes w
  let n := b.length / 2048
  (List.range (n + 1)).foldl (fun m i => m.pairSend 0x69 3 section_ (bn (i == n)) ((b.drop (2048 * i)).take 2048)) m

/-- The starting state of the stripe that a stream's planer takes next, its key and its place in its sequence (R409, R418). -/
def Stream.startWords (x : Stream) (s : Nat) : List Nat :=
  let next := (x.stripes.find? fun p => !p.started).or x.stripe
  let key := match next with
    | some p => [p.frame, p.line, p.row0, p.first, 0, p.inst]
    | none => [x.rx.frame, x.rx.line, x.seqRows, x.seqFirst, bn x.newSeq, x.frames]
  s :: key ++ encCtx (x.ctxFor ((next.map Stripe.apply).getD x.applies)) ++ [x.tileSeq] ++ encL encStamped x.waiting ++ encL encSlot x.slots ++ [x.nextSlot] ++ encL encSlot x.ghosts

/-- On the active module, a stripe has ended of a stream whose starting state the partner in SYNCING awaits (R418). -/
def Mach.giveStart (m : Mach) (s : Nat) : Mach :=
  if m.pair.giveStart.contains s then
    { m with pair.giveStart := m.pair.giveStart.filter fun k => k != s }.sendSync 7 ((m.strm s).startWords s)
  else m

/-- The planer ends stripe `p` with results `r`, after `cycles` planer cycles (R145, R146, R149, R177, R229). -/
def Mach.endStripe (m : Mach) (n s : Nat) (p : Stripe) (r : Ran) (cycles : Nat) (aborted : Bool) : Mach :=
  let x := m.strm s
  let k := x.ctxFor p.apply
  let seed : Seed := { stripe := p, tref := if p.useRef then k.tref else none, trefNew := k.trefNew, acc := k.acc,
                       tileSeq := x.tileSeq, waiting := x.waiting }
  let p := if aborted then { p with cond := p.cond ||| 1024 } else p
  let refNew := k.trefNew.map fun q => if q.inst = p.inst ∧ bitOf p.prof.flags 3 then q.write p r.refRows else q
  let k := { k with cut := { r.cut with s0 := (p.cutIn.getD {}).s0, apply := p.apply }, acc := r.acc, trefNew := refNew }
  let x := ({ x with
    stripes := x.stripes.filter fun q => q.n0 != p.n0
    tileSeq := r.tileSeq, waiting := r.waiting, lastCycles := x.lastCycles + cycles }.putCtx k).keepCtxs
  let m := m.setStrm s (x.freeSlots p)
  let pl := m.planer n
  let m := m.setPlaner n { pl with run := none, kerf := false, afterWatchdog := aborted }
  let m := (m.wr E.PLANER_STATE n (if pl.slice then 3 else 0)).inc E.BUSY_CYCLES n cycles
  let m := if aborted then (m.inc E.PL_WATCHDOG_TRIPS n).inc E.WATCHDOG_TRIPS s
    else
      let k := p.lastSlot
      let m := ((m.inc E.PLANER_STRIPES n).inc E.STRIPES_DONE s).wr E.LAST_STRIPE s (p.frame * 2 ^ 32 + p.line)
      m.wr E.SET_IN_USE s (p.tagOf k * 2 ^ 32 + k % 2 ^ 32)
  let m := m.countRun s r.counts
  let m := if r.bgRuns then m.wr E.BG_STATE s (if r.cut.bg.k < p.cut.bgLearn then 1 else 2)
    else if aborted then m else m.wr E.BG_STATE s 0
  let m := (m.wr E.NEXT_SEQ s r.cut.seq).wr E.OPEN_NOW s r.cut.objs.length
  let m := (m.freeTables).remember s r.seen
  let m := m.deliver s p r.outRows r.units
  let m := m.ownDigest s p seed (stripeDigest s p r.units)
  ((m.retire s).freeContext s).giveStart s

/-- The stripe that planer `n` runs, with its stream. -/
def Mach.running (m : Mach) (n : Nat) : Option (Nat × Stripe) :=
  match (m.planer n).run with
  | none => none
  | some (s, k) => ((m.strm s).stripes.find? fun p => p.n0 == k && p.started).map fun p => (s, p)

/-- Cycles of 1.750 GHz that planer `n` has spent on its running stripe, slices excluded. -/
def Mach.cyclesRun (m : Mach) (n : Nat) : Nat := (m.ltc.toNat - (m.planer n).startLtc) * 5 / 4 - (m.planer n).sliceCycles

/-- Cycles that a stripe takes on planer `n`: those of its rows and of its kerf (R120, R146). -/
def Mach.stripeCycles (m : Mach) (n : Nat) (p : Stripe) : Nat :=
  (p.rows + 12) * cdiv (Terms.rowPixels p.terms) 16 + 32 * bn (m.planer n).kerf

/-- STRIPE_FINISH (R141): the running stripe ends, once its cycles have passed. -/
def execStripeFinish (n : Nat) (s : State) : Host.Outcome State Fault Refusal :=
  s.onAll (n < 16) fun h m =>
    match m.running n with
    | none => (h, m)
    | some (k, p) =>
      if (m.planer n).slice ∨ m.cyclesRun n < m.stripeCycles n p then (h, m)
      else (h, m.endStripe n k p (p.run (m.runIn h k p) (p.cutIn.getD {})) (m.stripeCycles n p) false)

/-- STRIPE_WATCHDOG (R155): the running stripe, once it has run for longer than 4 × STRIPE_TIME, is aborted. STRIPE_TIME is that of the terms of the
stripe, cdiv(C, 1,000) ns (R134). -/
def execStripeWatchdog (n : Nat) (s : State) : Host.Outcome State Fault Refusal :=
  s.onAll (n < 16) fun h m =>
    match m.running n with
    | none => (h, m)
    | some (k, p) =>
      if m.cyclesRun n * 4 ≤ 4 * cdiv (Terms.c p.terms) 1000 * 7 then (h, m)
      else (h, m.endStripe n k p (p.aborted (m.runIn h k p) (p.cutIn.getD {})) (m.cyclesRun n) true)

/-- LOOKAHEAD_TIMEOUT (R116, R139): the oldest stripe that awaits its lookahead is released short of it. The last
stripe of an area frame waits for none. -/
def execLookaheadTimeout (k : Nat) (s : State) : Host.Outcome State Fault Refusal :=
  s.onMach (k < 256) fun m =>
    let x := m.strm k
    match x.stripes.find? fun p => p.closed && !p.released with
    | none => m
    | some p =>
      let p := { p.release m.now with short := true, haveRow := if p.sequ = x.sequ then x.seqRows else p.behind }
      ((m.setStrm k (x.putStripe p)).inc E.EARLY_RELEASES k).peakAll

/-! ### Replay slices and clocks -/

/-- REPLAY_WINDOW (R144): at an LTC that is a multiple of 28,000, with a replay pending, the planer takes a slice of 1,750 cycles, 1,686 of them
work. -/
def execReplayWindow (n : Nat) (s : State) : Host.Outcome State Fault Refusal :=
  s.onMach (n < 16) fun m =>
    let pl := m.planer n
    m.when (m.ltc.toNat % 28000 == 0 && !pl.slice && !pl.replays.isEmpty) fun m =>
      let m := m.setPlaner n { pl with slice := true, sliceAt := m.ltc.toNat, sliceCycles := pl.sliceCycles + 1750, replayCycles := pl.replayCycles - 1686, gated := false }
      (m.wr E.PLANER_STATE n 3).inc E.SLICES_TAKEN n

/-- REPLAY_SLICE_END (R144): 1,000,000 ps after its start. -/
def execReplaySliceEnd (n : Nat) (s : State) : Host.Outcome State Fault Refusal :=
  s.onMach (n < 16) fun m =>
    let pl := m.planer n
    m.when (pl.slice && decide (pl.sliceAt + 1400 ≤ m.ltc.toNat)) fun m =>
      (m.setPlaner n { pl with slice := false }).wr E.PLANER_STATE n (if pl.run.isSome then 1 else 0)

/-- A stream has its context on planer `n` (R145). -/
def Mach.placedOn (m : Mach) (n : Nat) : Bool :=
  m.streams.any fun x =>
    (m.hasContext x.1 && (x.2.planer == n || x.2.curPlaner == n)) || x.2.live.any (fun l => l.planer == n) ||
      (x.2.stripes ++ x.2.stripe.toList).any fun p => p.planer == n

/-- PLANER_CLOCK_GATE (R466). -/
def execPlanerClockGate (n : Nat) (s : State) : Host.Outcome State Fault Refusal :=
  s.onMach (n < 16) fun m =>
    m.when (!m.placedOn n) fun m => m.setPlaner n { m.planer n with gated := true }

/-! ### Keyed writes, set slots -/

/-- A write of an entry that acts on one value (R426, R428): another value has no effect and counts with kind 1, where no row of R426
comes first. -/
def Mach.keyed (m : Mach) (path : Nat) (e : Entry) (k : Nat) (data : Bytes) (okState : Bool) (key : Nat) (f : Mach → Mach) : Mach :=
  let a := e.at k
  if writtenInt e.ty data = key then m.command path a.1 a.2 data okState f
  else if okState then m.noEffect path a.1 a.2 1 data else m.command path a.1 a.2 data false id

/-- The tag of an untagged slot of a stream (R149): LAST_TAG of its port; of a remote stream the tag last noticed
(notes/assumptions/20.md). -/
def Mach.lastTag (m : Mach) (s : Nat) : Nat :=
  let x := m.strm s
  let t := m.force s
  if t.remote then (x.slots.getLast?.map SetSlot.tag).getD 0 else m.rd E.LAST_TAG t.port

/-- The slot of PARAMS_APPLY is created, or waits (R149). -/
def Mach.paramsSlot (m : Mach) (s : Nat) : Mach :=
  let x := m.strm s
  if x.slots.length < 8 then (m.setStrm s { x with paramsWait := false }).addSlot s { tag := m.lastTag s, atNext := true }
  else m.setStrm s { x with paramsWait := true }

/-- PARAMS_APPLY (R149), for a stream that has a context. -/
def execParamsApply (path k : Nat) (data : Bytes) (s : State) : Host.Outcome State Fault Refusal :=
  s.onMach (path < 5 ∧ k < 256) fun m =>
    m.keyed path E.PARAMS_APPLY k data (!(m.strm k).paramsWait) 1 fun m => m.when (m.hasContext k) fun m => m.paramsSlot k

/-- SET_SLOT_WAIT_END (R149): what waits for a slot of the stream goes on. -/
def execSetSlotWaitEnd (k : Nat) (s : State) : Host.Outcome State Fault Refusal :=
  s.onMach (k < 256) fun m =>
    let m := if (m.strm k).waitSlot then m.enterRunning k else m
    let t := m.force k
    let m := if t.remote then m else m.resumeSettings t.port
    if (m.strm k).paramsWait ∧ (m.strm k).slots.length < 8 then m.paramsSlot k else m

/-- BG_CMD (R219). -/
def execBgCmd (path k : Nat) (data : Bytes) (s : State) : Host.Outcome State Fault Refusal :=
  s.onMach (path < 5 ∧ k < 256) fun m =>
    m.keyed path E.BG_CMD k data true 1 fun m => m.setStrm k { m.strm k with relearn := true }

/-! ### The table loader (R186, R187) -/

/-- TBL_SIZE (R186 step 2): rounded up to 8 bytes and clamped to the free pool. -/
def Mach.tblSize (m : Mach) (path : Nat) (data : Bytes) : Mach :=
  m.command path 0x3AF0 3 data (m.rd E.TBL_STATE == 0) fun m =>
    let c := m.clampNum E.TBL_SIZE 0 (writtenInt E.TBL_SIZE.ty data)
    let v := c.val.toNat
    let up := cdiv v 8 * 8
    let free := m.poolFree / 8 * 8
    let n := Nat.min up free
    let kind := if c.kind ≠ 0 then c.kind else if up ≠ v then 5 else if n ≠ up then 4 else 0
    let m := (m.wr E.TBL_SIZE 0 n).tallyIf path 0x3AF0 3 kind data
    let m := { m with tabs.loading := zeros n }
    ((m.wr E.TBL_OFFSET 0 0).wr E.TBL_STATE 0 1).showPool

/-- TBL_SIZE. -/
def execTblSize (path : Nat) (data : Bytes) (s : State) : Host.Outcome State Fault Refusal :=
  s.onMach (path < 5) fun m => m.tblSize path data

/-- TBL_DATA (R186 step 3): at most 4,096 bytes a write; bytes beyond TBL_SIZE are discarded. -/
def Mach.tblData (m : Mach) (path : Nat) (data : Bytes) : Mach :=
  m.command path 0x3AF0 5 data (m.rd E.TBL_STATE == 1) fun m =>
    let c := m.convert E.TBL_DATA 0 data
    let b := c.val.toBytes
    let o := m.rd E.TBL_OFFSET
    let m := m.tallyIf path 0x3AF0 5 c.kind data
    let m := { m with tabs.loading := putBytes m.tabs.loading o b }
    m.wr E.TBL_OFFSET 0 (Nat.min (m.rd E.TBL_SIZE) (o + b.length))

/-- TBL_DATA. -/
def execTblData (path : Nat) (data : Bytes) (s : State) : Host.Outcome State Fault Refusal :=
  s.onMach (path < 5) fun m => m.tblData path data

/-- Some stream uses the profile (R187, R188). -/
def Mach.profileUsed (m : Mach) (prof : Nat) : Bool :=
  m.streams.any fun x => (x.2.admitted && Terms.profile x.2.force == prof) || x.2.live.any (fun l => Terms.profile l.terms == prof)

/-- TBL_CMD 1 (R186 step 4): the copy is pending, and active at once when no stream uses the profile. -/
def Mach.tblSwap (m : Mach) (path : Nat) : Mach :=
  m.command path 0x3AF0 6 [1] (m.rd E.TBL_STATE == 1) fun m =>
    let prof := m.rd E.TBL_PROFILE
    let m := { m with tabs.pending := some (prof, m.rd E.TBL_KIND, m.tabs.loading), tabs.loading := [] }
    let m := m.wr E.TBL_STATE 0 2
    if m.profileUsed prof then m else m.activateTable

/-- TBL_CMD_SWAP. -/
def execTblCmdSwap (path : Nat) (s : State) : Host.Outcome State Fault Refusal :=
  s.onMach (path < 5) fun m => m.tblSwap path

/-- TBL_CMD 2 (R186): the loading copy is freed. -/
def Mach.tblAbandon (m : Mach) (path : Nat) : Mach :=
  m.command path 0x3AF0 6 [2] (m.rd E.TBL_STATE == 1) fun m =>
    let m := { m with tabs.loading := [] }
    (m.wr E.TBL_STATE 0 0).showPool

/-- TBL_CMD_ABANDON. -/
def execTblCmdAbandon (path : Nat) (s : State) : Host.Outcome State Fault Refusal :=
  s.onMach (path < 5) fun m => m.tblAbandon path

/-- TABLE_ACTIVATE (R187): a pending swap of a profile that no stream uses any more is active at once; the first stripe
or frame that opens makes it active otherwise. Copies that no stripe uses are freed. -/
def execTableActivate (prof kind : Nat) (s : State) : Host.Outcome State Fault Refusal :=
  s.onMach (prof < 64 ∧ 1 ≤ kind ∧ kind ≤ 3) fun m =>
    let due := match m.tabs.pending with
      | some (p, k, _) => p == prof && k == kind && !m.profileUsed prof
      | none => false
    if due then m.activateTable else m.freeTables

end Sys2Proof.Machine
end

