-- ==== Sys2Proof/Machine/Writes.lean ====
section
/-! DEFINITION. A dictionary write of one entry: the states in which it is without effect (R15, R212, R254, R281,
R338, R426), the owning chapters' own rules for its value (R57, R163, R169, R195, R201, R237, R275), what it bounds
(R427), persistence (R431) and the configuration epoch (R403). -/

namespace Sys2Proof.Machine

/-! ### Writes without effect -/

/-- A stream is idle (R426). -/
def Mach.idle (m : Mach) (s : Nat) : Bool := m.cstate s != cRUNNING && !m.inForecast s

/-- The terms of a stream that a write may touch: in force and, during a verdict, staged. -/
def Mach.termsNow (m : Mach) (s : Nat) : List Terms :=
  (if (m.strm s).admitted then [m.force s] else []) ++ (if m.inForecast s then [m.staged s] else [])

/-- Some stream that is not idle has terms with a property. -/
def Mach.busyWith (m : Mach) (f : Terms → Bool) : Bool :=
  (List.range 256).any fun s => !m.idle s && (m.termsNow s).any f

/-- The port that holds a lane (R18). -/
def Mach.portOfLane (m : Mach) (l : Nat) : Option Nat :=
  (List.range 96).find? fun p => decide (p ≤ l ∧ l < p + m.rd E.PORT_WIDTH p)

/-- An owning stream of an RWQ entry is not idle (R426). -/
def Mach.ownerBusy (m : Mach) (e : Entry) (k : Nat) : Bool :=
  if e.base = 0x2000 ∨ e.base = 0x2001 then m.busyWith fun t => !Terms.remote t && Terms.port t / 4 == k
  else if e.base = 0x2100 then m.busyWith fun t => !Terms.remote t && m.portOfLane k == some (Terms.port t)
  else if e.base = 0x3100 then !m.idle k
  else if e.base = 0x3A00 then m.busyWith fun t => Terms.profile t == k
  else false

/-- A contract that is ADMITTED, RUNNING or SUSPENDED, or that has a change in FORECAST, names the profile (R212). -/
def Mach.profileHeld (m : Mach) (n : Nat) : Bool :=
  (List.range 256).any fun s =>
    (((m.strm s).admitted || m.rd E.CONTRACT_STATE s == 4) && Terms.profile (m.force s) == n) ||
    (m.rd E.CHANGE_STATE s == 1 && Terms.profile (m.staged s) == n)

/-- Entries that a sequencer takes while it is ARMED or RUNNING (R254). -/
def mgOpen : List Entry := [E.MG_TARGET_POS, E.MG_TARGET_TIME, E.MG_PITCH, E.MG_PERIOD, E.MG_COUNT]

/-- A sequencer is ARMED or RUNNING (R254). -/
def Mach.mgActive (m : Mach) (k : Nat) : Bool := let s := m.rd E.MG_STATE k % 4; s == 1 || s == 2

/-- The owning chapter names the present state as one in which a write of the entry is without effect. -/
def Mach.blocked (m : Mach) (e : Entry) (k : Nat) : Bool :=
  (e.acc == .rwq && m.ownerBusy e k) ||
  (e.base == 0x3100 && m.inForecast k) ||
  ([E.OUT_CH, E.OUT_FORMAT, E.STATS_CH, E.STATS_EN, E.ZONES_X, E.ZONES_Y].contains e && m.profileHeld k) ||
  ([E.CH_CLASS, E.RING_DIR, E.CH_ADDR, E.RING_ORDER, E.SLOT_BYTES, E.SHUFFLE_MODE, E.SHUFFLE_MAP].contains e &&
    (m.chan k).state != 0) ||
  (e.base == 0x4800 && m.mgActive k && !mgOpen.contains e) ||
  ([E.VP_LENGTH, E.VP_ROW, E.UPDATE_PERIOD, E.VP_ANCHOR, E.VP_CLKDIV].contains e && m.rd E.VP_ENABLE k == 1) ||
  ([E.TBL_PROFILE, E.TBL_KIND, E.TBL_SIZE].contains e && m.rd E.TBL_STATE != 0)

/-! ### Rules of the owning chapters -/

/-- The earlier of two clamp kinds in the order of R427, 0 standing for none. -/
def firstKind (a b : Nat) : Nat := if a = 0 then b else if b = 0 then a else min a b

/-- Replace bytes of a DOMAIN by legal ones, element by element of `w` bytes from offset `o`: `f` gives the legal
number and the kind. -/
def mapElems (w : Nat) (f : Nat → Nat × Nat) (b : Bytes) : Nat → Nat → Bytes × Nat
  | _, 0 => (b, 0)
  | o, n + 1 =>
    let v := leAt b o w
    let r := f v
    let rest := mapElems w f (if r.1 = v then b else putBytes b o (leBytes w r.1)) (o + w) n
    (rest.1, firstKind r.2 rest.2)

/-- An I32 brought to ±65,535 (R195, R201). -/
def clampI32 (v : Nat) : Nat × Nat :=
  let i := signedOf 32 v
  let c := clampInt i (-65535) 65535
  (patternOf 32 c, if c = i then 0 else 1)

/-- Reserved bits forced to 0. -/
def onlyBits (mask v : Nat) : Nat × Nat := (v &&& mask, if v &&& mask = v then 0 else 3)

/-- A frame-parameter set (R169, R195). -/
def legalFrame (b : Bytes) : Bytes × Nat :=
  let a := mapElems 4 (onlyBits 0xFFFFFF) b 96 16
  let c := mapElems 4 (onlyBits 0) a.1 176 20
  let d := mapElems 4 clampI32 c.1 384 8
  let e := mapElems 4 (onlyBits 0) d.1 416 24
  (e.1, firstKind a.2 (firstKind c.2 (firstKind d.2 e.2)))

/-- A PATTERN under BANDS (R162, R163). -/
def legalPattern (bands : Nat) (b : Bytes) : Bytes × Nat :=
  mapElems 1 (fun v => let w := v % 8; if bands ≤ w then (0, if w = v then 4 else 3) else (w, if w = v then 0 else 3)) b 0 16

/-- A TX_FIR word keeps the ranges of R55 and R57. -/
def txFirOk (w : Nat) : Bool :=
  let f := fun i => (signedOf 8 (w / 2 ^ (8 * i))).natAbs
  let main := signedOf 8 (w / 2 ^ 16)
  decide (64 ≤ main ∧ f 0 + f 1 + f 2 + f 3 ≤ 128)

/-- The least UPDATE_PERIOD that holds the frame, in µs (R275). -/
def Mach.leastPeriod (m : Mach) (v : Nat) : Nat := cdiv ((m.rd E.VP_LENGTH v + 18) * m.rd E.VP_CLKDIV v) 350

/-- The value that the owning chapter's rule puts in force for a value of the entry's type and range. -/
def Mach.legal (m : Mach) (e : Entry) (k : Nat) (v : Val) : Clamped :=
  let bytes := fun (r : Bytes × Nat) => (⟨.bytes r.1, r.2⟩ : Clamped)
  if e = E.FRAME_PARAMS ∨ e = E.FRAME_DEFAULTS then bytes (legalFrame v.toBytes)
  else if e = E.CSC_OFFSET then bytes (mapElems 4 clampI32 v.toBytes 0 3)
  else if e = E.THRESHOLDS then bytes (mapElems 2 (fun x => if x = 0 then (1, 1) else (x, 0)) v.toBytes 0 8)
  else if e = E.PATTERN then bytes (legalPattern (m.rd E.BANDS k) v.toBytes)
  else if e = E.TX_FIR then (if txFirOk v.toNat then ⟨v, 0⟩ else ⟨.num eqDefault.1, 2⟩)
  else if e = E.MG_DIR then (if m.rd E.MG_MODE k = 2 ∧ v.toNat = 2 then ⟨.num 0, 4⟩ else ⟨v, 0⟩)
  else if e = E.UPDATE_PERIOD then
    let n := m.leastPeriod k
    if v.toNat < n then ⟨.num n, 4⟩ else ⟨v, 0⟩
  else if e = E.PLANER_MASK then (if v.toNat = 0 then ⟨e.dflt, 2⟩ else ⟨v, 0⟩)
  else ⟨v, 0⟩

/-! ### Dependents -/

/-- The entries that an entry bounds (R427), with their instances. -/
def boundedBy (e : Entry) (k : Nat) : List (Entry × Nat) :=
  if e = E.SPEED_UP then [(E.SPEED_DOWN, k)]
  else if e = E.DIV_M then [(E.DIV_N, k)]
  else if e = E.RATE_LIMIT then [(E.NEXT_RATE, 0)]
  else if e = E.CH_CLASS then [(E.CH_ADDR, k)]
  else if e = E.HOST_SHARE_LIMIT then (List.range 128).map fun c => (E.SHARE_EXTRA, c)
  else if e = E.TASK_KIND then [(E.TASK_PARAM, k)]
  else if e = E.MG_MODE then [(E.MG_DIR, k), (E.MG_PERIOD, k)]
  else if e = E.VP_LENGTH ∨ e = E.VP_CLKDIV then [(E.UPDATE_PERIOD, k)]
  else if e = E.BANDS then [(E.PATTERN, k)]
  else []

/-- The first 8 bytes of a value in force. -/
def Val.first8 (e : Entry) : Val → Bytes
  | .num n => leBytes e.ty.bytes n
  | .bytes b => b.take 8

/-- Clamp a dependent again: it counts once with kind 4, charged to the path of the write (R427); a persistent value that changes so is to be stored (R431). -/
def Mach.again (m : Mach) (path : Nat) (e : Entry) (k : Nat) : Mach :=
  let old := m.val e k
  let new := if e.ty.numeric then
      let c := m.clampNum e k (if e.ty.signed then m.rdI e k else (m.rd e k : Int))
      (m.legal e k c.val).val
    else (m.legal e k old).val
  if new = old then m else ((m.setVal e k new).when e.persist fun m => m.wr E.STORE_PENDING 0 1).tallyE path e k 4 (old.first8 e)

/-! ### One write -/

/-- A value has taken effect: a persistent one is to be stored (R431), and a pair-wide one counts in the configuration
epoch (R403). -/
def Mach.tookEffect (m : Mach) (e : Entry) (k : Nat) : Mach :=
  if e.persist then
    let m := m.wr E.STORE_PENDING 0 1
    if pairWide (e.at k).1 (e.at k).2 then m.inc E.CONFIG_EPOCH 0 else m
  else m

/-- Put a written value in force: converted, clamped, stored, and its dependents clamped again (R425, R427). -/
def Mach.putEntry (m : Mach) (path : Nat) (e : Entry) (k : Nat) (data : Bytes) : Mach :=
  let c := m.convert e k data
  let r := m.legal e k c.val
  let a := e.at k
  let m := ((m.setVal e k r.val).tallyIf path a.1 a.2 (firstKind c.kind r.kind) data).tookEffect e k
  (boundedBy e k).foldl (fun m x => m.again path x.1 x.2) m

/-- A write of an entry by a path, followed by `after` on the machine before it and the machine after it (R426). -/
def Mach.writeEntry (m : Mach) (path : Nat) (e : Entry) (k : Nat) (data : Bytes) (after : Mach → Mach → Mach) : Mach :=
  let a := e.at k
  if m.serves path = false then m
  else if e.acc = .ro ∨ e.acc = .const then m.tally path a.1 a.2 6 data
  else m.command path a.1 a.2 data (!m.blocked e k) fun m => after m (m.putEntry path e k data)

/-- The same, of an entry whose write has no further effect. -/
def Mach.writePlain (m : Mach) (path : Nat) (e : Entry) (k : Nat) (data : Bytes) : Mach :=
  m.writeEntry path e k data fun _ m => m

end Sys2Proof.Machine
end

