-- ==== Sys2Proof/Machine/Endpoint.lean ====
section
/-! DEFINITION. The PCI Express function: the link and E (R313 to R315), Bus Master Enable and drains (R328, R329), resets
and power states (R332 to R334), MSI-X control (R322, R323), completions and tags (R330, R331), the registers that act
when read, and the look-back aperture (R319, R320, R324, R325). -/

namespace Sys2Proof.Machine

/-! ### The link and E (R119, R314, R315) -/

/-- E of a link under R119 and R314: GB/s by rate code, width in lanes and Max_Payload_Size in bytes. -/
def linkE (rate width mps : Nat) : Nat :=
  let row := match rate with
    | 3 => (3, 6, 13) | 4 => (6, 13, 26) | 5 => (13, 26, 52) | 6 => (28, 56, 112) | _ => (0, 0, 0)
  let e := if width = 16 then row.2.2 else if width = 8 then row.2.1 else row.1
  if mps = 128 then 3 * e / 4 else e

/-- Writes not yet issued or sent are cut again at a smaller Max_Payload_Size (R318). -/
def Mach.recut (m : Mach) (mps : Nat) : Mach :=
  let cut := fun (w : HostWrite) => if w.vector.isSome then [w] else (splitWrite mps w.data.length w.addr w.data).map fun p => { w with addr := p.1, data := p.2 }
  let plan := fun (u : Unit) => u.plan.take u.done ++ (u.plan.drop u.done).flatMap fun p =>
    if p.write.data.length ≤ mps then [p] else (cut p.write).map fun w => { p with write := w }
  { m with ep.writes := m.ep.writes.flatMap cut,
           chans := m.chans.map fun x => (x.1, { x.2 with queue := x.2.queue.map fun (u : Unit) => { u with plan := plan u } }) }

/-- Rate, width and Max_Payload_Size are now these: a change is counted, and a change of E re-forecasts (R131, R314). -/
def Mach.linkNow (m : Mach) (rate width mps : Nat) : Mach :=
  let e := linkE rate width mps
  let m := (m.recut mps).refillAll
  let new := (rate, width, mps)
  let old := m.ep.trained
  let changed := old != some new && old.isSome
  let moved := m.ep.e != e && old.isSome
  let m := { m with ep.trained := some new, ep.e := e }
  let m := m.wr E.HOST_RATE 0 e
  let m := if changed then (m.inc E.LINK_CHANGES 0).cause 4 else m
  if moved then { m with fail2 := some m.ns }.reforecast else m

/-- A link that trains is one that the module advertises (R313, R315); a DORMANT module's runs at 2.5 GT/s x4 (R466). -/
def Mach.trains (m : Mach) (rate width : Nat) (flit : Bool) : Bool :=
  (m.rd E.MODULE_STATE != 2 || (rate == 1 && width == 4)) && decide (1 ≤ rate ∧ rate ≤ m.rd E.MAX_LINK_RATE ∧ rate ≤ 6 ∧ width ≤ m.rd E.MAX_LINK_WIDTH) &&
    (width == 4 || width == 8 || width == 16) && (if rate = 6 then flit else if rate ≤ 2 then !flit else true)

/-- The link runs on as it is: the change is one of Max_Payload_Size alone, and no training takes place (R315). -/
def Mach.sameLink (m : Mach) (rate width : Nat) (flit : Bool) : Bool :=
  m.ep.up && m.rd E.LINK_RATE == rate && m.rd E.LINK_WIDTH == width && m.rd E.LINK_FLIT == bn flit

/-- LINK_CHANGE (R313 to R315, R317): `errors` holds the correctable errors that the link has logged since the last (R335). A Max_Payload_Size written
during an FLR waits behind it (R329), and the host island recovers with its link (R475). -/
def execLinkChange (rate width : Nat) (flit : Bool) (mps errors : Nat) (s : State) : Host.Outcome State Fault Refusal :=
  s.onMach true fun m =>
    m.when ((m.rd E.MODULE_STATE != 0 || m.life.supply) && (m.sameLink rate width flit || m.trains rate width flit) &&
        (mps == 128 || mps == 256 || mps == 512)) fun m =>
      let m := ({ m with ep.up := true }.linkErrors errors)
      let m := if m.rd E.ISLAND_STATE 0x31 = 2 then { m with fail8 := some m.ns, life.hostFault := false }.wr E.ISLAND_STATE 0x31 1 else m
      let waits := m.ep.flr && m.rd E.MPS_NOW != mps
      let m := m.when waits fun m => { m with ep.queuedCfg := m.ep.queuedCfg ++ [.mps mps] }
      let now := if waits then m.rd E.MPS_NOW else mps
      let m := (((m.wr E.LINK_RATE 0 rate).wr E.LINK_WIDTH 0 width).wr E.LINK_FLIT 0 (bn flit)).wr E.MPS_NOW 0 now
      (m.linkNow rate width now).resume

/-! ### Withdrawn mastering (R328, R329, R333) -/

/-- Count discarded writes (R328, R332): the function's own counter only where it is not reset. -/
def Mach.countDiscards (m : Mach) (n : Nat) (own : Bool) : Mach :=
  let m := m.inc E.BME_DISCARDS_ALL 0 n
  if own ∧ 0 < n then { m with ep.bmeDiscards := (m.ep.bmeDiscards + n) % 2 ^ 32 }.cause 2 else m

/-- Steps 1 to 5 of R328. A recovery of the engine ends (R361). -/
def Mach.withdraw (m : Mach) : Mach :=
  let r := ({ m with ep.drain := true, fail2 := some m.ns }).discardWrites
  ((r.2.countDiscards r.1 true).abandonReads.holdChannels).endRecovery

/-- BME_CLEAR (R328, R329): behind an FLR the write is queued; a queued enable is dropped. -/
def Mach.bmeClear (m : Mach) : Mach :=
  if m.ep.flr then { m with ep.queuedCfg := m.ep.queuedCfg ++ [.bme false] }
  else
    let m := { m with ep.queuedBme := false }
    if m.ep.bme then ({ m with ep.bme := false }.inc E.BME_CLEARS 0).withdraw else m

/-- BME_SET (R329). -/
def Mach.bmeSet (m : Mach) : Mach :=
  if m.ep.flr then { m with ep.queuedCfg := m.ep.queuedCfg ++ [.bme true] }
  else if m.ep.bme then m
  else if m.ep.drain then { m with ep.queuedBme := true }
  else { m with ep.bme := true, fail2 := some m.ns }.resume

/-- D3HOT_ENTRY (R333). -/
def Mach.d3Enter (m : Mach) : Mach :=
  if m.ep.flr then { m with ep.queuedCfg := m.ep.queuedCfg ++ [.d3] }
  else if m.ep.d3 then { m with ep.queuedD0 := false }
  else { m with ep.d3 := true, ep.queuedD0 := false }.withdraw

/-- D0_RETURN (R329, R333). -/
def Mach.d0Return (m : Mach) : Mach :=
  if m.ep.flr then { m with ep.queuedCfg := m.ep.queuedCfg ++ [.d0] }
  else if m.ep.d3 = false then m
  else if m.ep.drain then { m with ep.queuedD0 := true }
  else { m with ep.d3 := false, fail2 := some m.ns }.resume

/-- BME_CLEAR (R328). -/
def execBmeClear (s : State) : Host.Outcome State Fault Refusal := s.onMach true fun m => m.when m.configured Mach.bmeClear

/-- BME_SET (R329). -/
def execBmeSet (s : State) : Host.Outcome State Fault Refusal := s.onMach true fun m => m.when m.configured Mach.bmeSet

/-- D3HOT_ENTRY (R333). -/
def execD3hotEntry (s : State) : Host.Outcome State Fault Refusal := s.onMach true fun m => m.when m.configured Mach.d3Enter

/-- D0_RETURN (R333). -/
def execD0Return (s : State) : Host.Outcome State Fault Refusal := s.onMach true fun m => m.when m.configured Mach.d0Return

/-- The drain has ended (R328, R329): what is queued behind it takes effect. -/
def Mach.endDrain (m : Mach) : Mach :=
  let m := { m with ep.drain := false, ep.bme := m.ep.bme || m.ep.queuedBme, ep.d3 := m.ep.d3 && !m.ep.queuedD0,
                    ep.queuedBme := false, ep.queuedD0 := false, fail2 := some m.ns }
  m.resume

/-- DRAIN_END (R328, R329). -/
def execDrainEnd (s : State) : Host.Outcome State Fault Refusal :=
  s.onMach true fun m => m.when (m.ep.drain && m.ep.reads.isEmpty) Mach.endDrain

/-! ### Resets (R332, R334) -/

/-- The mailbox returns to its reset values, and a running transaction is dropped with RESULT 5 (R332, R439). A buffer of
the mailbox is discarded with kind 5 (R440). -/
def Mach.resetMailbox (m : Mach) : Mach :=
  let running := m.mb.status % 4 == 1
  let tag := m.mb.status / 2 ^ 16
  let m := match m.mb.accum with
    | some a => m.tally 0 a.index a.sub 5 a.bytes
    | none => m
  { m with mb := { status := if running then 2 + 5 * 2 ^ 8 + tag * 2 ^ 16 else 0 } }

/-- What a Function Level Reset and a loss of the data link have in common (R332, R334, R361). -/
def Mach.functionReset (m : Mach) : Mach :=
  let r := m.discardWrites
  let m := r.2.countDiscards r.1 false
  let tags := m.ep.reads.map HostRead.tag
  let m := m.abandonReads.endRecovery
  let m := m.resetMailbox
  let m := m.each (List.range 128) fun c m =>
    let m := m.toIdle c
    m.setChan c { m.chan c with hw := 0, sw := 0, alloc := 0, error := 0, issued := [], redo := [] }
  let old := m.ep
  let m := { m with ep := { up := old.up, flr := true, quarantine := old.quarantine ++ tags, flrTags := old.flrTags ++ tags,
                            e := old.e, trained := old.trained },
                    fail2 := some m.ns }
  (m.wr E.MPS_NOW 0 128).wr E.TIMEOUT_NOW 0 10000

/-- A Function Level Reset (R314, R332): the change of Max_Payload_Size is counted and E follows it, but no contract is judged again and INT_CAUSE
reads as reset. One received during an FLR is queued (R329). -/
def Mach.flReset (m : Mach) : Mach :=
  if m.ep.flr then { m with ep.queuedCfg := m.ep.queuedCfg ++ [.flr] }
  else
    let m := m.functionReset.inc E.FLRS 0
    let new := (m.rd E.LINK_RATE, m.rd E.LINK_WIDTH, 128)
    let m := if m.ep.trained.any fun t => t != new then m.inc E.LINK_CHANGES 0 else m
    let e := linkE new.1 new.2.1 128
    ({ m with ep.trained := some new, ep.e := e }.refillAll).wr E.HOST_RATE 0 e

/-- FUNCTION_LEVEL_RESET (R314, R332). -/
def execFunctionLevelReset (s : State) : Host.Outcome State Fault Refusal := s.onMach true fun m => m.when m.configured Mach.flReset

/-- The data link goes down (R315, R334): the Forecast keeps E. -/
def Mach.linkDown (m : Mach) : Mach :=
  let m := { m.functionReset with ep.up := false }
  (((m.inc E.DL_DOWNS 0).wr E.LINK_RATE 0 0).wr E.LINK_WIDTH 0 0).wr E.LINK_FLIT 0 0

/-- MSI-X Enable and Function Mask are written (R323). -/
def Mach.msixControl (m : Mach) (enable fmask : Bool) : Mach :=
  if m.ep.flr then { m with ep.queuedCfg := m.ep.queuedCfg ++ [.msix enable fmask] }
  else
    let m := { m with ep.msixEnable := enable, ep.msixFmask := fmask, ep.pba := if enable then m.ep.pba else [],
                      ep.muted := if enable then m.ep.muted else [] }
    m.flushMsix

/-! ### Configuration registers (R316 to R318, R329, R331 to R333, R335) -/

/-- The completion timeout of a Device Control 2 value, µs (R318). -/
def timeoutOf (v : Nat) : Nat := match v with | 1 => 100 | 5 => 50000 | 6 => 200000 | _ => 10000

/-- Put configuration registers. -/
def Mach.setCfg (m : Mach) (f : CfgRegs → CfgRegs) : Mach := { m with ep.cfg := f m.ep.cfg }

/-- Max_Payload_Size is written (R314). -/
def Mach.writeMps (m : Mach) (n : Nat) : Mach := (m.wr E.MPS_NOW 0 n).linkNow (m.rd E.LINK_RATE) (m.rd E.LINK_WIDTH) n

/-- A write of Device Control: Max_Payload_Size of at most 512 bytes (R317) and Max_Read_Request_Size of at most 4,096 (R318) take
effect, the reporting enables of errors are put, and Initiate Function Level Reset acts (R332). -/
def Mach.writeDevCtl (m : Mach) (v : Nat) : Mach :=
  let p := bitsOf v 7 5
  let r := bitsOf v 14 12
  let m := m.setCfg fun c => { c with mrrs := if r ≤ 5 then r else c.mrrs, report := v % 16 }
  let m := if p ≤ 2 then m.writeMps (128 * 2 ^ p) else m
  if bitOf v 15 then m.flReset else m

/-- A write of Device Control 2: the timeout of later reads (R318), and the tags of later reads (R331). -/
def Mach.writeDevCtl2 (m : Mach) (v : Nat) : Mach :=
  (m.setCfg fun c => { c with timeout := v % 16, tag10 := bitOf v 12 }).wr E.TIMEOUT_NOW 0 (timeoutOf (v % 16))

/-- Clear the bits of `n` that `v` holds. -/
def clearBits (n v : Nat) : Nat := n - (n &&& v)

/-- Lane `l`'s control register of Lane Margining at the Receiver, which asks for nothing at reset. -/
def marginReg (l : Nat) : Nat × Nat × Nat := (0x228 + 4 * l, 0x9C38, 0xFFBF)

/-- Registers of the extended capabilities by offset, with their reset value and the bits that a write puts (R317, notes/assumptions/54.md): the lane
controls of Lane Margining, the features of the Data Link Feature capability, where Scaled Flow Control is reported, and the capability and
control registers of Precision Time Measurement, a requester alone. -/
def extRegs : List (Nat × Nat × Nat) :=
  (List.range 16).map marginReg ++ [(0x274, 0x80000001, 0x80000000), (0x294, 1, 0), (0x298, 0, 0xFF01)]

/-- What lane `l` answers to its margining control (R317, notes/assumptions/54.md): a report of the module's own capabilities tells of voltage margining
and of no independent error sampler; other answers follow the command. -/
def marginStatus (ctl : Nat) : Nat :=
  if ctl % 8 = 6 ∧ bitsOf ctl 5 3 = 1 ∧ bitsOf ctl 15 8 = 0x88 then ctl % 256 + 2 ^ 8 else if bitsOf ctl 5 3 = 7 then 0 else ctl

/-- A configuration write of 4 bytes (notes/assumptions/54.md): Command, BARs, the power state, Device Control and Device Control 2,
MSI-X control, the AER status registers, which are W1C, masks and severities, and the writable registers of the other extended capabilities. Read-only registers ignore it. During an FLR it is queued (R332). -/
def Mach.cfgWrite (m : Mach) (o v : Nat) : Mach :=
  if m.ep.flr then { m with ep.queuedCfg := m.ep.queuedCfg ++ [.reg o v] }
  else match o with
    | 0x04 => let m := m.setCfg fun c => { c with mse := bitOf v 1 }; if bitOf v 2 then m.bmeSet else m.bmeClear
    | 0x10 => m.setCfg fun c => { c with bar0 := c.bar0 / 2 ^ 32 * 2 ^ 32 + v / 2 ^ 21 * 2 ^ 21 }
    | 0x14 => m.setCfg fun c => { c with bar0 := v * 2 ^ 32 + c.bar0 % 2 ^ 32 }
    | 0x1C => m.setCfg fun c => { c with bar2 := v * 2 ^ 32 }
    | 0x44 => if v % 4 = 3 then m.d3Enter else if v % 4 = 0 then m.d0Return else m
    | 0x58 => m.writeDevCtl v
    | 0x78 => m.writeDevCtl2 v
    | 0xA0 => m.msixControl (bitOf v 31) (bitOf v 30)
    | 0x104 => m.setCfg fun c => { c with aerUnc := clearBits c.aerUnc v }
    | 0x108 => m.setCfg fun c => { c with aerUncMask := v }
    | 0x10C => m.setCfg fun c => { c with aerUncSev := v }
    | 0x110 => m.setCfg fun c => { c with aerCor := clearBits c.aerCor v }
    | 0x114 => m.setCfg fun c => { c with aerCorMask := v }
    | _ => match extRegs.find? fun r => r.1 == o with
      | some r => m.setCfg fun c => { c with ext := SMap.set r.2.1 c.ext o ((r.2.1 - (r.2.1 &&& r.2.2)) ||| (v &&& r.2.2)) }
      | none => m

/-- The extended capabilities beyond AER and the Device Serial Number, by offset and identifier (R317): Secondary PCI Express, Physical
Layer 16.0, 32.0 and 64.0 GT/s, Lane Margining, Data Link Feature and Precision Time Measurement. -/
def extCaps : List (Nat × Nat) :=
  [(0x160, 0x19), (0x190, 0x26), (0x1C0, 0x2A), (0x1F0, 0x31), (0x220, 0x27), (0x270, 0x25), (0x290, 0x1F)]

/-- Equalisation at the data rate of a code is complete, with its three phases, once the link has trained at that rate or above (R317,
notes/assumptions/54.md). -/
def Mach.linkEq (m : Mach) (code : Nat) : Nat := if code ≤ m.rd E.LINK_RATE then 0xF else 0

/-- A configuration read of 4 bytes (R316, R317, notes/assumptions/54.md). -/
def Mach.cfgRead (m : Mach) (o : Nat) : Nat :=
  let c := m.ep.cfg
  let nextOf := fun (o : Nat) => (((extCaps.map Prod.fst).filter fun k => o < k).head?).getD 0
  match o with
  | 0x00 => m.rd E.VENDOR_ID + m.rd E.DEVICE_ID * 2 ^ 16
  | 0x04 => 2 * bn c.mse + 4 * bn m.ep.bme + 2 ^ 20
  | 0x08 => 0xA2 + 0x118000 * 2 ^ 8
  | 0x10 => c.bar0 % 2 ^ 32 + 4
  | 0x14 => c.bar0 / 2 ^ 32
  | 0x18 => 0xC
  | 0x1C => c.bar2 / 2 ^ 32
  | 0x2C => m.rd E.SUBSYS_ID
  | 0x34 => 0x40
  | 0x40 => 0x01 + 0x50 * 2 ^ 8 + 3 * 2 ^ 16
  | 0x44 => (if m.ep.d3 then 3 else 0) + 8
  | 0x50 => 0x10 + 0xA0 * 2 ^ 8 + 2 * 2 ^ 16
  | 0x54 => 2 + 2 ^ 5 + 2 ^ 15 + 2 ^ 28
  | 0x58 => c.report + (m.rd E.MPS_NOW / 256) * 2 ^ 5 + c.mrrs * 2 ^ 12
  | 0x5C => m.rd E.MAX_LINK_RATE + m.rd E.MAX_LINK_WIDTH * 2 ^ 4
  | 0x60 => m.rd E.LINK_RATE * 2 ^ 16 + m.rd E.LINK_WIDTH * 2 ^ 20
  | 0x74 => 3 + 2 ^ 16 + 2 ^ 17
  | 0x78 => c.timeout + 2 ^ 12 * bn c.tag10
  | 0x7C => 2 ^ (m.rd E.MAX_LINK_RATE + 1) - 2
  | 0x80 => m.linkEq 3 * 2 ^ 17 + m.rd E.LINK_FLIT * 2 ^ 26
  | 0xA0 => 0x11 + 2047 * 2 ^ 16 + 2 ^ 30 * bn m.ep.msixFmask + 2 ^ 31 * bn m.ep.msixEnable
  | 0xA4 => 0x100000
  | 0xA8 => 0x108000
  | 0x100 => 0x0001 + 2 * 2 ^ 16 + 0x148 * 2 ^ 20
  | 0x104 => c.aerUnc
  | 0x108 => c.aerUncMask
  | 0x10C => c.aerUncSev
  | 0x110 => c.aerCor
  | 0x114 => c.aerCorMask
  | 0x19C => m.linkEq 4
  | 0x1CC => m.linkEq 5
  | 0x1FC => m.linkEq 6
  | 0x148 => 0x0003 + 2 ^ 16 + 0x160 * 2 ^ 20
  | 0x14C => m.rd E.DSN % 2 ^ 32
  | 0x150 => m.rd E.DSN / 2 ^ 32
  | _ => match extCaps.find? fun k => k.1 == o with
    | some k => k.2 + 2 ^ 16 + nextOf o * 2 ^ 20
    | none => match extRegs.find? fun k => k.1 == o with
      | some r =>
        let v := c.ext.get r.2.1 o
        if 0x228 ≤ o ∧ o < 0x268 then v + marginStatus v * 2 ^ 16 else v
      | none => if o = 0x224 then 3 * 2 ^ 16 else 0

/-- A configuration write that waited behind an FLR takes effect (R332). -/
def Mach.lateCfg (m : Mach) : QueuedCfg → Mach
  | .reg o v => m.cfgWrite o v
  | .bme true => m.bmeSet
  | .bme false => m.bmeClear
  | .d0 => m.d0Return
  | .d3 => m.d3Enter
  | .msix e f => m.msixControl e f
  | .flr => m.flReset
  | .mps n => m.writeMps n

/-- FLR_COMPLETE (R329, R332): the queued configuration writes take effect in order. -/
def execFlrComplete (s : State) : Host.Outcome State Fault Refusal :=
  s.onMach true fun m =>
    m.when m.ep.flr fun m => m.ep.queuedCfg.foldl Mach.lateCfg { m with ep.flr := false, ep.queuedCfg := [], fail2 := some m.ns }

/-- MSIX_ENABLE_WRITE (R323). -/
def execMsixEnableWrite (enable fmask : Bool) (s : State) : Host.Outcome State Fault Refusal :=
  s.onMach true fun m => m.when m.configured fun m => m.msixControl enable fmask

/-- MSIX_PENDING_SEND (R323). -/
def execMsixPendingSend (k : Nat) (s : State) : Host.Outcome State Fault Refusal :=
  s.onMach (k < 2048) fun m =>
    m.when (m.ep.msixEnable && m.ep.pba.contains k && !m.msixHeld k) fun m =>
      { m.sendMsix k with ep.pba := m.ep.pba.erase k, ep.muted := m.ep.muted.erase k }

/-! ### Registers that act when read or written (R319, R320, R324, R325) -/

/-- INT_CAUSE (R320): each bit written as 1 is cleared. -/
def execIntCause (v : Nat) (s : State) : Host.Outcome State Fault Refusal :=
  s.onMach true fun m =>
    m.barWrite fun m => { m with ep.intCause := (List.range 8).foldl (fun c b => if bitOf v b then putBit c b false else c) m.ep.intCause }

/-- TW64_LO is read: TW64 [63:32] is latched (R320). -/
def Mach.latchTime (m : Mach) : Mach := { m with ep.tw64Hi := m.now.toNat / 2 ^ 32 }

/-- TW64_LO (R320): a read answers TW64 [31:0] and latches the upper half. -/
def execTw64Lo (s : State) : Host.Outcome State Fault Refusal :=
  s.onMach true fun m => m.barRead fun m => m.latchTime.emit (.readDone (leBytes 4 m.now.toNat))

/-- Lines written since the ring was allocated; 0 for a stream with no ring (R325). -/
def Mach.headCount (m : Mach) (s : Nat) : Nat := if (m.strm s).ringSize = 0 then 0 else (m.strm s).ringCount (m.strm s).head

/-- HEAD_LO is read: HEAD [63:32] is latched (R325). -/
def Mach.latchHead (m : Mach) (k : Nat) : Mach := { m with ep.headHi := SMap.set 0 m.ep.headHi k (m.headCount k / 2 ^ 32) }

/-- HEAD_LO (R325). -/
def execHeadLo (k : Nat) (s : State) : Host.Outcome State Fault Refusal :=
  s.onMach (k < 256) fun m => m.barRead fun m => (m.latchHead k).emit (.readDone (leBytes 4 (m.headCount k)))

/-- APERTURE_HI (R324): the write installs the base. -/
def execApertureHi (v : Nat) (s : State) : Host.Outcome State Fault Refusal :=
  s.onMach true fun m =>
    m.barWrite fun m => { m with ep.apHi := v % 32, ep.apBase := v % 32 * 2 ^ 32 + m.ep.apLo }

/-- The bytes that a BAR2 read answers (R324). Below STANDBY's states the HBM is off and holds nothing (R466, R470). -/
def State.lookBack (s : State) (a n : Nat) : Bytes :=
  if s.m.rd E.MODULE_STATE ≤ 3 then zeros n
  else (List.range n).map fun i => s.hbm.read ((s.m.ep.apBase + a + i) % 2 ^ 37)

/-- The bytes of a completed read from offset `a`, in completions of at most `mps` bytes, split at 64-byte boundaries (R324). -/
def completions (mps : Nat) : Nat → Nat → Bytes → List Bytes
  | 0, _, _ => []
  | fuel + 1, a, b =>
    if b.isEmpty then []
    else
      let n := (a + mps) / 64 * 64 - a
      b.take n :: completions mps fuel (a + n) (b.drop n)

/-- APERTURE_READ (R324). -/
def execApertureRead (a n : Nat) (s : State) : Host.Outcome State Fault Refusal :=
  s.onMach true fun m =>
    m.barRead fun m =>
      (completions (m.rd E.MPS_NOW) n a (s.lookBack a n)).foldl (fun (m : Mach) b => m.emit (.readDone b))
        { m with ep.apReads := (m.ep.apReads + 1) % 2 ^ 32 }

/-- A poisoned write has been received (R335): it sets INT_CAUSE [6]. -/
def Mach.poisoned (m : Mach) : Mach := (m.aer 3).cause 6

/-- APERTURE_WRITE (R324, R335): discarded and counted, poisoned or not. -/
def execApertureWrite (poisoned : Bool) (_a _n : Nat) (s : State) : Host.Outcome State Fault Refusal :=
  s.onMach true fun m =>
    m.barWrite fun m =>
      { (if poisoned then m.poisoned else m) with ep.apDrops := (m.ep.apDrops + 1) % 2 ^ 32 }.cause 7

/-- An access to BAR0 has a size and alignment that R319 allows. -/
def barAccessOk (offset length : Nat) : Bool := (length == 4 && offset % 4 == 0) || (length == 8 && offset % 8 == 0)

/-! ### Completions and tags (R330, R331) -/

/-- A completion whose tag matches no outstanding read is late (R330, R332). -/
def Mach.lateCompletion (m : Mach) (tag : Nat) : Mach :=
  let m := { m with ep.lateCompletions := (m.ep.lateCompletions + 1) % 2 ^ 32 }
  let m := (m.inc E.LATE_ALL 0).cause 1
  if m.ep.flrTags.contains tag then m else m.aer 2

/-- The outstanding read of a tag. -/
def Mach.readOf (m : Mach) (tag : Nat) : Option HostRead := m.ep.reads.find? fun r => r.tag == tag

/-- The read of a tag is no longer outstanding. -/
def Mach.endRead (m : Mach) (tag : Nat) : Mach := { m with ep.reads := m.ep.reads.filter fun r => r.tag != tag }

/-- The data of a wanted read (R342, R345, R348, R360). -/
def Mach.gotData (m : Mach) (r : HostRead) (data : Bytes) : Mach :=
  match r.what with
  | .desc a => m.gotDesc r.chan a data
  | .tail a => m.gotTail r.chan a data
  | .entries i n => m.gotEntries r.chan i n data
  | .probe => m.probeEnd 0

/-- A wanted read fails: a bus error, or the end of a probe with its code (R359, R360). -/
def Mach.readFailed (m : Mach) (r : HostRead) (code : Nat) : Mach :=
  match r.what with
  | .probe => m.probeEnd code
  | _ => m.busError

/-- COMPLETION (R330): status 0 success, 1 UR, otherwise CA. -/
def execCompletion (tag status : Nat) (data : Bytes) (s : State) : Host.Outcome State Fault Refusal :=
  s.onMach true fun m =>
    m.when m.configured fun m =>
      match m.readOf tag with
      | none => m.lateCompletion tag
      | some r =>
        let m := m.endRead tag
        let m := if r.wanted = false then m
          else if status = 0 then m.gotData r (data.take r.len ++ zeros (r.len - data.length))
          else m.readFailed r (if status = 1 then 1 else 2)
        Mach.issueReads (m.ep.waiting.length + 1) m

/-- COMPLETION_TIMEOUT (R330): a probe's timeout is PROBE_TIMEOUT's. -/
def execCompletionTimeout (tag : Nat) (s : State) : Host.Outcome State Fault Refusal :=
  s.onMach true fun m =>
    match m.readOf tag with
    | none => m
    | some r =>
      let m := { m.endRead tag with ep.complTimeouts := (m.ep.complTimeouts + 1) % 2 ^ 32, ep.quarantine := m.ep.quarantine ++ [tag] }
      let m := ((m.inc E.TIMEOUTS_ALL 0).cause 0).aer 1
      if r.wanted then m.readFailed r 3 else m

/-- TAG_QUARANTINE_END (R330, R331). -/
def execTagQuarantineEnd (tag : Nat) (s : State) : Host.Outcome State Fault Refusal :=
  s.onMach true fun m =>
    m.when (m.ep.quarantine.contains tag) fun m =>
      let m := { m with ep.quarantine := m.ep.quarantine.erase tag, ep.flrTags := m.ep.flrTags.erase tag }
      Mach.issueReads (m.ep.waiting.length + 1) m

end Sys2Proof.Machine
end

