-- ==== Sys2Proof/Machine/Gauge.lean ====
section
/-! DEFINITION. The Marking Gauge: fires and their outputs (R257, R262), position and time compares (R255, R256), the
policy for targets behind (R258, R259), and the arms MG_CMD_ARM, MG_CMD_DISARM, MG_TIME_TARGET, MG_PULSE_END,
MG_TARGET_WRITE and MG_COUNT_WRITE. -/

namespace Sys2Proof.Machine

/-- Sequencer MGk. -/
def Mach.mg (m : Mach) (k : Nat) : Sequencer := m.mgs.get {} k
/-- Replace sequencer MGk. -/
def Mach.setMg (m : Mach) (k : Nat) (x : Sequencer) : Mach := { m with mgs := SMap.set ({} : Sequencer) m.mgs k x }

/-- The state of a sequencer: IDLE 0, ARMED 1, RUNNING 2, DONE 3 (R254). -/
def Mach.mgState (m : Mach) (k : Nat) : Nat := m.rd E.MG_STATE k % 4
/-- Put the state, keeping bit [7]. -/
def Mach.setMgState (m : Mach) (k st : Nat) : Mach := m.wr E.MG_STATE k (m.rd E.MG_STATE k / 4 * 4 + st)

/-- The sequencer's targets are positions. -/
def Mach.mgPos (m : Mach) (k : Nat) : Bool := m.rd E.MG_MODE k == 1 || m.rd E.MG_MODE k == 2
/-- The sequencer's targets are times. -/
def Mach.mgTime (m : Mach) (k : Nat) : Bool := decide (3 ≤ m.rd E.MG_MODE k)
/-- The triggers are enabled and timed. -/
def Mach.mgTimed (m : Mach) (k : Nat) : Bool := bitOf (m.rd E.MG_ACTIONS k) 0 && m.rd E.MG_TRIG_KIND k == 1

/-! ### Outputs (R257, R262) -/

/-- The ports of MG_PORTS that are linked camera ports with a camera that has been heard. -/
def Mach.mgPortList (m : Mach) (k : Nat) : List Nat :=
  let b := leNat (m.rdB E.MG_PORTS k)
  (List.range 96).filter fun p => bitOf b p && m.cameraPort p && m.linked p && (m.port p).heard

/-- Word 0 of the sequencer's trigger without its TID (R89). -/
def Mach.mgWord (m : Mach) (k : Nat) (timed train stop : Bool) : Nat :=
  bn timed * 2 ^ 16 + bn train * 2 ^ 17 + bn stop * 2 ^ 18 + m.rd E.MG_TRIG_ACTION k * 2 ^ 24

/-- Send a trigger to every port of the sequencer; without authority a timed one is held (R262). -/
def Mach.mgSend (m : Mach) (k w0 : Nat) (rest : Bytes) (held : Option TW64) : Mach :=
  if m.auth then m.each (m.mgPortList k) fun p m => m.trigger p k w0 rest (held == none)
  else match held with
    | none => m
    | some f => { m with held := m.held ++ (m.mgPortList k).map fun p => { mg := k, port := p, w0 := w0, rest := rest, fire := f } }

/-- An immediate trigger. -/
def Mach.mgImmediate (m : Mach) (k : Nat) : Mach := m.mgSend k (m.mgWord k false false false) (zeros 16) none

/-- A timed trigger with its FIRE. -/
def Mach.mgTimedTrig (m : Mach) (k : Nat) (fire : TW64) : Mach :=
  m.mgSend k (m.mgWord k true false false) (leBytes 8 fire.toNat ++ zeros 8) (some fire)

/-- The train packet of mode 5 (R254, R257). -/
def Mach.mgTrain (m : Mach) (k : Nat) (fire : TW64) : Mach :=
  let n := m.rd E.MG_COUNT k
  let rest := leBytes 4 (m.rd E.MG_PERIOD k) ++ leBytes 4 (n - (m.mg k).passed)
  if m.rd E.MG_TRIG_KIND k = 1 then
    m.mgSend k (m.mgWord k true true false) (leBytes 8 fire.toNat ++ rest) (some fire)
  else m.mgSend k (m.mgWord k false true false) (zeros 8 ++ rest) none

/-- Pulse and event of a fire (R257): the pulse starts at `t0`, the event is stamped `t` with the fire's number. -/
def Mach.mgLocal (m : Mach) (k : Nat) (t0 t : TW64) (num : Nat) : Mach :=
  let a := m.rd E.MG_ACTIONS k
  let i := m.rd E.MG_PIN k
  let m := if bitOf a 1 ∧ i < 32 then m.pulse i k t0 (t0 + BitVec.ofNat 64 (m.rd E.MG_PULSE k * 256)) else m
  if bitOf a 2 then m.produce 1 k (m.rd E.MG_EVENT k) num t else m

/-- A target is fired at `tf`. -/
def Mach.mgCount (m : Mach) (k : Nat) (tf : TW64) : Mach := (m.inc E.MG_FIRES k).wr E.MG_LAST_FIRE k tf.toNat

/-- The later of two instants. -/
def later (a b : TW64) : TW64 := if 0 ≤ twDiff a b then a else b

/-- Where the pulse of a position fire at `tf` starts (R257): 200 ns after `tf` for a sin/cos source, whose evaluation ends within
150 ns; else at the first I/O cycle at or after the later of that and the evaluation, which is now. -/
def Mach.pulseStart (m : Mach) (k : Nat) (tf : TW64) : TW64 :=
  if m.rd E.POS_MODE (m.rd E.MG_SOURCE k) = 2 then m.ioCycle (later (tf + 51200) m.now) else tf + 51200

/-- A position target is reached at the sample instant `tf` (R257). Without authority its timed trigger is not held: position fires of the gap are not
repeated (R262). -/
def Mach.firePos (m : Mach) (k : Nat) (tf : TW64) : Mach :=
  let m := m.mgCount k tf
  let m := if bitOf (m.rd E.MG_ACTIONS k) 0 then
      (if m.rd E.MG_TRIG_KIND k = 0 then m.mgImmediate k
       else m.when m.auth fun m => m.mgTimedTrig k (tf + BitVec.ofNat 64 (m.rd E.MG_TRIG_DELAY k * 256)))
    else m
  m.mgLocal k (m.pulseStart k tf) tf (m.rd E.MG_FIRES k)

/-! ### Targets -/

/-- The end of a train after `passed` targets (R254). -/
def Mach.mgOver (m : Mach) (k passed : Nat) : Bool := m.rd E.MG_MODE k == 1 || m.rd E.MG_MODE k == 3 ||
  (m.rd E.MG_COUNT k != 0 && decide (m.rd E.MG_COUNT k ≤ passed))

/-- The distance d of R255. -/
def posDist (count target : Nat) : Int := (BitVec.ofNat 32 count - BitVec.ofNat 32 target).toInt

/-- MG_DIR as the mode uses it (R255). -/
def Mach.mgDir (m : Mach) (k : Nat) : Nat := if m.rd E.MG_MODE k = 2 ∧ m.rd E.MG_DIR k = 2 then 0 else m.rd E.MG_DIR k

/-- A position target is reached (R255). `prev` is the COUNT of the evaluation before. -/
def posReached (dir count : Nat) (prev : Option Nat) (target : Nat) : Bool :=
  let d := posDist count target
  match dir with
  | 0 => decide (0 ≤ d)
  | 1 => decide (d ≤ 0)
  | _ => d == 0 || (match prev with
    | some q => let e := posDist q target; decide ((0 < d ∧ e < 0) ∨ (d < 0 ∧ 0 < e)) && decide ((d - e).natAbs < 2 ^ 31)
    | none => false)

/-- The position `n` targets on. -/
def Mach.posAhead (m : Mach) (k target n : Nat) : Nat :=
  let step := n * m.rd E.MG_PITCH k
  if m.mgDir k = 1 then (BitVec.ofNat 32 target - BitVec.ofNat 32 step).toNat else (target + step) % 2 ^ 32

/-- T of a time target (R256): its send instant when the trigger is timed. In mode 5 the packet is sent once, and the
targets behind it are reached at TARGET. -/
def Mach.mgInstant (m : Mach) (k : Nat) (target : TW64) : TW64 :=
  if m.mgTimed k ∧ (m.mg k).sent = false then target - BitVec.ofNat 64 (m.rd E.MG_LEAD k * 256) else target

/-- Pass `n` targets: the next is `next`; the train ends when none is left. -/
def Mach.mgPass (m : Mach) (k n next : Nat) : Mach :=
  let x := m.mg k
  let m := m.setMg k { x with passed := x.passed + n }
  if m.mgOver k (x.passed + n) then m.setMgState k 3 else (m.wr E.MG_NEXT k next).setMgState k 2

/-- How many of `n` targets are left to pass. -/
def Mach.mgLeft (m : Mach) (k n : Nat) : Nat :=
  if m.rd E.MG_COUNT k = 0 then n else Nat.min n (m.rd E.MG_COUNT k - (m.mg k).passed)

/-- Skip position targets until one is ahead (R258): every target reached at `count`. -/
def Mach.skipPos (m : Mach) (k count : Nat) : Mach :=
  let t := m.rd E.MG_NEXT k
  if m.mgActive k ∧ m.rd E.MG_MODE k = 2 ∧ posReached (m.mgDir k) count none t = true then
    let n := m.mgLeft k ((posDist count t).natAbs / m.rd E.MG_PITCH k + 1)
    (m.inc E.SKIPPED k n).mgPass k n (m.posAhead k t n)
  else m

/-- Skip time targets until one is ahead at `t` (R258). -/
def Mach.skipTime (m : Mach) (k : Nat) (t : TW64) : Mach :=
  let next : TW64 := BitVec.ofNat 64 (m.rd E.MG_NEXT k)
  let d := twDiff t (m.mgInstant k next)
  if m.mgActive k ∧ m.rd E.MG_MODE k ≠ 3 ∧ 0 ≤ d then
    let n := m.mgLeft k (d.natAbs / m.rd E.MG_PERIOD k + 1)
    (m.inc E.SKIPPED k n).mgPass k n (next + BitVec.ofNat 64 (n * m.rd E.MG_PERIOD k)).toNat
  else m

/-- A position channel is evaluated: it is on, its counter runs, and it is not LOST (R255). -/
def Mach.posLive (m : Mach) (n : Nat) : Bool :=
  m.rd E.POS_MODE n != 0 && bitOf (m.rd E.POS_STATUS n) 9 && !bitOf (m.rd E.POS_STATUS n) 5

/-- The position target of the sequencer is judged against `count` (R258). -/
def Mach.judgePos (m : Mach) (k target count : Nat) : Mach :=
  let x := { m.mg k with cross := false, fireNow := false, judge := false }
  let m := m.setMg k x
  let behind := posReached (m.mgDir k) count none target
  if behind = false then m
  else
    let m := m.inc E.BEHIND_COUNT k
    match m.rd E.MG_BEHIND k with
    | 0 => m.setMg k { x with fireNow := true }
    | 1 => if m.rd E.MG_MODE k = 1 then (m.inc E.SKIPPED k).mgPass k 1 target else m.skipPos k count
    | _ => m.setMg k { x with cross := true }

/-- A target becomes the sequencer's position target (R258, R259). While the source is LOST or off no compare is evaluated (R255): the
target is judged at the first evaluation after that (notes/assumptions/53.md). -/
def Mach.newPos (m : Mach) (k target : Nat) : Mach :=
  let src := m.rd E.MG_SOURCE k
  let m := m.wr E.MG_NEXT k target
  if m.posLive src then m.judgePos k target (m.rd E.COUNT src)
  else m.setMg k { m.mg k with cross := false, fireNow := false, judge := true }

/-- A target becomes the sequencer's time target at instant `now` (R258, R259). -/
def Mach.newTime (m : Mach) (k target : Nat) (now : TW64) : Mach :=
  let m := m.wr E.MG_NEXT k target
  let x := { m.mg k with cross := false, fireNow := false, sent := false }
  let m := m.setMg k x
  if twDiff now (m.mgInstant k (BitVec.ofNat 64 target)) < 0 then m
  else
    let m := m.inc E.BEHIND_COUNT k
    if m.rd E.MG_BEHIND k = 0 then m.setMg k { x with fireNow := true }
    else if m.rd E.MG_MODE k = 3 then (m.inc E.SKIPPED k).mgPass k 1 target
    else m.skipTime k now

/-! ### Position compares -/

/-- One evaluation of an active sequencer `k` against its target (R255, R258, R259). -/
def Mach.evalTarget (m : Mach) (k count : Nat) (t : TW64) : Mach :=
  let x := m.mg k
  let target := m.rd E.MG_NEXT k
  let hit := posReached (m.mgDir k) count x.prev target
  let fires := x.fireNow || (hit && !x.cross)
  let m := m.setMg k { x with prev := some count, fireNow := false, cross := x.cross && hit, write := none }
  let m := if fires then ((m.firePos k t).mgPass k 1 (m.posAhead k target 1)).skipPos k count else m
  match x.write with
  | some w => if m.mgActive k then m.newPos k w else m
  | none => m

/-- One evaluation of sequencer `k` at a sample of its source; a target that waits for it is judged first (R255). -/
def Mach.evalPos (m : Mach) (k count : Nat) (t : TW64) : Mach :=
  let m := m.when (m.mg k).judge fun m => m.judgePos k (m.rd E.MG_NEXT k) count
  m.when (m.mgActive k) fun m => m.evalTarget k count t

/-- Every sequencer that compares with position channel `n` evaluates a sample, unless the channel is LOST (R255). -/
def Mach.evalSource (m : Mach) (n : Nat) (t : TW64) : Mach :=
  m.each (List.range 32) fun k m =>
    if m.posLive n ∧ m.mgPos k ∧ m.rd E.MG_SOURCE k = n ∧ m.mgActive k then m.evalPos k (m.rd E.COUNT n) t else m

/-! ### Commands -/

/-- MG_CMD 1 (R254). -/
def Mach.arm (m : Mach) (k : Nat) : Mach :=
  if m.rd E.MG_MODE k = 0 then m
  else
    let src := m.rd E.MG_SOURCE k
    let prev := if m.mgPos k ∧ bitOf (m.rd E.POS_STATUS src) 9 then some (m.rd E.COUNT src) else none
    let m := (m.setMg k { outs := (m.mg k).outs, prev := prev }).wr E.MG_STATE k 1
    let m := if m.mgPos k then m.newPos k (m.rd E.MG_TARGET_POS k) else m.newTime k (m.rd E.MG_TARGET_TIME k) m.now
    if m.mgState k = 2 ∧ (m.mg k).passed = 0 then m.setMgState k 1 else m

/-- MG_CMD_ARM (R254): from IDLE or DONE; a drain toward DORMANT holds every sequencer IDLE (R469). -/
def execMgCmdArm (path k : Nat) (s : State) : Host.Outcome State Fault Refusal :=
  s.onMach (path < 5 ∧ k < 32) fun m =>
    m.command path (0x4800 + k) 0x14 [1] (!m.mgActive k) fun m => m.when (m.ioOn && !m.draining) fun m => m.arm k

/-- MG_CMD_DISARM (R254): in mode 5 an immediate TRIGGER with STOP leaves. -/
def execMgCmdDisarm (path k : Nat) (s : State) : Host.Outcome State Fault Refusal :=
  s.onMach (path < 5 ∧ k < 32) fun m =>
    m.command path (0x4800 + k) 0x14 [2] true fun m =>
      let stop := m.rd E.MG_MODE k == 5 && m.mgActive k
      let m := (m.setMg k { m.mg k with cross := false, fireNow := false, write := none, outs := [] }).wr E.MG_STATE k 0
      let m := { m with held := m.held.filter fun h => h.mg != k }
      if stop then m.mgSend k (m.mgWord k false false true) (zeros 16) none else m

/-- The next time target's own instant is reached (R256, R257): its packet leaves, and its local outputs come now or
at TARGET. -/
def Mach.fireTime (m : Mach) (k : Nat) (target : TW64) : Mach :=
  let x := m.mg k
  let timed := m.mgTimed k
  if m.rd E.MG_MODE k = 5 then
    if x.sent = false ∧ bitOf (m.rd E.MG_ACTIONS k) 0 then
      let m := (m.mgTrain k target).setMg k { x with sent := true }
      if timed then m else (m.mgCount k target).mgLocal k (m.ioCycle target) target (m.rd E.MG_FIRES k + 1)
    else (m.mgCount k target).mgLocal k (m.ioCycle target) target (m.rd E.MG_FIRES k + 1)
  else
    let m := m.mgCount k target
    let n := m.rd E.MG_FIRES k
    if timed then
      let m := m.mgTimedTrig k target
      m.setMg k { m.mg k with outs := (m.mg k).outs ++ [(target, n)] }
    else
      let m := if bitOf (m.rd E.MG_ACTIONS k) 0 then m.mgImmediate k else m
      m.mgLocal k (m.ioCycle target) target n

/-- A time target whose policy is FIRE_NOW (R258): pulse and event at the next cycle, a timed packet at once with
FIRE = TARGET. -/
def Mach.fireBehind (m : Mach) (k : Nat) (target now : TW64) : Mach :=
  if m.rd E.MG_MODE k = 5 then
    let m := m.when (bitOf (m.rd E.MG_ACTIONS k) 0) fun m => m.mgTrain k target
    m.setMg k { m.mg k with sent := true, fireNow := false }
  else
    let m := (m.setMg k { m.mg k with fireNow := false }).mgCount k target
    let m := if m.mgTimed k then m.mgTimedTrig k target
      else if bitOf (m.rd E.MG_ACTIONS k) 0 then m.mgImmediate k else m
    let m := m.mgLocal k (m.ioCycle now) target (m.rd E.MG_FIRES k)
    ((m.mgPass k 1 (target + BitVec.ofNat 64 (m.rd E.MG_PERIOD k)).toNat).skipTime k now)

/-- What an active sequencer does when TW64 reaches the instant of its next target: the target is passed, unless only
the train packet of mode 5 left ahead of it. Targets reached at once beside it are skipped (R258). -/
def Mach.reachTime (m : Mach) (k : Nat) (target : TW64) : Mach :=
  let at_ := later m.now (m.mgInstant k target)
  let only := m.rd E.MG_MODE k == 5 && m.mgTimed k && !(m.mg k).sent
  let m := m.fireTime k target
  if only then m
  else (m.mgPass k 1 (target + BitVec.ofNat 64 (m.rd E.MG_PERIOD k)).toNat).skipTime k at_

/-- A time compare (R256): TW64 has reached `t`. -/
def Mach.reachedTime (m : Mach) (t : TW64) : Bool := decide (0 ≤ twDiff m.now t)

/-- The next time target of an active sequencer is compared: FIRE_NOW acts, or its instant is reached (R256, R258). -/
def Mach.compareTime (m : Mach) (k : Nat) : Mach :=
  let target : TW64 := BitVec.ofNat 64 (m.rd E.MG_NEXT k)
  if m.mgActive k = false then m
  else if (m.mg k).fireNow then m.fireBehind k target m.now
  else m.when (m.reachedTime (m.mgInstant k target)) fun m => m.reachTime k target

/-- MG_TIME_TARGET (R256, R257): TW64 reaches the earliest instant of the sequencer, the next target's or that of the
local outputs of one whose packet has left. Before that instant nothing is reached. -/
def execMgTimeTarget (k : Nat) (s : State) : Host.Outcome State Fault Refusal :=
  s.onMach (k < 32) fun m =>
    m.when (m.ioOn && m.mgTime k) fun m =>
      let x := m.mg k
      match x.outs with
        | (t, n) :: rest =>
          let first := x.fireNow || decide (twDiff (m.mgInstant k (BitVec.ofNat 64 (m.rd E.MG_NEXT k))) t < 0)
          if m.mgActive k ∧ first = true then m.compareTime k
          else m.when (m.reachedTime t) fun m => (m.setMg k { x with outs := rest }).mgLocal k (m.ioCycle t) t n
        | [] => m.compareTime k

/-- MG_PULSE_END (R257): the sequencer's pulse ends at its time. -/
def execMgPulseEnd (k : Nat) (s : State) : Host.Outcome State Fault Refusal :=
  s.onMach (k < 32) fun m =>
    m.each (List.range 32) fun i m =>
      match m.pulseOver i k with
      | some q => m.endPulse i q
      | none => m

/-- MG_TARGET_TIME has been written (R259): a target reached in that evaluation is the old one, and the new value replaces the one that
would have come next. -/
def Mach.replaceTime (m : Mach) (k target : Nat) : Mach :=
  (m.compareTime k).when ((m.compareTime k).mgActive k) fun m => m.newTime k target m.now

/-- MG_TARGET_WRITE (R259): MG_TARGET_POS at subindex 0x04 or MG_TARGET_TIME at 0x06. -/
def execMgTargetWrite (path k sub : Nat) (data : Bytes) (s : State) : Host.Outcome State Fault Refusal :=
  s.onMach (path < 5 ∧ k < 32 ∧ (sub = 4 ∨ sub = 6)) fun m =>
    let e := if sub = 4 then E.MG_TARGET_POS else E.MG_TARGET_TIME
    m.writeEntry path e k data fun _ m =>
      if m.mgActive k then
        if sub = 4 ∧ m.mgPos k then m.setMg k { m.mg k with write := some (m.rd e k) }
        else if sub = 6 ∧ m.mgTime k then m.replaceTime k (m.rd e k)
        else m
      else m

/-- MG_COUNT_WRITE (R259). -/
def execMgCountWrite (path k : Nat) (data : Bytes) (s : State) : Host.Outcome State Fault Refusal :=
  s.onMach (path < 5 ∧ k < 32) fun m =>
    m.writeEntry path E.MG_COUNT k data fun _ m =>
      let n := m.rd E.MG_COUNT k
      if m.mgActive k ∧ n ≠ 0 ∧ n ≤ (m.mg k).passed then m.setMgState k 3 else m

/-- Authority is gained (R262): every timed trigger and train packet whose FIRE lies in the future is sent at once. -/
def Mach.sendHeld (m : Mach) : Mach :=
  let l := m.held.filter fun h => 0 < twDiff h.fire m.now
  l.foldl (fun (m : Mach) h => m.trigger h.port h.mg h.w0 h.rest false) { m with held := [] }

end Sys2Proof.Machine
end

