-- ==== Sys2Proof/Machine/Mallet.lean ====
section
/-! DEFINITION. The Mallet: decisions (R265 to R272), the valve image under the on-time guard (R272 to R274), valve-port
frames (R275 to R277), the grid (R270, R280) and VP_ENABLE (R281). -/

namespace Sys2Proof.Machine

/-- Valve port VPv. -/
def Mach.vport (m : Mach) (v : Nat) : ValvePort := m.vports.get {} v
/-- Replace valve port VPv. -/
def Mach.setVport (m : Mach) (v : Nat) (x : ValvePort) : Mach := { m with vports := SMap.set ({} : ValvePort) m.vports v x }

/-- P, a port's period in TW64 units (R270). -/
def Mach.vpPeriod (m : Mach) (v : Nat) : Nat := m.rd E.UPDATE_PERIOD v * 256000

/-! ### Decisions -/

/-- Fields of a decision record (R266), reserved bits ignored. -/
structure Decision where
  id : Nat
  first : Nat
  last : Nat
  port : Nat
  kind : Nat
  pulse : Nat
  offset : Int
  fire : TW64
  tag : Nat
  deriving DecidableEq, Repr

/-- A decision from its 32 bytes (R266). -/
def readDecision (b : Bytes) : Decision :=
  let w2 := leAt b 8 4
  { id := leAt b 0 8, first := bitsOf w2 7 0, last := bitsOf w2 15 8, port := bitsOf w2 18 16, kind := bitsOf w2 21 20,
    pulse := leAt b 12 4, offset := signedOf 32 (leAt b 16 4), fire := BitVec.ofNat 64 (leAt b 20 8), tag := leAt b 28 4 }

/-- The decision after the clamps of R267, and whether a field changed. -/
def Mach.clampDecision (m : Mach) (d : Decision) : Decision × Bool :=
  let last := Nat.min d.last (m.rd E.VP_LENGTH d.port - 1)
  let pulse := Nat.min d.pulse (m.rd E.MAX_ON d.port * 1000)
  ({ d with last := last, pulse := pulse }, decide (last ≠ d.last ∨ pulse ≠ d.pulse))

/-- CENTROID_TIME of an object that the object memory holds (R268). -/
def Mach.findObject (m : Mach) (id : Nat) : Option TW64 :=
  match m.mallet.objs.find? fun x => x.1 == id / 2 ^ 56 * 65536 + id % 65536 with
  | some (_, i, t) => if i = id then some (BitVec.ofNat 64 t) else none
  | none => none

/-- FLIGHT_ROW of a stream and valve row (R269). -/
def Mach.flight (m : Mach) (s row : Nat) : Nat :=
  m.rd ([E.FLIGHT_ROW0, E.FLIGHT_ROW1, E.FLIGHT_ROW2, E.FLIGHT_ROW3].getD row E.FLIGHT_ROW0) s

/-- TF of a decision (R269); none for an object that is not found. -/
def Mach.fireTimeOf (m : Mach) (d : Decision) : Option TW64 :=
  let off : TW64 := BitVec.ofInt 64 (d.offset * 256)
  if d.kind = 0 then
    (m.findObject d.id).map fun c => c + BitVec.ofNat 64 (m.flight (d.id / 2 ^ 56) (m.rd E.VP_ROW d.port) * 256) + off
  else some (d.fire + off)

/-- near(T) of R270: the nearest grid instant, ties later. -/
def Mach.near (m : Mach) (v : Nat) (t : TW64) : TW64 :=
  let p := m.vpPeriod v
  let un := (m.vport v).un
  un + BitVec.ofInt 64 (Int.fdiv (2 * twDiff t un + (p : Nat)) (2 * (p : Nat)) * (p : Nat))

/-- The pulse of an accepted decision (R270). -/
def Mach.pulseOf (m : Mach) (d : Decision) (tf : TW64) : Pulse :=
  let p := m.vpPeriod d.port
  let us := m.near d.port tf
  let ue := m.near d.port (tf + BitVec.ofNat 64 (d.pulse * 256))
  { port := d.port, first := d.first, last := d.last, us := us,
    ue := if twDiff ue us < (p : Nat) then us + BitVec.ofNat 64 p else ue }

/-- The row of R267's table that decides a decision that arrived at `ta`. -/
def Mach.verdictOf (m : Mach) (d : Decision) (tf : Option TW64) (ta : TW64) : Nat :=
  if 2 ≤ d.kind ∨ m.rd E.VP_ENABLE d.port = 0 ∨ d.last < d.first then 1
  else match tf with
    | none => 2
    | some t =>
      if (m.rd E.MAX_AHEAD * 256000000 : Nat) < twDiff t ta then 3
      else if twDiff (t - BitVec.ofNat 64 (2 * m.vpPeriod d.port)) ta < 0 then 4
      else if 16384 ≤ m.mallet.pulses.length then 5 else 6

/-- The counter of a rejecting row (R267). -/
def rejectEntry (row : Nat) : Entry :=
  match row with
  | 1 => E.DEC_BAD | 2 => E.UNKNOWN_OBJECT | 3 => E.TOO_FAR | 4 => E.LATE_DECISIONS | _ => E.SCHEDULE_FULL

/-- Put a pulse in the schedule (R272). -/
def Mach.schedule (m : Mach) (p : Pulse) : Mach :=
  let l := m.mallet.pulses ++ [p]
  (({ m with mallet.pulses := l }).wr E.SCHEDULE_USED 0 l.length).inc E.PULSES p.port

/-- A decision is accepted or rejected under a row (R267). -/
def Mach.applyDecision (m : Mach) (d : Decision) (tf : Option TW64) (ta : TW64) (row : Nat) : Mach :=
  match row, tf with
  | 6, some t =>
    let p := m.pulseOf d t
    let margin := Int.fdiv (twDiff p.us ta) 256
    let m := (m.schedule p).inc E.ACCEPTED 0
    if margin < m.rdI E.MARGIN_MIN then m.wrI E.MARGIN_MIN 0 margin else m
  | _, _ =>
    let e := rejectEntry row
    (m.inc e 0).wr E.LAST_REJECT 0 (e.sub * 2 ^ 32 + d.tag)

/-- A decision of 32 bytes that arrived at `ta` is counted, clamped, tested and scheduled or discarded (R267).
Answers the row that decided. -/
def Mach.takeDecision (m : Mach) (b : Bytes) (ta : TW64) : Nat × Mach :=
  let m := m.inc E.DECISIONS 0
  let c := m.clampDecision (readDecision b)
  let m := if c.2 then m.inc E.DEC_CLAMPED 0 else m
  let tf := m.fireTimeOf c.1
  let row := m.verdictOf c.1 tf ta
  (row, m.applyDecision c.1 tf ta row)

/-- DECISION (R265, R267, R279): the next record of a decision ring, in ring order, reaches the Mallet at `ta`. Only the active module
of a pair reads the rings, and it passes each decision on. -/
def execDecision (r : Nat) (b : Bytes) (ta : TW64) (s : State) : Host.Outcome State Fault Refusal :=
  s.onMach (r < 8) fun m =>
    let c := m.rd E.DEC_CHANNEL r
    m.when (m.ioOn && m.rd E.MALLET_ENABLE == 1 && decide (c < 128) && m.chClass c == 2 && m.rd E.RING_DIR c == 1 && !m.follows)
      fun m =>
        match (m.chan c).entries with
        | [] => m
        | (idx, e) :: rest =>
          m.when (e == b) fun m =>
            let b := (b ++ zeros 32).take 32
            let m := m.setChan c { m.chan c with entries := rest }
            let x := (m.inc E.DEC_READ r).takeDecision b ta
            if x.2.leads then x.2.pairSend 0x64 2 c idx (b ++ leBytes 8 ta.toNat ++ leBytes 4 x.1) else x.2

/-! ### The valve image -/

/-- A pulse covers a valve at update instant `u` (R270). -/
def Pulse.covers (p : Pulse) (v valve : Nat) (u : TW64) : Bool :=
  p.port == v && decide (p.first ≤ valve ∧ valve ≤ p.last) && decide (0 ≤ twDiff u p.us) && decide (twDiff u p.ue < 0)

/-- One valve under the guard (R273): wanted, run and rest to (out, cut, run, rest). -/
def guardValve (nOn nOff : Nat) (wanted : Bool) (run rest : Nat) : Bool × Bool × Nat × Nat :=
  let out := wanted && rest == 0 && decide (run < nOn)
  let cut := wanted && rest == 0 && run == nOn
  (out, cut, if out then run + 1 else 0, if cut then nOff else rest - 1)

/-- The image of a port at `u` under the guard: per valve (out, cut, run, rest). -/
def Mach.image (m : Mach) (v : Nat) (u : TW64) : List (Bool × Bool × Nat × Nat) :=
  let x := m.vport v
  let p := m.rd E.UPDATE_PERIOD v
  let nOn := m.rd E.MAX_ON v / p + 1
  let nOff := cdiv (m.rd E.MIN_OFF v) p
  let mine := m.mallet.pulses.filter fun q => q.port == v
  (List.range (m.rd E.VP_LENGTH v)).map fun k =>
    guardValve nOn nOff (!x.closing && mine.any fun q => q.covers v k u) (x.run.getD k 0) (x.rest.getD k 0)

/-- Bits to a 32-byte image: valve v at byte v / 8, bit v mod 8 (R274). -/
def imageBytes (l : List Bool) : Bytes := bytesOfBits 32 (l ++ List.replicate (256 - l.length) false)

/-- The bits of a frame with frame number `n` (R275). -/
def frameBits (n : Nat) (l : List Bool) : List Bool :=
  let mark := 0xA500 + n % 256
  (List.range 16).map (fun i => bitOf mark (15 - i)) ++ l.reverse

/-- An event of a valve port (R302): code and valve. -/
def Mach.vpEvent (m : Mach) (v code valve : Nat) (u : TW64) : Mach := m.produce 4 v (m.rd E.VP_EC v) (code + 256 * valve) u

/-- A port's state: 0 off, 3 no authority, 2 chain fault, 1 running (R283). -/
def Mach.showVport (m : Mach) (v : Nat) : Mach :=
  let x := m.vport v
  m.wr E.VP_STATE v (if x.grid = false then 0 else if m.auth = false then 3 else if x.fault then 2 else 1)

/-! ### Return bits (R277) -/

/-- A fault bit of one valve in a good frame. -/
def Mach.valveReturn (v : Nat) (u : TW64) (m : Mach) (x : Nat × Bool) : Mach :=
  let vp := m.vport v
  let one := if x.2 then vp.ones.getD x.1 0 + 1 else 0
  let nought := if x.2 then 0 else vp.noughts.getD x.1 0 + 1
  let pad := fun (l : List Nat) => l ++ List.replicate (256 - l.length) 0
  let m := m.setVport v { vp with ones := (pad vp.ones).set x.1 (Nat.min one 255), noughts := (pad vp.noughts).set x.1 (Nat.min nought 255) }
  let n := m.rd E.FAULT_PERSIST v
  let bits := leNat (m.rdB E.VP_FAULTS v)
  if n ≤ one ∧ bitOf bits x.1 = false then
    ((m.wrB E.VP_FAULTS v (leBytes 32 (putBit bits x.1 true))).inc E.VALVE_FAULTS v).vpEvent v 3 x.1 u
  else if n ≤ nought ∧ bitOf bits x.1 then m.wrB E.VP_FAULTS v (leBytes 32 (putBit bits x.1 false))
  else m

/-- The marker that came back is right (R277): that of the frame sent, with number `n`; a module that drives no line does not hold the
number of the frame, and any number is right for it (R278, notes/assumptions/53.md). -/
def markRight (sent : Bool) (n : Nat) (back : List Bool) : Bool :=
  let mark := (List.range 16).map fun i => bitOf (0xA500 + n % 256) (15 - i)
  if sent then back == mark else back.length == 16 && back.take 8 == mark.take 8

/-- The return bits of a frame with MARK number `n` (R277), that of a frame of this module where it has `sent` one. -/
def Mach.returned (m : Mach) (v n : Nat) (sent : Bool) (bits : List Bool) (u : TW64) : Mach :=
  let len := m.rd E.VP_LENGTH v
  let x := m.vport v
  if markRight sent n ((bits.drop len).take 16) = false then
    let m := (m.setVport v { x with bad := Nat.min (x.bad + 1) 3, good := 0, fault := x.fault || decide (2 ≤ x.bad) }).inc E.CHAIN_ERRORS v
    if x.fault = false ∧ 2 ≤ x.bad then (m.vpEvent v 1 0 u).showVport v else m
  else
    let m := m.setVport v { x with bad := 0, good := Nat.min (x.good + 1) 3, fault := x.fault && decide (x.good < 2) }
    let m := if x.fault ∧ 2 ≤ x.good then (m.vpEvent v 2 0 u).showVport v else m
    let l := (List.range len).map fun i => (len - 1 - i, bits.getD i false)
    l.foldl (Mach.valveReturn v u) m

/-! ### Updates -/

/-- Pulses that have ended leave the schedule (R272). -/
def Mach.dropEnded (m : Mach) (v : Nat) (u : TW64) : Mach :=
  let l := m.mallet.pulses.filter fun p => p.port != v || decide (twDiff u p.ue < 0)
  ({ m with mallet.pulses := l }).wr E.SCHEDULE_USED 0 l.length

/-- Un after an update: one period on, or after a forward step of time the first grid instant ahead (R270, R280). -/
def Mach.advanceGrid (m : Mach) (v : Nat) : Mach :=
  let x := m.vport v
  let p := m.vpPeriod v
  let d := twDiff m.now x.un
  if d < (p : Nat) then m.setVport v { x with un := x.un + BitVec.ofNat 64 p }
  else (m.setVport v { x with un := x.un + BitVec.ofNat 64 ((d.toNat / p + 1) * p) }).inc E.GRID_SLIPS v

/-- From t0 of the frame that latches at `u` on, F + 1 clock periods before it (R275), the module has held authority: it sends the frame complete
(R278, R413). A clock period is 4 × VP_CLKDIV ticks. -/
def Mach.sendsFrame (m : Mach) (v : Nat) (u : TW64) : Bool :=
  m.auth && m.pair.authAt.all fun a =>
    let t0 := u - BitVec.ofNat 64 (cdiv ((m.rd E.VP_LENGTH v + 17) * m.rd E.VP_CLKDIV v * 4 * 1280) 7)
    decide (0 ≤ twDiff t0 (m.twOf a))

/-- An update of a port whose grid runs (R272 to R278, R280, R281): image, hash, frame where the module has had authority from its start, and what
the drivers returned, also to a module that sends none; no bits returned there mean no frame on the lines. -/
def Mach.valveUpdate (m : Mach) (v : Nat) (bits : List Bool) : Mach :=
  let x := m.vport v
  let u := x.un
  let g := m.image v u
  let on := g.map fun k => k.1
  let img := imageBytes on
  let hash := crc32c (leBytes 8 u.toNat ++ img)
  let m := m.setVport v { x with run := g.map fun k => k.2.2.1, rest := g.map fun k => k.2.2.2 }
  let m := g.zipIdx.foldl (fun (m : Mach) k => if k.1.2.1 then (m.inc E.ONTIME_CUTS v).vpEvent v 4 k.2 u else m) m
  let m := (m.wrB E.VP_IMAGE v img).wr E.IMAGE_HASH v hash
  let m := if m.leads ∨ m.follows then { m with pair.updates := m.pair.updates ++ [(v, u, hash)] } else m
  let n := m.rd E.FRAMES v
  let sent := m.sendsFrame v u
  let m := m.when sent fun m => (m.emit (.valve v (frameBits n on) u)).inc E.FRAMES v
  let m := m.when (sent || !bits.isEmpty) fun m => m.returned v n sent bits u
  let m := (m.dropEnded v u).advanceGrid v
  let y := m.vport v
  (if y.closing then m.setVport v { y with closing := false, grid := false } else m).showVport v

/-- A port's grid starts (R270): Un is the first instant of the grid at least 2P after now. -/
def Mach.startGrid (m : Mach) (v : Nat) : Mach :=
  let p := m.vpPeriod v
  let a : TW64 := BitVec.ofNat 64 (m.rd E.VP_ANCHOR v)
  let d := twDiff (m.now + BitVec.ofNat 64 (2 * p)) a
  let k := -(Int.fdiv (-d) (p : Nat))
  (m.setVport v { grid := true, un := a + BitVec.ofInt 64 (k * (p : Nat)) }).showVport v

/-- VP_ENABLE goes to 0 (R281): pending pulses are dropped and one all-off frame is due. -/
def Mach.stopGrid (m : Mach) (v : Nat) : Mach :=
  let l := m.mallet.pulses.filter fun p => p.port != v
  let m := ({ m with mallet.pulses := l }).wr E.SCHEDULE_USED 0 l.length
  m.setVport v { m.vport v with closing := true }

/-- A write of VP_ENABLE (R281). A drain toward DORMANT treats every port as not enabled (R469). -/
def Mach.writeVpEnable (m : Mach) (path v : Nat) (data : Bytes) : Mach :=
  m.writeEntry path E.VP_ENABLE v data fun old m =>
    if old.rd E.VP_ENABLE v = m.rd E.VP_ENABLE v ∨ m.ioOn = false ∨ m.draining then m
    else if m.rd E.VP_ENABLE v = 1 then m.startGrid v else m.stopGrid v

/-- VP_ENABLE (R281). -/
def execVpEnable (path v : Nat) (data : Bytes) (s : State) : Host.Outcome State Fault Refusal :=
  s.onMach (path < 5 ∧ v < 8) fun m => m.writeVpEnable path v data

end Sys2Proof.Machine
end

