-- ==== Sys2Proof/Machine/Position.lean ====
section
/-! DEFINITION. Position channels: sin/cos interpolation (R240 to R243), SSI capture (R244, R245, R501), the counter (R246),
speed and direction (R249 to R252) and the divided output (R253), with their arms. -/

namespace Sys2Proof.Machine

/-- Position channel POSn. -/
def Mach.posc (m : Mach) (n : Nat) : PosChan := m.pos.get {} n
/-- Replace position channel POSn. -/
def Mach.setPosc (m : Mach) (n : Nat) (x : PosChan) : Mach := { m with pos := SMap.set ({} : PosChan) m.pos n x }
/-- Bit `b` of POS_STATUS (R263). -/
def Mach.pst (m : Mach) (n b : Nat) : Bool := bitOf (m.rd E.POS_STATUS n) b
/-- Put bit `b` of POS_STATUS. -/
def Mach.setPst (m : Mach) (n b : Nat) (v : Bool) : Mach := m.wr E.POS_STATUS n (putBit (m.rd E.POS_STATUS n) b v)

/-! ### Phase -/

/-- Angles whose tangents are 2^-i, in 2^-40 turn. -/
def atanSteps : List Int :=
  [137438953472, 81134951838, 42869480287, 21761217566, 10922836750, 5466743129, 2734038620, 1367102738, 683561799,
   341782203, 170891265, 85445653, 42722829, 21361415] ++
  [10680707, 5340354, 2670177, 1335088, 667544, 333772, 166886, 83443, 41722, 20861, 10430, 5215, 2608, 1304]

/-- Rotate (x, y) with x not negative onto the x axis: the angle turned, in 2^-40 turn. -/
def rotate : List Int → Nat → Int → Int → Int → Int
  | [], _, _, _, a => a
  | s :: t, i, x, y, a =>
    if 0 ≤ y then rotate t (i + 1) (x + asr y i) (y - asr x i) (a + s)
    else rotate t (i + 1) (x - asr y i) (y + asr x i) (a - s)

/-- round(65,536 × atan2(s, c) / 2π) mod 65,536, for (s, c) not both 0 (R241). -/
def phaseOf (s c : Int) : Nat :=
  let a := if 0 ≤ c then rotate atanSteps 0 (c * 2 ^ 20) (s * 2 ^ 20) 0
    else 2 ^ 39 + rotate atanSteps 0 (-c * 2 ^ 20) (-s * 2 ^ 20) 0
  (asr (a + 2 ^ 23) 24 % 65536).toNat

/-- The phase of a sample: within one LSB of the exact one, and any value where s and c are both 0
(notes/assumptions/2.md). -/
def Mach.phase (m : Mach) (s c : Int) : Nat × Mach :=
  let r := m.take 16
  if s = 0 ∧ c = 0 then r else ((phaseOf s c + 65535 + r.1 % 3) % 65536, r.2)

/-! ### Divider (R253) -/

/-- The divider drives pins: its channel runs and a pin is named. -/
def Mach.divOn (m : Mach) (n : Nat) : Bool := m.rd E.POS_MODE n != 0 && m.rd E.DIV_PIN n != 0xFF

/-- COUNT has changed by step `d`. -/
def Mach.divide (m : Mach) (n : Nat) (d : Int) : Mach :=
  if m.divOn n = false then m
  else
    let x := m.posc n
    let dm : Int := (m.rd E.DIV_M n : Nat)
    let acc := x.acc + d * (m.rd E.DIV_N n : Nat)
    let q := if m.auth then x.q + Int.tdiv acc dm else 0
    let excess := q.natAbs - 65535
    let m := m.setPosc n { x with acc := Int.tmod acc dm, q := clampInt q (-65535) 65535 }
    if excess = 0 then m else m.inc E.DIV_OVERFLOWS n excess

/-- DIV_OUTPUT_STEP (R253): one quadrature step in the sign of Q. -/
def execDivOutputStep (n : Nat) (s : State) : Host.Outcome State Fault Refusal :=
  s.onMach (n < 8) fun m =>
    let x := m.posc n
    m.when (m.ioOn && m.divOn n && m.auth && x.q != 0) fun m =>
      let fwd := decide (0 < x.q)
      let ph := if fwd then (x.phase + 1) % 4 else (x.phase + 3) % 4
      let m := m.setPosc n { x with q := if fwd then x.q - 1 else x.q + 1, phase := ph }
      let i := m.rd E.DIV_PIN n
      (m.drive i (ph == 1 || ph == 2) m.now).drive (i + 1) (ph == 2 || ph == 3) m.now

/-! ### Speed and direction (R249 to R252) -/

/-- K of R249. -/
def speedK : Int := 1433600000000

/-- SPEED with the sign of DIR. -/
def Mach.setSpeed (m : Mach) (n : Nat) (v : Int) : Mach :=
  let m := m.wrI E.SPEED n v
  if m.rd E.POS_MODE n = 1 ∧ m.pst n 2 = false ∧ (m.rd E.SPEED_UP n * 65536 : Nat) < v.natAbs then
    m.setPosc n { m.posc n with freqNext := true }
  else m

/-- Period values are reported: sin/cos, in period mode or in the first gate of frequency mode (R250). -/
def Mach.periodMode (m : Mach) (n : Nat) : Bool :=
  m.rd E.POS_MODE n == 1 && (!m.pst n 2 || (m.posc n).gateFirst)

/-- The sign of DIR. -/
def Mach.dirSign (m : Mach) (n : Nat) (v : Int) : Int := if m.pst n 1 then -v else v

/-- Motion or a reversal is recognised at sample instant `t` (R252): `n` samples from the first change to this one. -/
def Mach.recognise (m : Mach) (n : Nat) (back rev : Bool) (t : TW64) : Mach :=
  let x := m.posc n
  let span := match x.offAt with | some a => x.clock - a | none => 0
  let m := ((m.setPst n 1 back).setPst n 0 false).inc (if rev then E.REVERSALS else E.MOTION_STARTS) n
  let x := { m.posc n with ext := m.rd E.COUNT n, dirAt := (m.posc n).clock, offAt := none, still := 0 }
  let x := if rev then { x with freqNext := false, gateFirst := false } else x
  let m := m.setPosc n x
  let m := if m.rd E.POS_MODE n = 1 then
      let m := if rev then m.setPst n 2 false else m
      let h := m.rd E.REV_HYST n
      if h = 1 then m.setSpeed n 0
      else if span = 0 then
        -- Motion recognised by one change alone: the spec gives no n (notes/assumptions/2.md).
        let r := m.take 64
        r.2.setSpeed n (signedOf 64 r.1)
      else m.setSpeed n (m.dirSign n (rdiv (((h - 1 : Nat) : Int) * speedK) (span : Nat)))
    else m
  m.produce 2 n (m.rd E.DIR_EC n) (bn back + 2 * bn rev) t

/-- COUNT has changed by `d` at sample instant `t`: direction and period speed. -/
def Mach.moved (m : Mach) (n : Nat) (d : Int) (t : TW64) : Mach :=
  if d = 0 then m
  else
    let count := m.rd E.COUNT n
    let h : Int := (m.rd E.REV_HYST n : Nat)
    let x := m.posc n
    if m.pst n 0 then
      -- Standstill: the distance from the standstill position.
      let a := posDist count x.still
      let was := a - d
      let fresh := decide (a ≠ 0 ∧ (was = 0 ∨ (0 < was ∧ a < 0) ∨ (was < 0 ∧ 0 < a)))
      let m := m.setPosc n { x with offAt := if a = 0 then none else if fresh then some x.clock else x.offAt }
      if h ≤ a ∨ a ≤ -h then m.recognise n (decide (a < 0)) false t else m
    else
      let a := m.dirSign n (posDist count x.ext)
      if 0 < a then
        let m := m.setPosc n { x with ext := count, dirAt := x.clock, offAt := none }
        if m.periodMode n then m.setSpeed n (m.dirSign n (rdiv speedK ((x.clock - x.dirAt : Nat) : Int))) else m
      else
        let off := if a = 0 then none else match x.offAt with | some b => some b | none => some x.clock
        let m := m.setPosc n { x with offAt := off }
        if a ≤ -h then m.recognise n (!m.pst n 1) true t else m

/-- In period mode the reported magnitude falls with the samples passed (R251). -/
def Mach.decay (m : Mach) (n : Nat) : Mach :=
  let x := m.posc n
  let k := x.clock - x.dirAt
  if m.periodMode n ∧ m.pst n 0 = false ∧ 0 < k then
    let v := m.rdI E.SPEED n
    let lim := rdiv speedK (k : Nat)
    if lim < (v.natAbs : Int) then m.wrI E.SPEED n (if v < 0 then -lim else lim) else m
  else m

/-- STANDSTILL (R251). -/
def execStandstill (n : Nat) (s : State) : Host.Outcome State Fault Refusal :=
  s.onMach (n < 8) fun m =>
    m.when (m.ioOn && m.rd E.POS_MODE n != 0 && !m.pst n 0) fun m =>
      let m := (m.setPst n 0 true).wrI E.SPEED n 0
      let m := if m.rd E.POS_MODE n = 1 then m.setPst n 2 false else m
      m.setPosc n { m.posc n with still := m.rd E.COUNT n, offAt := none, freqNext := false, gateFirst := false }

/-- G: samples of a gate (R249). -/
def Mach.gateLen (m : Mach) (n : Nat) : Nat := (rdiv ((m.rd E.GATE n * 21875 : Nat) : Int) 1000).toNat

/-- GATE_END (R249, R250): in sin/cos mode a gate ends and the next begins, at the sample counts that are whole multiples of G. A gate
of another length, for GATE was written within it, gives no speed. -/
def execGateEnd (n : Nat) (s : State) : Host.Outcome State Fault Refusal :=
  s.onMach (n < 8) fun m =>
    m.when (m.ioOn && m.rd E.POS_MODE n == 1 && (m.posc n).clock % m.gateLen n == 0 && (m.posc n).clock != (m.posc n).gateAt) fun m =>
      let x := m.posc n
      let count := m.rd E.COUNT n
      let m := m.setPosc n { x with gate0 := count, gateAt := x.clock, freqNext := false, gateFirst := false }
      if m.pst n 2 then
        let v := rdiv (posDist count x.gate0 * speedK) (m.gateLen n)
        if x.clock ≠ x.gateAt + m.gateLen n then m.setPosc n { m.posc n with gateFirst := x.gateFirst } else
        let m := m.wrI E.SPEED n (if m.pst n 5 ∨ m.pst n 0 then 0 else v)
        if v.natAbs < m.rd E.SPEED_DOWN n * 65536 then m.setPst n 2 false else m
      else if x.freqNext then (m.setPst n 2 true).setPosc n { m.posc n with gateFirst := true }
      else m

/-! ### The counter (R246) -/

/-- The counter starts at a value. -/
def Mach.startCount (m : Mach) (n v : Nat) (t : TW64) : Mach :=
  let m := ((m.wr E.COUNT n v).wr E.SAMPLE_TIME n t.toNat).setPst n 9 true
  m.setPosc n { m.posc n with last := some v, still := v, gate0 := v }

/-- COUNT moves by a step, its sample instant is `t`. -/
def Mach.stepCount (m : Mach) (n : Nat) (d : Int) (t : TW64) : Mach :=
  let m := m.wr E.COUNT n (BitVec.ofNat 32 (m.rd E.COUNT n) + BitVec.ofInt 32 d).toNat
  ((m.wr E.SAMPLE_TIME n t.toNat).divide n d).moved n d t

/-- A change of POS_MODE restarts the channel (R239, R246). In SSI mode the channel is in frequency mode only (R249). -/
def Mach.posRestart (m : Mach) (n : Nat) : Mach :=
  let m := m.setPosc n { phase := (m.posc n).phase }
  (m.wr E.POS_STATUS n (0x0101 + (if m.rd E.POS_MODE n = 2 then 4 else 0))).wrI E.SPEED n 0

/-- A write of POS_MODE (R239). -/
def Mach.writePosMode (m : Mach) (path n : Nat) (data : Bytes) : Mach :=
  m.writeEntry path E.POS_MODE n data fun old m => if old.rd E.POS_MODE n = m.rd E.POS_MODE n then m else m.posRestart n

/-- POS_MODE (R239). -/
def execPosMode (path n : Nat) (data : Bytes) (s : State) : Host.Outcome State Fault Refusal :=
  s.onMach (path < 5 ∧ n < 8) fun m => m.writePosMode path n data

/-- POS_CMD (R246): 1 clears POS_INVALID. -/
def execPosCmd (path n : Nat) (data : Bytes) (s : State) : Host.Outcome State Fault Refusal :=
  s.onMach (path < 5 ∧ n < 8) fun m => m.keyed path E.POS_CMD n data true 1 fun m => m.setPst n 8 false

/-! ### Sin/cos samples (R240 to R243) -/

/-- Consecutive-sample counts of the amplitude window (R243). -/
def Mach.countAmp (m : Mach) (n a2 : Nat) (t : TW64) : Mach :=
  let x := m.posc n
  let lo := (2 * m.rd E.AMP_LO n) ^ 2
  let hi := (2 * m.rd E.AMP_HI n) ^ 2
  let run := fun (c : Bool) (k : Nat) => if c then Nat.min (k + 1) 65535 else 0
  m.setPosc n { x with
    low := run (decide (a2 < lo)) x.low
    high := run (decide (hi < a2)) x.high
    inside := run (decide (lo ≤ a2 ∧ a2 ≤ hi)) x.inside
    lost := run (decide (a2 < 40000)) x.lost
    back := run (decide (40000 < a2)) x.back
    at_ := t }

/-- The phase advance between samples reaches a quarter period (R242). -/
def Mach.checkAdvance (m : Mach) (n phi : Nat) (prev : Option Nat) : Mach :=
  match prev with
  | none => m
  | some q =>
    if 16384 ≤ (signedOf 16 (phi + 65536 - q)).natAbs then ((m.inc E.OVERSPEEDS n).setPst n 6 true).setPst n 8 true else m

/-- A sample of the sin/cos channel `n` (R240 to R242). -/
def Mach.sinCos (m : Mach) (n : Nat) (rs rc : Int) (t : TW64) : Mach :=
  let s := rs - m.rdI E.SIN_OFS n
  let c := asr ((rc - m.rdI E.COS_OFS n) * (m.rd E.COS_GAIN n : Nat) + 8192) 14
  let a2 := (s * s + c * c).toNat
  let m := (m.wr E.AMP_NOW n (isqrt a2 / 2)).countAmp n a2 t
  let (phi, m) := m.phase s c
  let x := m.posc n
  let m := m.setPosc n { x with phi := some phi, clock := x.clock + 1 }
  let k := m.rd E.INTERP_BITS n
  let q := phi / 2 ^ (16 - k)
  match x.last with
  | none => if 40000 < a2 then (m.startCount n q t).evalSource n t else m
  | some p =>
    if m.pst n 5 then m
    else
      let m := m.checkAdvance n phi x.phi
      let step := signedOf k (q + 2 ^ 16 - p)
      let m := m.setPosc n { m.posc n with last := some q }
      let m := m.stepCount n (if m.rd E.POS_INVERT n = 1 then -step else step) t
      (m.decay n).evalSource n t

/-- POS_SAMPLE (R241). -/
def execPosSample (n : Nat) (rs rc : Int) (t : TW64) (s : State) : Host.Outcome State Fault Refusal :=
  s.onMach (n < 8) fun m => m.when (m.rd E.POS_MODE n == 1 && m.ioOn) fun m => m.sinCos n rs rc t

/-- A window flag is set (R243). -/
def Mach.ampFault (m : Mach) (n b : Nat) : Mach :=
  if m.pst n b then m
  else
    let m := (m.setPst n b true).inc E.AMP_FAULTS n
    m.produce 3 n (m.rd E.AMP_EC n) (bn (m.pst n 3) + 2 * bn (m.pst n 4)) (m.posc n).at_

/-- AMP_DWELL_EXPIRY (R243): what has held for AMP_DWELL samples takes effect. -/
def execAmpDwellExpiry (n : Nat) (s : State) : Host.Outcome State Fault Refusal :=
  s.onMach (n < 8) fun m =>
    m.when (m.ioOn && m.rd E.POS_MODE n == 1) fun m =>
      let d := m.rd E.AMP_DWELL n
      let x := m.posc n
      let m := if d ≤ x.inside then (m.setPst n 3 false).setPst n 4 false else m
      let m := if d ≤ x.low then m.ampFault n 3 else m
      let m := if d ≤ x.high then m.ampFault n 4 else m
      let m := if d ≤ x.lost then ((m.setPst n 5 true).setPst n 8 true).wrI E.SPEED n 0 else m
      if d ≤ x.back then m.setPst n 5 false else m

/-! ### SSI (R244, R245) -/

/-- Gray code to binary on `w` bits (R244): b[w−1] = g[w−1], b[i] = b[i+1] XOR g[i]. -/
def grayToBinary : Nat → Bool → Nat → Nat
  | 0, _, _ => 0
  | w + 1, above, g => let b := xor above (bitOf g w); bn b * 2 ^ w + grayToBinary w b g

/-- Is the number of ones among `w` bits odd? -/
def oddOnes (w n : Nat) : Bool := (List.range w).foldl (fun r i => xor r (bitOf n i)) false

/-- The bits of a frame as the channel reads them (notes/assumptions/17.md): position bits most significant first,
error bits 0 upward, the parity bit where there is one, and the level at the end of the monoflop time, the last in
bit 0. Answers the position word, or none where the frame is rejected (R245). -/
def Mach.ssiWord (m : Mach) (n word : Nat) : Option Nat :=
  let w := m.rd E.SSI_BITS n
  let eb := m.rd E.SSI_ERR_BITS n
  let par := m.rd E.SSI_PARITY n
  let level := bitOf word 0
  let body := word / 2
  let pbit := bn (par != 0)
  let data := body / 2 ^ pbit
  let err := (List.range eb).any fun i => bitOf data (eb - 1 - i) == bitOf (m.rd E.SSI_ERR_MASK n) i
  let odd := oddOnes (w + eb + pbit) body
  let wrong := (par == 1 && odd) || (par == 2 && !odd)
  let g := data / 2 ^ eb % 2 ^ w
  if err ∨ wrong ∨ level = false then none
  else some (if m.rd E.SSI_CODE n = 1 then grayToBinary w false g else g)

/-- A frame is rejected (R245). -/
def Mach.ssiReject (m : Mach) (n : Nat) (jump : Bool) : Mach :=
  let x := m.posc n
  let m := (m.inc E.SSI_ERRORS n).setPst n 7 true
  m.setPosc n { x with rejects := x.rejects + 1, jumps := if jump then x.jumps + 1 else 0 }

/-- SPEED at an accepted word (R249): over the accepted words of the last cdiv(GATE, SSI_POLL) polls. One word alone
gives no time difference (notes/assumptions/2.md). -/
def Mach.ssiSpeed (m : Mach) (n : Nat) (t : TW64) : Mach :=
  let x := m.posc n
  let span := cdiv (m.rd E.GATE n) (m.rd E.SSI_POLL n)
  let keep := (x.polls ++ [(x.clock, m.rd E.COUNT n, t)]).filter fun p => decide (x.clock < p.1 + span)
  let m := m.setPosc n { x with polls := keep }
  match keep with
  | [] => m
  | (_, c0, t0) :: _ =>
    let dt := twDiff t t0 / 256
    if dt = 0 then
      let r := m.take 64
      r.2.wr E.SPEED n r.1
    else m.wrI E.SPEED n (rdiv (posDist (m.rd E.COUNT n) c0 * 65536 * 1000000000) dt)

/-- A word is accepted (R245). -/
def Mach.ssiAccept (m : Mach) (n w : Nat) (d : Int) (t : TW64) : Mach :=
  let m := m.setPosc n { m.posc n with last := some w, jumps := 0, rejects := 0 }
  let m := (m.setPst n 7 false).setPst n 5 false
  ((m.stepCount n d t).ssiSpeed n t).evalSource n t

/-- A frame of the encoder at sample instant `t` (R245). -/
def Mach.ssiFrame (m : Mach) (n word : Nat) (t : TW64) : Mach :=
  match m.ssiWord n word with
  | none => m.ssiReject n false
  | some w =>
    let x := m.posc n
    match x.last with
    | none =>
      let m := (m.startCount n w t).setPosc n { (m.startCount n w t).posc n with jumps := 0, rejects := 0 }
      let m := (m.setPst n 7 false).setPst n 5 false
      (m.ssiSpeed n t).evalSource n t
    | some p =>
      if 3 ≤ x.jumps then (m.ssiAccept n w 0 t).setPst n 8 true
      else
        let d := signedOf (m.rd E.SSI_BITS n) (w + 2 ^ 32 - p)
        if m.rd E.SSI_JUMP n < d.natAbs then m.ssiReject n true else m.ssiAccept n w d t

/-- The sample instant of a frame whose first falling edge lies at `t` (R244). -/
def Mach.ssiInstant (m : Mach) (n : Nat) (t : TW64) : TW64 := t + BitVec.ofNat 64 (m.rd E.SSI_LATCH_DELAY n * 256)

/-- The channel drives its clock pair: with output authority, or outside a pair (R501). -/
def Mach.ssiDrives (m : Mach) : Bool := m.auth || m.rd E.PAIR_ENABLE == 0

/-- SSI_POLL (R244, R501): a frame is clocked by a module that drives the clock pair. A poll for which no frame came, in the
gap of a takeover, was a rejected frame. -/
def execSsiPoll (n : Nat) (_t : TW64) (s : State) : Host.Outcome State Fault Refusal :=
  s.onMach (n < 8) fun m =>
    m.when (m.rd E.POS_MODE n == 2 && m.ioOn) fun m =>
      let drives := m.ssiDrives
      let m := m.when (!(m.posc n).framed) fun m => m.ssiReject n false
      let m := m.setPosc n { m.posc n with clock := (m.posc n).clock + 1, framed := drives }
      m.when drives fun m => m.emit (.ssiClock n)

/-- SSI_FRAME (R245): the bits of a frame whose first falling edge lies at `t`. -/
def execSsiFrame (n word : Nat) (t : TW64) (s : State) : Host.Outcome State Fault Refusal :=
  s.onMach (n < 8) fun m => m.when (m.rd E.POS_MODE n == 2 && m.ioOn) fun m =>
    (m.setPosc n { m.posc n with framed := true }).ssiFrame n word (m.ssiInstant n t)

/-- SSI_JUMP_RESYNC (R245): after three jump rejections in a row the next word is the reference. -/
def execSsiJumpResync (n word : Nat) (t : TW64) (s : State) : Host.Outcome State Fault Refusal :=
  s.onMach (n < 8) fun m =>
    m.when (m.rd E.POS_MODE n == 2 && m.ioOn && decide (3 ≤ (m.posc n).jumps)) fun m =>
      (m.setPosc n { m.posc n with framed := true }).ssiFrame n word (m.ssiInstant n t)

/-- SSI_LOST (R245): ten rejected frames in a row. -/
def execSsiLost (n : Nat) (s : State) : Host.Outcome State Fault Refusal :=
  s.onMach (n < 8) fun m =>
    m.when (m.rd E.POS_MODE n == 2 && decide (10 ≤ (m.posc n).rejects)) fun m => (m.setPst n 5 true).wrI E.SPEED n 0

end Sys2Proof.Machine
end

