-- ==== Sys2Proof/Machine/Tree.lean ====
section
/-! DEFINITION. The tree of the fabric as a node sees it: root election, root port, children and LINK_REPORTs (R371, R372),
and the members (R386). -/

namespace Sys2Proof.Machine

/-! ### HELLO (R371) -/

/-- Fields of a HELLO payload. -/
structure Hello where
  eui : Nat
  priority : Nat
  port : Nat
  rootPort : Bool
  dovetail : Bool
  rootEui : Nat
  rootPri : Nat
  rootDist : Nat
  address : Nat
  epoch : Nat
  members : Nat
  deriving DecidableEq, Repr

/-- Read a HELLO payload. -/
def readHello (b : Bytes) : Hello :=
  let w2 := leAt b 8 4
  let w5 := leAt b 20 4
  { eui := leAt b 0 8, priority := bitsOf w2 7 0, port := bitsOf w2 14 8, rootPort := bitOf w2 15, dovetail := bitOf w2 16,
    rootEui := leAt b 12 8, rootPri := bitsOf w5 7 0, rootDist := bitsOf w5 13 8, address := bitsOf w5 31 16,
    epoch := leAt b 24 4, members := leAt b 28 4 }

/-- MEMBERS_CRC of the module: 0 for an empty list (R371). -/
def Mach.membersCrc (m : Mach) : Nat :=
  let b := m.rdB E.FAB_MEMBERS
  if b.isEmpty then 0 else crc32c b

/-- The EUIs of a member list. -/
def euis : Nat → Bytes → List Nat
  | 0, _ => []
  | n + 1, b => if b.length < 8 then [] else leAt b 0 8 :: euis n (b.drop 8)

/-- Is the EUI a member (R386)? -/
def Mach.member (m : Mach) (eui : Nat) : Bool :=
  m.rd E.MEMBERS_ENABLE == 0 || (let b := m.rdB E.FAB_MEMBERS; (euis (b.length / 8) b).contains eui)

/-- The neighbours of the LINKED fabric ports, with their ports. -/
def Mach.neighbours (m : Mach) : List (Nat × Hello) :=
  (List.range 96).filterMap fun p =>
    if m.rd E.QUAD_ROLE (p / 4) = 2 ∧ m.rd E.PORT_STATE p = 4 then (m.fport p).hello.map fun b => (p, readHello b) else none

/-- The module's HELLO on a port (R371). -/
def Mach.helloPayload (m : Mach) (p : Nat) : Bytes :=
  let t := m.tree
  leBytes 8 (m.rd E.FAB_EUI) ++
    leBytes 4 (m.rd E.FAB_PRIORITY + p * 2 ^ 8 + bn (t.rootPort == some p) * 2 ^ 15 + bn (m.xlinkPorts.contains p) * 2 ^ 16) ++
    leBytes 8 t.rootEui ++ leBytes 4 (t.rootPri + t.dist * 2 ^ 8 + m.fabAddr * 2 ^ 16) ++
    leBytes 4 (m.rd E.MAP_STATE % 2 ^ 32) ++ leBytes 4 m.membersCrc

/-! ### Election (R372) -/

/-- Rank of a root: the least priority, then the least EUI. -/
def rootBetter (a b : Nat × Nat) : Bool := decide (a.1 < b.1) || (a.1 == b.1 && decide (a.2 < b.2))

/-- The better of two root-port candidates: least distance, then least neighbour EUI, then lowest port. -/
def portBetter (a b : Nat × Hello) : Bool :=
  let x := a.2; let y := b.2
  decide (x.rootDist < y.rootDist) || (x.rootDist == y.rootDist &&
    (decide (x.eui < y.eui) || (x.eui == y.eui && decide (a.1 < b.1))))

/-- The best root, own distance and root port (R372 steps 1 and 2). -/
def Mach.election (m : Mach) : (Nat × Nat) × Nat × Option Nat :=
  let own := (m.rd E.FAB_PRIORITY, m.rd E.FAB_EUI)
  let c := m.neighbours.filter fun x => decide (x.2.rootDist < 63)
  let best := c.foldl (fun r x => if rootBetter (x.2.rootPri, x.2.rootEui) r then (x.2.rootPri, x.2.rootEui) else r) own
  if best = own then (own, 0, none)
  else
    let l := c.filter fun x => (x.2.rootPri, x.2.rootEui) == best
    match l with
    | [] => (own, 0, none)
    | x :: xs =>
      let y := xs.foldl (fun r z => if portBetter z r then z else r) x
      (best, y.2.rootDist + 1, some y.1)

/-- The ports toward the node's children: neighbours that announce ROOT_PORT toward it. -/
def Mach.childPorts (m : Mach) : List Nat := (m.neighbours.filter fun x => x.2.rootPort).map fun x => x.1

/-- The node's own report (R372 step 3). -/
def Mach.ownReport (m : Mach) : Report :=
  { eui := m.rd E.FAB_EUI, priority := m.rd E.FAB_PRIORITY, pin := m.rd E.FAB_ADDR_PIN,
    recs := m.neighbours.map fun x => (x.1, m.rd E.PORT_WIDTH x.1, m.rd E.NET_RATE x.1, x.2.eui, x.2.dovetail || m.xlinkPorts.contains x.1) }

/-- Payload of a LINK_REPORT (notes/assumptions/17.md). -/
def Report.bytes (r : Report) : Bytes :=
  leBytes 8 r.eui ++ leBytes 1 r.priority ++ leBytes 1 0 ++ leBytes 2 r.pin ++
    r.recs.flatMap fun x => leBytes 1 x.1 ++ leBytes 1 x.2.1 ++ leBytes 4 x.2.2.1 ++ leBytes 8 x.2.2.2.1 ++ leBytes 1 (bn x.2.2.2.2)

/-- Read `n` records of a LINK_REPORT. -/
def readRecs : Nat → Bytes → List (Nat × Nat × Nat × Nat × Bool)
  | 0, _ => []
  | n + 1, b =>
    if b.length < 15 then []
    else (leAt b 0 1, leAt b 1 1, leAt b 2 4, leAt b 6 8, bitOf (leAt b 14 1) 0) :: readRecs n (b.drop 15)

/-- Read a LINK_REPORT. -/
def readReport (b : Bytes) : Report :=
  { eui := leAt b 0 8, priority := leAt b 8 1, pin := leAt b 10 2, recs := readRecs (b.length / 15) (b.drop 12) }

/-- The root's view takes a report: the newest of each EUI (R372). -/
def Mach.viewReport (m : Mach) (r : Report) : Mach :=
  { m with tree.reports := (m.tree.reports.filter fun q => q.eui != r.eui) ++ [r] }

/-- Send the node's report along its root port; the root takes it into its own view. -/
def Mach.sendReport (m : Mach) : Mach :=
  let r := m.ownReport
  let m := { m with tree.sent := some r }
  match m.tree.rootPort with
  | none => m.viewReport r
  | some p =>
    let (n, m) := m.nextFseq 3 0
    m.queueFrame p { tc := 3, kind := 0x03, dst := 0, src := if m.fabAddr = 0 then 0xFFFF else m.fabAddr, fseq := n, payload := r.bytes }

/-- MAP_STATE with the root port and the distance now. -/
def Mach.showTree (m : Mach) : Mach :=
  let old := m.rd E.MAP_STATE
  let rp := match m.tree.rootPort with | some p => p | none => 0xFF
  (m.wr E.MAP_STATE 0 (old % 2 ^ 48 + rp * 2 ^ 48 + m.tree.dist * 2 ^ 56)).wr E.ROOT_INFO 0 m.tree.rootEui

/-- The neighbours, what they announce, or what the report holds has changed: elect again, and report (R372). A node that
becomes the root starts a new view. -/
def Mach.elect (m : Mach) : Mach :=
  let e := m.election
  let wasRoot := m.tree.rootPort.isNone
  let m := { m with tree.rootPri := e.1.1, tree.rootEui := e.1.2, tree.dist := e.2.1, tree.rootPort := e.2.2 }
  let m := if e.2.2.isSome ∨ !wasRoot then { m with tree.reports := [] } else m
  m.showTree.sendReport

end Sys2Proof.Machine
end

