-- ==== Sys2Proof/Machine/Lanes.lean ====
section
/-! DEFINITION. Lane quads, lanes and ports up to ALIGNED: forming and rates (R19, R20, R26), the reference (R24, R25),
bring-up and the search (R44 to R48), markers and losses (R49 to R53), codewords and levels received (R27 to R30, R40), blocks,
deskew and framing (R32 to R35, R41, R42, R45), the eye monitor (R58) and the test loops (R60, R61). -/

namespace Sys2Proof.Machine

/-! ### Ports (R19, R20, R26) -/

/-- Lanes of the port that lane `j` of a quad begins under a port-forming code; 0 where it begins none (R19, R20). -/
def formWidth (code j : Nat) : Nat :=
  let row : List Nat := match code with
    | 0 => [1, 1, 1, 1] | 1 => [2, 0, 1, 1] | 2 => [1, 1, 2, 0] | 3 => [2, 0, 2, 0] | _ => [4, 0, 0, 0]
  row.getD j 0

/-- Width of port p under QUAD_PORTS. -/
def Mach.widthOf (m : Mach) (p : Nat) : Nat := formWidth (m.rd E.QUAD_PORTS (p / 4)) (p % 4)

/-- NET_RATE in kbit/s of `w` lanes at a spread of `s` × 0.01 % (R26, R43): codewords, block headers and markers taken off
56 Gbit/s. The fraction is dropped once, after the width is applied: DESIGN CHOICE (notes/assumptions/56.md). -/
def netRate (w s : Nat) : Nat :=
  w * 56000000 * 5140 * 256 * 16383 * (10000 - s) / (5300 * 257 * 16384 * 10000)

/-- NET_RATE of every port now. -/
def Mach.netRates (m : Mach) : Mach :=
  m.each (List.range 96) fun p m => m.wr E.NET_RATE p (netRate (m.rd E.PORT_WIDTH p) (m.rd E.SPREAD_DEPTH))

/-- PORT_WIDTH and NET_RATE of every port follow QUAD_PORTS and SPREAD_DEPTH. -/
def Mach.formPorts (m : Mach) : Mach := (m.each (List.range 96) fun p m => m.wr E.PORT_WIDTH p (m.widthOf p)).netRates

/-- The ports as they are formed with every lane DOWN (R52): a port without lanes has no reason, every other has no signal. -/
def Mach.restPorts (m : Mach) : Mach :=
  m.formPorts.each (List.range 96) fun p m => m.wr E.PORT_HOLD p (bn (m.rd E.PORT_WIDTH p != 0))

/-- State of a lane (R44): DOWN 0, SEEKING 1, LOCKED 2, ALIGNED 3. -/
def Mach.laneState (m : Mach) (l : Nat) : Nat := m.rd E.LANE_STATE l

/-! ### Port states (R51, R52) -/

/-- A cross-link port has left LINKED: unacknowledged pair frames go again at once on the other (R401). -/
def Mach.resendPair (m : Mach) (p : Nat) : Mach :=
  match m.xlinkPort with
  | some q => if m.xlinkPorts.contains p then m.pair.unacked.foldl (fun m u => m.queueFrame q u.2) m else m
  | none => m

/-- A fabric port falls below ALIGNED: credits start afresh, its frames are lost and the tree changes (R371, R372, R377);
pair frames go again on the other cross-link port (R401). -/
def Mach.fabricLost (m : Mach) (p : Nat) (was : Nat) : Mach :=
  let x := m.fport p
  let m := m.setFport p {}
  let m := x.tx.foldl (fun m f => match f.into with
    | some q => if q = p then m else let y := m.fport q; m.setFport q { y with gave := y.gave.set f.tc ((y.gave.getD f.tc 0 + cdiv (28 + f.payload.length + (if f.payload.isEmpty then 0 else 4)) 64) % 65536) }
    | none => m) m
  let m := m.each (m.fports.map Prod.fst) fun q m =>
    let y := m.fport q
    m.setFport q { y with tx := y.tx.map fun (f : FabMsg) => if f.into = some p then { f with into := none } else f }
  if was = 4 then (m.resendPair p).elect else m

/-- A camera port falls below ALIGNED (R52, R78): contracts suspend, packets under way are lost. -/
def Mach.cameraLost (m : Mach) (p : Nat) : Mach :=
  let m := m.suspendPort p
  let x := m.port p
  m.setPort p { x with openPkt := none, openHdrDmg := false, openPayDmg := false, heard := false, ident := false, tx := [],
                       beacon := none, vcEnable := 0, regQ := x.regQ.filter fun (t : RegTxn) => t.kind != 4,
                       trigs := x.trigs.map fun (g : TrigPend) => { g with sent := true } }

/-- A port at ALIGNED or above falls to a state below (R52, R78, R388). -/
def Mach.portLost (m : Mach) (p state : Nat) : Mach :=
  let was := m.rd E.PORT_STATE p
  let m := ((m.wr E.PORT_STATE p state).wr E.PORT_FAULT p 0).setTxPort p { m.txPort p with blocks := [] }
  if m.isFabricPort p then (m.wr E.FAB_PORT_FAULT p 0).fabricLost p was else m.cameraLost p

/-- Every lane of the port has come to a marker of one AM_SEQ (R42). -/
def Mach.together (m : Mach) (p : Nat) : Bool :=
  let l := (m.lanesOf p).map fun k => (m.lane k).amSeq
  l.all fun a => a.isSome && a == l.headD none

/-- The port is not deskewed: its lanes wait for their next markers (R49, R52). -/
def Mach.undeskew (m : Mach) (p : Nat) : Mach :=
  let m := m.setPort p { m.port p with deskewed := false, turn := 0 }
  m.each (m.lanesOf p) fun l m => m.setLane l { m.lane l with amSeq := none, buf := [] }

/-- The hold reasons of a port's lanes (R52). With every lane ALIGNED and skew beyond the buffer, reason 3 stands while some lane has
passed a marker whose AM_SEQ another has still to reach, and 7 alone between: DESIGN CHOICE (notes/assumptions/56.md). -/
def Mach.holdReasons (m : Mach) (p : Nat) : List Nat :=
  let ls := m.lanesOf p
  let st := fun (l : Nat) => m.laneState l
  (if ls.any fun l => st l == 0 then [1] else []) ++ (if ls.any fun l => st l == 1 then [2] else []) ++
  ([4, 5, 6].filter fun h => ls.any fun l => decide (2 ≤ st l) && (m.lane l).idHold == h) ++
  (if (ls.any fun l => st l == 2) || !m.together p then [3] else []) ++ [7]

/-- Spread of the lanes' deskew buffers, in blocks (R42). -/
def Mach.skewOf (m : Mach) (p : Nat) : Nat :=
  let l := (m.lanesOf p).map fun k => (m.lane k).buf.length
  maxOf l - minOf l

/-- The state below LINKED that the lanes of a port give (R49, R51, R52); a deskewed port stays ALIGNED while its lanes do. The
quad's role does not match the port's use where it is off (notes/assumptions/50.md). -/
def Mach.portBelow (m : Mach) (p : Nat) : Nat :=
  let ls := m.lanesOf p
  if ls.isEmpty ∨ m.rd E.QUAD_ROLE (p / 4) = 0 ∨ ls.all fun l => m.laneState l == 0 then 0
  else if ls.any fun l => decide (m.laneState l < 2) then 1
  else if ls.any fun l => m.laneState l == 2 then 2
  else if (m.port p).deskewed then 3
  else if (ls.any fun l => (m.lane l).idHold != 0 || decide (32 < (m.lane l).buf.length)) || !m.together p then 2
  else 3

/-- The port follows its lanes (R51, R52); a fabric port FAULTED with reason 3 or 4 stays so until it is ALIGNED (R388). -/
def Mach.portUpdate (m : Mach) (p : Nat) : Mach :=
  let ls := m.lanesOf p
  let m := if !ls.isEmpty ∧ (ls.all fun l => m.laneState l == 3) ∧ m.together p ∧ (ls.any fun l => (m.lane l).buf.isEmpty) ∧
      (m.port p).deskewed = false then m.wr E.PORT_SKEW p (Nat.min 32 (m.skewOf p)) else m
  let old := m.rd E.PORT_STATE p
  let held := m.isFabricPort p && old == 7 && decide (3 ≤ m.rd E.FAB_PORT_FAULT p)
  let new := m.portBelow p
  let m := if new = 3 then m.setPort p { m.port p with deskewed := true } else m
  let hold := if new = 3 then 0 else if new = 0 then (if ls.isEmpty then 0 else 1) else (m.holdReasons p).headD 0
  let m := m.wr E.PORT_HOLD p hold
  if held then (if new = 3 then (m.wr E.PORT_STATE p 3).wr E.FAB_PORT_FAULT p 0 else m)
  else if 3 ≤ old then (if new = 3 then m else m.portLost p new)
  else (m.wr E.PORT_STATE p new)

/-- The port that a lane belongs to (R19). -/
def Mach.portOf (m : Mach) (l : Nat) : Nat := (m.portOfLane l).getD l

/-! ### Lanes -/

/-- The receiver begins with a whole pair at its offset (R45): of a pair half taken, the second block lies before it. -/
def Lane.atPair (x : Lane) : Lane := { x with half := none, pairs := 0, skip := x.skip + (if x.half.isSome then 257 else 0) }

/-- The receiver's place in its stream once the decoder stops or the lane goes DOWN: the decoder ran on whole codewords. -/
def Lane.undecoded (x : Lane) : Lane := if x.decoding then { x with half := none, bits := [], skip := 0 } else x

/-- A lane goes to DOWN (R44, R53): it keeps its bit offset, its measurement number and what the symbol layer and the loops
hold. -/
def Mach.laneDown (m : Mach) (l : Nat) : Mach :=
  let x := (m.lane l).undecoded.atPair
  let m := m.setLane l { offset := x.offset, eyeNo := x.eyeNo, rxScr := x.rxScr, rxPrev := x.rxPrev, fifo := x.fifo, bits := x.bits, skip := x.skip }
  ((m.wr E.LANE_STATE l 0).wr E.BLK_LOCK l 0).undeskew (m.portOf l)

/-- A lane enters SEEKING (R44, R47): the Bench starts a pass at the present offset unless the search is manual. -/
def Mach.seek (m : Mach) (l : Nat) : Mach :=
  let x := (m.lane l).undecoded
  let m := m.setLane l { x with passRun := m.rd E.SEARCH_MODE l == 0, passWait := false, passSlips := 0, decoding := false, raw := 0, since := none,
                                marks := 0, badMarks := 0, badCw := 0, idHold := 0, rxBlocks := [], measuring := false }
  ((m.wr E.LANE_STATE l 1).undeskew (m.portOf l)).portUpdate (m.portOf l)

/-- BLK_LOCK sets (R45, R47): a SEEKING lane is LOCKED at that instant. -/
def Mach.blkLock (m : Mach) (l : Nat) : Mach :=
  let m := m.wr E.BLK_LOCK l 1
  let m := m.setLane l { m.lane l with pairs := 64 }
  if m.laneState l = 1 then
    let m := m.setLane l { m.lane l with passRun := false, passWait := false, passSlips := 0, since := none, marks := 0, badMarks := 0,
                                          idHold := 0 }
    (m.wr E.LANE_STATE l 2).portUpdate (m.portOf l)
  else m

/-- One slip (R46): the offset moves later by one bit, and the indicator judges the pairs there afresh. -/
def Mach.slipOnce (m : Mach) (l : Nat) : Mach :=
  let x := (m.lane l).undecoded.atPair
  let m := m.setLane l { x with offset := (x.offset + 1) % 514, skip := x.skip + 1 }
  (m.inc E.SLIPS l).wr E.BLK_LOCK l 0

/-- A loss of lock (R50). -/
def Mach.lockLoss (m : Mach) (l : Nat) : Mach := (m.inc E.LOCK_LOSSES l).seek l

/-- Restart of bring-up of lanes (R53). -/
def Mach.restartLanes (m : Mach) (ls : List Nat) : Mach :=
  let m := m.each ls fun l m => m.laneDown l
  m.each ((ls.map m.portOf).dedup) fun p m => m.portUpdate p

/-- The state of an island; where it enters or leaves recovery, the condition of cause 8 of R124 changes. -/
def Mach.setIsland (m : Mach) (i st : Nat) : Mach :=
  let old := m.rd E.ISLAND_STATE i
  let m := m.wr E.ISLAND_STATE i st
  if old ≠ st ∧ (old = 2 ∨ st = 2) then { m with fail8 := some m.ns } else m

/-- A lane receiver of a quad that powers up has any bit offset (R53). -/
def Mach.freeOffset (m : Mach) (l : Nat) : Mach :=
  let r := m.take 64
  r.2.setLane l { r.2.lane l with offset := r.1 % 514 }

/-- QUAD_PLL_LOCK (R22, R44): the quad's transmitters start. -/
def execQuadPllLock (q : Nat) (s : State) : Host.Outcome State Fault Refusal :=
  s.onMach (q < 24) fun m => m.when (m.quadOn q) fun m => (m.setQuad q { m.quad q with pllLocked := true }).startTx q

/-- SIGNAL_ACQUIRED (R44, R48). -/
def execSignalAcquired (l : Nat) (s : State) : Host.Outcome State Fault Refusal :=
  s.onMach (l < 96) fun m =>
    m.when (m.quadOn (l / 4) && m.laneState l == 0) fun m =>
      (m.setLane l { (m.lane l).atPair with signal := true }).seek l

/-- LOSS_OF_SIGNAL (R44, R48). -/
def execLossOfSignal (l : Nat) (s : State) : Host.Outcome State Fault Refusal :=
  s.onMach (l < 96) fun m => m.when (m.laneState l != 0) fun m => m.restartLanes [l]

/-- SEARCH_DWELL (R47). -/
def execSearchDwell (l : Nat) (s : State) : Host.Outcome State Fault Refusal :=
  s.onMach (l < 96) fun m =>
    let x := m.lane l
    m.when (x.passRun && m.laneState l == 1) fun m =>
      if m.rd E.BLK_LOCK l = 1 then m.blkLock l
      else if 514 ≤ x.passSlips then (m.setLane l { x with passRun := false, passWait := true }).inc E.SEARCH_FAILS l
      else (m.setLane l { x with passSlips := x.passSlips + 1 }).slipOnce l

/-- SEARCH_PASS_WAIT (R47). -/
def execSearchPassWait (l : Nat) (s : State) : Host.Outcome State Fault Refusal :=
  s.onMach (l < 96) fun m =>
    let x := m.lane l
    m.when x.passWait fun m => m.setLane l { x with passWait := false, passRun := true, passSlips := 0 }

/-- SLIP (R48): a written value above 1 is clamped (R427). -/
def Mach.writeSlip (m : Mach) (path l : Nat) (data : Bytes) : Mach :=
  m.command path (0x2100 + l) 0x09 data (m.rd E.SEARCH_MODE l == 1) fun m =>
    let c := m.convert E.SLIP l data
    let m := m.tallyIf path (0x2100 + l) 0x09 c.kind data
    if c.val.toNat = 0 then m
    else
      let locked := m.rd E.BLK_LOCK l == 1
      let m := m.slipOnce l
      if locked ∧ 2 ≤ m.laneState l then m.seek l else m

/-- SLIP (R46, R48). -/
def execSlip (path l : Nat) (data : Bytes) (s : State) : Host.Outcome State Fault Refusal :=
  s.onMach (path < 5 ∧ l < 96) fun m => m.writeSlip path l data

/-- SEARCH_MODE (R47, R48): the search changes hands at the present offset. -/
def Mach.writeSearchMode (m : Mach) (path l : Nat) (data : Bytes) : Mach :=
  m.writeEntry path E.SEARCH_MODE l data fun old m =>
    if old.rd E.SEARCH_MODE l = m.rd E.SEARCH_MODE l ∨ m.laneState l ≠ 1 then m else m.seek l

/-- SEARCH_MODE (R48). -/
def execSearchMode (path l : Nat) (data : Bytes) (s : State) : Host.Outcome State Fault Refusal :=
  s.onMach (path < 5 ∧ l < 96) fun m => m.writeSearchMode path l data

/-- BLK_LOCK_SET (R45). -/
def execBlkLockSet (l : Nat) (s : State) : Host.Outcome State Fault Refusal :=
  s.onMach (l < 96) fun m => m.when (m.laneState l != 0) fun m => m.blkLock l

/-- LOCK_LOST_TIMEOUT (R50). -/
def execLockLostTimeout (l : Nat) (s : State) : Host.Outcome State Fault Refusal :=
  s.onMach (l < 96) fun m => m.when (m.laneState l == 2 && m.rd E.BLK_LOCK l == 0) fun m => m.lockLoss l

/-- ALIGN_LOSS (R50): 106 codewords in a row have been uncorrectable. Two markers in a row that are missing or bad end the alignment
at the second (`badMarker`). -/
def execAlignLoss (l : Nat) (s : State) : Host.Outcome State Fault Refusal :=
  s.onMach (l < 96) fun m => m.when (m.laneState l == 3 && decide (106 ≤ (m.lane l).badCw)) fun m => m.lockLoss l

/-- A fabric port goes to FAULTED (R371, R377, R386, R387): with reason 3 or 4 its lanes start bring-up again (R388). -/
def Mach.fabFault (m : Mach) (p reason : Nat) : Mach :=
  let was := m.rd E.PORT_STATE p
  let m := (m.wr E.PORT_STATE p 7).wr E.FAB_PORT_FAULT p reason
  if 3 ≤ reason then (m.fabricLost p was).restartLanes (m.lanesOf p)
  else if was = 4 then (m.resendPair p).elect else m

/-! ### Reconfiguration (R53, R56, R57) -/

/-- A quad's role or ports have changed: its ports are formed anew and every lane starts again (R53). -/
def Mach.quadChanged (m : Mach) (q : Nat) : Mach :=
  let ls := (List.range 4).map (4 * q + ·)
  let m := m.each ls fun p m =>
    let was := m.rd E.PORT_STATE p
    let m := ((m.wr E.PORT_STATE p 0).wr E.PORT_FAULT p 0).wr E.FAB_PORT_FAULT p 0
    if 3 ≤ was then (m.cameraLost p).fabricLost p was else m
  let m := (m.setQuad q { m.quad q with pllLocked := m.rd E.QUAD_ROLE q != 0 && (m.quad q).pllLocked }).startTx q
  let m := m.formPorts
  let m := m.each ls fun l m => m.laneDown l
  m.each ls fun p m => m.portUpdate p

/-- A change of a camera port's NET_RATE re-forecasts (R131). -/
def Mach.ratesMoved (old m : Mach) : Mach :=
  if (List.range 96).any fun p => m.rd E.QUAD_ROLE (p / 4) == 1 && m.rd E.NET_RATE p != old.rd E.NET_RATE p then m.reforecast else m

/-- A write of QUAD_ROLE or QUAD_PORTS. -/
def Mach.writeQuad (m : Mach) (path : Nat) (e : Entry) (q : Nat) (data : Bytes) : Mach :=
  m.writeEntry path e q data fun old m =>
    if old.rd e q = m.rd e q then m
    else
      let st := m.rd E.ISLAND_STATE q
      let m := if 2 ≤ st ∨ m.rd E.MODULE_STATE < 3 then m else m.setIsland q (bn (m.rd E.QUAD_ROLE q != 0))
      Mach.ratesMoved m (m.quadChanged q)

/-- A lane's settings or loop have changed (R28, R53): precoding begins again from index 0, and the lane starts bring-up. -/
def Mach.laneChanged (m : Mach) (l : Nat) : Mach := (m.setTxLane l { m.txLane l with prev := 0 }).restartLanes [l]

/-- A write of LOOP_MODE or of an equalisation entry. -/
def Mach.writeLane (m : Mach) (path : Nat) (e : Entry) (l : Nat) (data : Bytes) : Mach :=
  m.writeEntry path e l data fun old m =>
    let m := if e = E.LOOP_MODE then m else m.wr E.EQ_SOURCE l 2
    if old.rd e l = m.rd e l then m
    else if e = E.LOOP_MODE then (m.laneChanged l).startLoop l
    else m.laneChanged l

/-- Receive settings in force on a lane, RX_EQ and RX_DFE: in the near-end serial loop CTLE at code 0 and DFE taps at 0 (R60). -/
def Mach.rxSettings (m : Mach) (l : Nat) : Nat × Nat :=
  if m.rd E.LOOP_MODE l = 1 then (bitsOf (m.rd E.RX_EQ l) 15 10 * 2 ^ 10, 0) else (m.rd E.RX_EQ l, m.rd E.RX_DFE l)

/-- The entries whose change restarts bring-up (R53). -/
def Mach.laneReconfigure (m : Mach) (path index sub : Nat) (data : Bytes) : Mach :=
  match findEntry index sub with
  | none => m
  | some (e, k) =>
    if e = E.QUAD_ROLE ∨ e = E.QUAD_PORTS then m.writeQuad path e k data
    else if e = E.TX_FIR ∨ e = E.RX_EQ ∨ e = E.RX_DFE ∨ e = E.LANE_FLAGS ∨ e = E.LOOP_MODE then m.writeLane path e k data
    else m

/-- LANE_RECONFIGURE (R53). -/
def execLaneReconfigure (path index sub : Nat) (data : Bytes) (s : State) : Host.Outcome State Fault Refusal :=
  s.onMach (path < 5) fun m => m.laneReconfigure path index sub data

/-! ### The reference (R24, R25) -/

/-- REF_SWITCHOVER (R24). -/
def execRefSwitchover (s : State) : Host.Outcome State Fault Refusal :=
  s.onMach true fun m =>
    let sel := m.rd E.REF_SELECTED
    m.when (decide (sel < 2) && decide (m.rd E.REF_POLICY < 2)) fun m =>
      ((m.wr E.REF_VALID 0 (2 ^ (1 - sel))).wr E.REF_SELECTED 0 (1 - sel)).inc E.REF_SWITCHES 0

/-- REF_HOLDOVER (R25): an input that REF_POLICY excludes keeps its validity. -/
def execRefHoldover (s : State) : Host.Outcome State Fault Refusal :=
  s.onMach true fun m =>
    let keep := match m.rd E.REF_POLICY with | 2 => m.rd E.REF_VALID / 2 * 2 | 3 => m.rd E.REF_VALID % 2 | _ => 0
    ((m.wr E.REF_VALID 0 keep).wr E.REF_SELECTED 0 2).wr E.REF_HOLDOVER 0 1

/-- The input that REF_POLICY takes of the valid ones (R24). -/
def refChoice (policy : Nat) (a b : Bool) : Option Nat :=
  match policy with
  | 0 => if a then some 0 else if b then some 1 else none
  | 1 => if b then some 1 else if a then some 0 else none
  | 2 => if a then some 0 else none
  | _ => if b then some 1 else none

/-- REF_VALID_RETURN (R25): validity of A and B now; a preferred input is reselected. -/
def execRefValidReturn (a b : Bool) (s : State) : Host.Outcome State Fault Refusal :=
  s.onMach true fun m =>
    let m := m.wr E.REF_VALID 0 (bn a + 2 * bn b)
    match refChoice (m.rd E.REF_POLICY) a b with
    | none => m
    | some n =>
      let sel := m.rd E.REF_SELECTED
      let m := if sel ≠ 2 ∧ sel ≠ n then m.inc E.REF_SWITCHES 0 else m
      (m.wr E.REF_SELECTED 0 n).wr E.REF_HOLDOVER 0 0

/-! ### Markers (R36, R49) -/

/-- The block is an alignment marker with a correct CRC (R36). -/
def markerOk (b : Bytes) : Bool := leAt b 0 1 == 0xA5 && leAt b 1 1 == 0x5A && crc8 (b.take 31) == leAt b 31 1

/-- The block is an idle block (R34). -/
def idleBlock (b : Bytes) : Bool := b == (0x0F : Byte) :: zeros 31

/-- Hold reason of a marker's identity at a lane: 0, or 4, 5 or 6 (R49, R52). -/
def Mach.identityHold (m : Mach) (l : Nat) (b : Bytes) : Nat :=
  let w0 := leAt b 0 4
  let p := m.portOf l
  let w := m.rd E.PORT_WIDTH p
  let code := if w = 1 then 0 else if w = 2 then 1 else 2
  if bitsOf w0 17 16 ≠ l - p then 4
  else if bitsOf w0 19 18 ≠ code then 5
  else if bitOf (leAt b 4 4) 0 ≠ m.isFabricPort p then 6
  else 0

/-- A marker that is missing or bad (R49, R50). -/
def Mach.badMarker (m : Mach) (l : Nat) : Mach :=
  let m := m.inc E.AM_BAD l
  let x := m.lane l
  let m := m.setLane l { x with marks := 0, badMarks := x.badMarks + 1 }
  if m.laneState l = 3 ∧ 2 ≤ x.badMarks + 1 then m.lockLoss l else m

/-- Cut the bits of a message into blocks from index `k` on: header and descrambled payload, with the scrambler after them (R31, R33). -/
def cutBlocks (damaged : Bool) : Nat → Nat → BitVec 58 → List Bool → List RxBlock × BitVec 58
  | 0, _, r, _ => ([], r)
  | n + 1, k, r, bits =>
    let d := descramble r ((bits.drop 1).take 256)
    let rest := cutBlocks damaged n (k + 1) d.2 (bits.drop 257)
    ({ k := k, h := bits.headD false, payload := bytesOfBits 32 d.1, damaged := damaged } :: rest.1, rest.2)

/-- A lane's decoder starts at its second marker (R49): the codeword in progress began `phase` blocks before the marker, and the rest of
it comes undecoded; in a near-end loop its bits have come already. -/
def Lane.startDecoder (x : Lane) (phase : Nat) : Lane :=
  let all := x.bits.drop x.skip
  if all.isEmpty then
    let rest := (x.rxBlocks.take (19 - phase)).zipIdx.map fun (b : RxBlock × Nat) => { b.1 with k := phase + 1 + b.2 }
    { x with decoding := true, badCw := 0, bits := [], skip := 0, rxBlocks := rest, raw := if rest.isEmpty then 19 - phase else 0 }
  else
    let rest := cutBlocks false (Nat.min (19 - phase) (all.length / 257)) (phase + 1) x.rxScr all
    { x with decoding := true, badCw := 0, bits := [], skip := 0, rxBlocks := rest.1, rxScr := rest.2, raw := 0 }

/-- A marker with a correct CRC (R49): two in a row exactly 16,384 blocks apart (`spacing`) whose phases differ by 4 align the lane. Several
wrong fields are one identity mismatch (notes/assumptions/50.md). While the port is not deskewed, the lane's buffer begins at the marker
(R42). -/
def Mach.goodMarker (m : Mach) (l : Nat) (b : Bytes) (spacing : Bool) : Mach :=
  let w1 := leAt b 4 4
  let phase := bitsOf w1 15 8
  let hold := m.identityHold l b
  let m := if hold = 0 then m else m.inc E.AM_ID_MISMATCH l
  let x := m.lane l
  let second := x.marks != 0 && spacing && (phase + 20 - x.markPhase % 20) % 20 == 4
  let start := second && m.laneState l == 2
  let x := { x with marks := if second then 2 else 1, markPhase := phase, badMarks := 0, idHold := hold, since := some 0 }
  let x := if start then x.startDecoder (phase % 20) else x
  let x := if (m.port (m.portOf l)).deskewed ∨ x.decoding = false then x else { x with amSeq := some (bitsOf w1 23 16), buf := [] }
  let m := m.setLane l x
  let m := if start then m.wr E.LANE_STATE l 3 else m
  m.portUpdate (m.portOf l)

/-! ### Codewords (R27 to R30, R38 to R40) -/

/-- The level indices at a lane's receive path after RX_INV in a codeword time (R30, R60): those of the line, or in a near-end loop the next of
the lane's own; none where a near-end loop holds none. -/
def Mach.rxIndices (m : Mach) (l : Nat) (levels : List Nat) : Option (List Nat) :=
  let line := (levels.map fun v => v % 4).take 2650 ++ List.replicate (2650 - levels.length) 0
  match m.rd E.LOOP_MODE l with
  | 1 => (m.txLane l).own.head?.map (polarity (m.laneFlag l 1))
  | 2 => (m.txLane l).own.head?
  | _ => some (polarity (m.laneFlag l 1) line)

/-- The far-end loop returns the received indices through its FIFO and TX_INV, without precoding (R60, R61). -/
def Mach.farEnd (m : Mach) (l : Nat) (g : List Nat) : Mach :=
  if m.rd E.LOOP_MODE l = 3 then
    let all := (m.lane l).fifo ++ g
    (m.setLane l { m.lane l with fifo := all.drop 2650 }).emit (.lane l (polarity (m.laneFlag l 0) (all.take 2650)))
  else m.setTxLane l { m.txLane l with own := (m.txLane l).own.drop 1 }

/-- The codeword of received indices: precoding removed (R28) but where the parallel loop bypasses it. -/
def Mach.rxCodeword (m : Mach) (l : Nat) (g : List Nat) : List Nat :=
  indicesCodeword (if m.laneFlag l 3 && m.rd E.LOOP_MODE l != 2 then unprecode (m.lane l).rxPrev g else g)

/-- Blocks of a message join those that wait for the block layer (R31, R33, R40); of the codeword in which the decoder started, those after its
start. -/
def Mach.passBlocks (m : Mach) (l : Nat) (damaged : Bool) (msg : List Nat) : Mach :=
  let x := m.lane l
  let b := cutBlocks damaged 20 0 x.rxScr ((msg.take 514).flatMap (natBits 10))
  m.setLane l { x with rxBlocks := x.rxBlocks ++ b.1.drop (if x.raw = 0 then 0 else 20 - x.raw), rxScr := b.2, raw := 0 }

/-- A codeword at a lane's decoder (R40): corrected, or passed on unchanged and damaged; 106 in a row that cannot be corrected are the first
criterion of R50. -/
def Mach.decode (m : Mach) (l : Nat) (c : List Nat) : Mach :=
  match rsDecode c with
  | some (d, n) =>
    let m := m.passBlocks l false d
    let m := m.setLane l { m.lane l with badCw := if 106 ≤ (m.lane l).badCw then 106 else 0 }
    if n = 0 then m else (m.inc E.CW_CORRECTED l).inc E.SYM_CORRECTED l n
  | none =>
    let m := m.passBlocks l true c
    (m.setLane l { m.lane l with badCw := Nat.min 106 ((m.lane l).badCw + 1) }).inc E.CW_UNCORRECTABLE l

/-- The lane receives its own transmitter (R60). -/
def Mach.ownLoop (m : Mach) (l : Nat) : Bool := m.rd E.LOOP_MODE l == 1 || m.rd E.LOOP_MODE l == 2

/-- CODEWORD_RECEIVE (R40): the levels of a codeword time. Before the decoder runs, the bits are cut into blocks as they are: the line's at the
receiver's offset (notes/assumptions/49.md), those of a near-end loop from where that offset lies in them (`nextBlock`, R60). -/
def Mach.codewordIn (m : Mach) (l : Nat) (g : List Nat) : Mach :=
  let c := m.rxCodeword l g
  let m := m.setLane l { m.lane l with rxPrev := g.getLastD 0 }
  let x := m.lane l
  if x.decoding then m.decode l c
  else if m.ownLoop l then m.setLane l { x with bits := x.bits ++ (c.take 514).flatMap (natBits 10) }
  else m.passBlocks l false c

/-- CODEWORD_RECEIVE (R27 to R30, R40, R60). -/
def execCodewordReceive (l : Nat) (levels : List Nat) (s : State) : Host.Outcome State Fault Refusal :=
  s.onMach (l < 96) fun m =>
    m.when (m.laneState l != 0) fun m =>
      match m.rxIndices l levels with
      | some g => (m.farEnd l g).codewordIn l g
      | none => m

/-! ### Blocks (R32, R34, R35, R45) -/

/-- The block-lock indicator takes one block (R45). -/
def Mach.judgePair (m : Mach) (l : Nat) (b : RxBlock) : Mach :=
  let x := m.lane l
  let plain := idleBlock b.payload || markerOk b.payload
  match x.half with
  | none => m.setLane l { x with half := some (b.h && plain) }
  | some first =>
    if first && !b.h && plain then
      let m := m.setLane l { x with half := none, pairs := Nat.min 64 (x.pairs + 1) }
      if 64 ≤ x.pairs + 1 then m.blkLock l else m
    else (m.setLane l { x with half := none, pairs := 0 }).wr E.BLK_LOCK l 0

/-- Add bytes of a block to the open packet, with a header of `hdr` bytes, and its damage (R40). -/
def Port.addBytes (x : Port) (hdr : Nat) (old new : Bytes) (damaged : Bool) : Port :=
  { x with openPkt := some (old ++ new),
           openHdrDmg := x.openHdrDmg || (damaged && decide (old.length < hdr)),
           openPayDmg := x.openPayDmg || (damaged && decide (hdr < old.length + new.length)) }

/-- Bytes of a packet's header: 24 on a camera port (R65), 28 on a fabric port (R367). -/
def Mach.headerSize (m : Mach) (p : Nat) : Nat := if m.isFabricPort p then 28 else 24

/-- A framing error (R35). -/
def Mach.framingError (m : Mach) (p : Nat) : Mach :=
  (m.setPort p { m.port p with openPkt := none, openHdrDmg := false, openPayDmg := false }).inc E.FRAMING_ERRORS p

/-- A boundary block (R34, R35). With END_COUNT 0 an open packet ends too short and is discarded and counted (R63,
notes/assumptions/50.md). -/
def Mach.boundary (m : Mach) (p : Nat) (b : Bytes) (damaged : Bool) : Mach :=
  let w0 := leAt b 0 2
  let e := bitsOf w0 12 8
  let start := bitOf w0 13
  let x := m.port p
  if 30 < e ∨ (start ∧ e = 30) ∨ (0 < e ∧ x.openPkt = none) then m.framingError p
  else
    let m := match x.openPkt with
      | some old =>
        if 0 < e then
          let y := x.addBytes (m.headerSize p) old ((b.drop 2).take e) damaged
          m.setPort p { y with openPkt := none, openHdrDmg := false, openPayDmg := false,
                               rx := y.rx ++ [{ bytes := y.openPkt.getD [], hdrDamaged := y.openHdrDmg, payDamaged := y.openPayDmg }] }
        else m.framingError p
      | none => m
    if start then m.setPort p ((m.port p).addBytes (m.headerSize p) [] (b.drop (2 + e)) damaged) else m

/-- The framing of one port block (R32, R34, R35): T is H XOR (k mod 2). -/
def Mach.frameBlock (m : Mach) (p : Nat) (b : RxBlock) : Mach :=
  let control := xor b.h (b.k % 2 == 1)
  let x := m.port p
  if control then
    let kind := leAt b.payload 0 1
    if kind = 0x0F ∨ kind = 0xA5 then m
    else if kind = 0x3C then m.boundary p b.payload b.damaged
    else m.inc E.FRAMING_ERRORS p
  else
    match x.openPkt with
    | none => m.framingError p
    | some old => m.setPort p (x.addBytes (m.headerSize p) old b.payload b.damaged)

/-- A deskewed port takes its blocks from its lanes in turn while the lane whose turn it is holds one (R41). -/
def Mach.drainPort : Nat → Nat → Mach → Mach
  | 0, _, m => m
  | fuel + 1, p, m =>
    let x := m.port p
    match x.deskewed, (m.lane (p + x.turn)).buf with
    | true, b :: rest =>
      let m := (m.setLane (p + x.turn) { m.lane (p + x.turn) with buf := rest }).setPort p { x with turn := (x.turn + 1) % m.rd E.PORT_WIDTH p }
      Mach.drainPort fuel p (m.frameBlock p b)
    | _, _ => m

/-- A block that is no marker enters its lane's deskew buffer, of 32 blocks until the port is deskewed (R42), and the port goes on. -/
def Mach.portBlock (m : Mach) (l : Nat) (b : RxBlock) : Mach :=
  let x := m.lane l
  let p := m.portOf l
  if x.amSeq = none then m
  else
    let m := m.setLane l { x with buf := if (m.port p).deskewed then x.buf ++ [b] else (x.buf ++ [b]).take 33 }
    Mach.drainPort (((m.lanesOf p).map fun k => (m.lane k).buf.length).sum) p m

/-- The block that a lane receives next (R31, R33): the one that waits longest; before the decoder, in a near-end loop the one of the bits received
at the receiver's offset (R46), otherwise the one of the bits given; none where there is none. -/
def Mach.nextBlock (m : Mach) (l : Nat) (h : Bool) (bits : Bytes) : Option RxBlock × Mach :=
  let x := m.lane l
  match x.rxBlocks with
  | b :: rest => (some b, m.setLane l { x with rxBlocks := rest })
  | [] =>
    if m.ownLoop l then
      if x.decoding = true ∨ x.bits.length < x.skip + 257 then (none, m)
      else
        let c := cutBlocks false 1 0 x.rxScr (x.bits.drop x.skip)
        (c.1.head?, m.setLane l { x with bits := x.bits.drop (x.skip + 257), skip := 0, rxScr := c.2 })
    else if x.decoding = true ∧ x.raw = 0 then (none, m)
    else
      let d := descramble x.rxScr ((bits.take 32 ++ zeros (32 - bits.length)).flatMap bitsLsb)
      (some { k := 20 - x.raw, h := h, payload := bytesOfBits 32 d.1, damaged := false },
       m.setLane l { x with rxScr := d.2, raw := x.raw - 1 })

/-- A block with the header and KIND of a marker (R32, R36): a marker stands at an even index (R37). -/
def Lane.kindMarker (x : Lane) (b : RxBlock) : Bool := x.half.isNone && b.h && leAt b.payload 0 1 == 0xA5

/-- A block stands at a marker's place, or is one (R49): on a LOCKED or ALIGNED lane. -/
def Mach.markerPlace (m : Mach) (l : Nat) (b : RxBlock) : Bool :=
  decide (2 ≤ m.laneState l) && ((m.lane l).since == some 16383 || (m.lane l).kindMarker b)

/-- BLOCK_RECEIVE (R35, R45): a block away from the markers' places. -/
def Mach.blockIn (m : Mach) (l : Nat) (b : RxBlock) : Mach :=
  let m := m.setLane l { m.lane l with since := (m.lane l).since.map (· + 1) }
  (m.judgePair l b).portBlock l b

/-- A block at a marker's place, or a marker elsewhere (R49): 16,384 blocks after the last place it has its spacing. -/
def Mach.markerIn (m : Mach) (l : Nat) (b : RxBlock) : Mach :=
  let x := m.lane l
  let due := x.since == some 16383
  let good := x.kindMarker b && markerOk b.payload
  let m := m.setLane l { x with since := if due then some 0 else x.since.map (· + 1) }
  let m := m.judgePair l b
  if good then m.goodMarker l b.payload due else m.badMarker l

/-- BLOCK_RECEIVE (R33, R35, R45). -/
def execBlockReceive (l : Nat) (h : Bool) (bits : Bytes) (s : State) : Host.Outcome State Fault Refusal :=
  s.onMach (l < 96) fun m =>
    m.when (m.laneState l != 0) fun m =>
      match m.nextBlock l h bits with
      | (some b, n) => if m.markerPlace l b then m else n.blockIn l b
      | (none, _) => m

/-- ALIGNMENT_MARKER (R33, R36, R49). -/
def execAlignmentMarker (l : Nat) (h : Bool) (bits : Bytes) (s : State) : Host.Outcome State Fault Refusal :=
  s.onMach (l < 96) fun m =>
    m.when (decide (2 ≤ m.laneState l)) fun m =>
      match m.nextBlock l h bits with
      | (some b, n) => if m.markerPlace l b then n.markerIn l b else m
      | (none, _) => m

/-! ### Eye monitor and loop (R58, R61) -/

/-- EYE_MEASURE (R58). -/
def execEyeMeasure (l : Nat) (s : State) : Host.Outcome State Fault Refusal :=
  s.onMach (l < 96) fun m => m.when (m.laneState l == 3) fun m => m.setLane l { m.lane l with measuring := true }

/-- A lane of a quad has lost margin (R487). -/
def Mach.marginLost (m : Mach) (q : Nat) : Bool :=
  (List.range 4).any fun j =>
    let l := 4 * q + j
    match m.almanac.eyeFirst.find? fun x => x.1 == l with
    | none => false
    | some f => (m.almanac.eyes.filter fun x => x.1 == l && decide (m.rd E.POWERED_HOURS < x.2.1 + 720)).any fun x =>
        decide (2 * x.2.2.1 < f.2.1) || decide (2 * x.2.2.2.1 < f.2.2.1) || decide (2 * x.2.2.2.2 < f.2.2.2)

/-- The corrected errors of a stack over 30 days (R487). -/
def Mach.errorsOf (m : Mach) (stack : Nat) : Nat := ((m.almanac.ce.get [] stack).take 720).sum

/-- The Almanac advises replacement of a part by the forecast, HBM errors or lane margin of this instant (R487); an advice that stands
is kept. -/
def Mach.advise (m : Mach) (k : Nat) : Mach :=
  if m.rd E.PART_ADVICE k ≠ 0 then m
  else if m.rd E.PART_DAYS k ≤ m.rd E.ADVICE_DAYS then m.wr E.PART_ADVICE k 1
  else if 0x36 ≤ k ∧ k < 0x3E ∧ m.rd E.HBM_CE_LIMIT < m.errorsOf (k - 0x36) then m.wr E.PART_ADVICE k 2
  else if k < 24 ∧ m.marginLost k then m.wr E.PART_ADVICE k 3
  else m

/-- The Almanac keeps a measurement of a lane, EYE_LAST (R58, R484), its first heights and those of the last 30 days (R487). -/
def Mach.keepEye (m : Mach) (l eye : Nat) : Mach :=
  let m := m.record 4 [l, eye]
  let a := m.almanac
  let up := bitsOf eye 9 0
  let mid := bitsOf eye 19 10
  let low := bitsOf eye 29 20
  let first := if a.eyeFirst.any fun x => x.1 == l then a.eyeFirst else SMap.put l (up, mid, low) a.eyeFirst
  let kept := a.eyes.filter fun x => decide (m.rd E.POWERED_HOURS < x.2.1 + 720)
  { m with almanac := { a with eyeFirst := first, eyes := kept ++ [(l, m.rd E.POWERED_HOURS, up, mid, low)] } }.advise (l / 4)

/-- EYE_MEASURE_DONE (R58). -/
def execEyeMeasureDone (l up mid low width : Nat) (s : State) : Host.Outcome State Fault Refusal :=
  s.onMach (l < 96) fun m =>
    let x := m.lane l
    m.when (x.measuring && m.laneState l == 3) fun m =>
      let v := up % 1024 + mid % 1024 * 2 ^ 10 + low % 1024 * 2 ^ 20 + width % 256 * 2 ^ 30 + x.eyeNo * 2 ^ 48
      let m := m.setLane l { x with measuring := false, eyeNo := (x.eyeNo + 1) % 65536 }
      (m.wr E.EYE_LAST l v).keepEye l v

/-- LOOP_FIFO_RECENTRE (R61). -/
def execLoopFifoRecentre (l : Nat) (s : State) : Host.Outcome State Fault Refusal :=
  s.onMach (l < 96) fun m =>
    m.when (m.rd E.LOOP_MODE l == 3) fun m => (m.centreFifo l).inc E.LOCK_LOSSES l

end Sys2Proof.Machine
end

