-- ==== Sys2Proof/Machine/Fabric.lean ====
section
/-! DEFINITION. The Pyrik fabric: frames and their checks (R367 to R369, R387), credits and sending (R375 to R377), HELLO and
port states (R371, R386, R388), the walk and the map (R372 to R374), routes reserved for remote streams (R379 to R381), LINE
and SET_NOTICE (R382, R383), and imported events (R384). -/

namespace Sys2Proof.Machine

/-! ### Frames (R367, R368) -/

/-- Bytes of a frame without fill. -/
def FabMsg.length (f : FabMsg) : Nat := 28 + f.payload.length + (if f.payload.isEmpty then 0 else 4)

/-- Cost in credit units (R377). -/
def FabMsg.cost (f : FabMsg) : Nat := cdiv f.length 64

/-- A frame as it is sent (R367, R368). -/
def FabMsg.bytes (f : FabMsg) : Bytes :=
  let h := leBytes 4 (1 + f.tc * 2 ^ 4 + bn f.down * 2 ^ 7 + f.kind * 2 ^ 8 + f.payload.length * 2 ^ 16) ++
    leBytes 2 f.dst ++ leBytes 2 f.src ++ leBytes 4 (f.flow % 65536 + f.hops * 2 ^ 16) ++ leBytes 4 f.fseq ++
    leBytes 4 f.argA ++ leBytes 4 f.argB ++ zeros 2
  let h := h ++ leBytes 2 (crc16 h)
  if f.payload.isEmpty then h else h ++ f.payload ++ leBytes 4 (crc32c f.payload)

/-- Read a frame's header and payload. -/
def readFrame (b : Bytes) : FabMsg :=
  let w0 := leAt b 0 4
  let w2 := leAt b 8 4
  { tc := bitsOf w0 6 4, kind := bitsOf w0 15 8, dst := leAt b 4 2, src := leAt b 6 2, flow := w2 % 65536, hops := bitsOf w2 19 16,
    fseq := leAt b 12 4, argA := leAt b 16 4, argB := leAt b 20 4, down := bitOf w0 7, payload := (b.drop 28).take (w0 / 65536) }

/-- The class of a kind (R369, R401). -/
def kindClass (kind tc : Nat) : Bool :=
  if kind = 0x01 ∨ kind = 0x02 then tc == 7
  else if kind = 0x03 ∨ kind = 0x04 ∨ (0x40 ≤ kind ∧ kind ≤ 0x43) ∨ kind = 0x48 ∨ kind = 0x49 then tc == 3
  else if kind = 0x10 then tc == 0
  else if kind = 0x20 then tc == 1
  else if kind = 0x30 ∨ kind = 0x31 then tc == 2
  else if 0x50 ≤ kind ∧ kind ≤ 0x5F then tc == 4
  else if kind = 0x60 ∨ (0x67 ≤ kind ∧ kind ≤ 0x69) then tc == 3
  else if (0x61 ≤ kind ∧ kind ≤ 0x66) ∨ kind = 0x6A then tc == 2
  else if 0x6B ≤ kind ∧ kind ≤ 0x6F then tc == 2 || tc == 3
  else false

/-- Check 2 of R387: VERSION, TC and KIND, and LEN within R367. -/
def frameValid (b : Bytes) : Bool :=
  let w0 := leAt b 0 4
  bitsOf w0 3 0 == 1 && kindClass (bitsOf w0 15 8) (bitsOf w0 6 4) && decide (w0 / 65536 ≤ 2080)

/-- The frame holds its LEN and at most 3 bytes of fill (R63, R367). -/
def frameFits (b : Bytes) : Bool :=
  let len := leAt b 2 2
  let need := 28 + len + (if len = 0 then 0 else 4)
  decide (need ≤ b.length ∧ b.length ≤ need + 3)

/-- HCRC is right (R368). -/
def frameHcrc (b : Bytes) : Bool := crc16 (b.take 26) == leAt b 26 2

/-- The payload CRC is right (R367). -/
def frameCrc (b : Bytes) : Bool :=
  let len := leAt b 2 2
  len == 0 || crc32c ((b.drop 28).take len) == leAt b (28 + len) 4

/-! ### Credits (R376, R377) -/

/-- Units of a class's receive buffer (R376). -/
def classUnits (tc : Nat) : Nat := [32, 128, 2048, 256, 512].getD tc 0

/-- Add units to a class's count, modulo 2^16. -/
def addUnits (l : List Nat) (tc n : Nat) : List Nat := l.set tc ((l.getD tc 0 + n) % 65536)

/-- Units counted in `a` beyond `b`. -/
def unitsOver (a b : List Nat) (tc : Nat) : Nat := (a.getD tc 0 + 65536 - b.getD tc 0) % 65536

/-- Units of a port's receive buffer are freed (R377). -/
def Mach.freeUnits (m : Mach) (p : Nat) (f : FabMsg) : Mach :=
  if 5 ≤ f.tc then m else m.setFport p { m.fport p with gave := addUnits (m.fport p).gave f.tc f.cost }

/-- A frame may be sent under the neighbour's credits (R377). -/
def FPort.mayCost (x : FPort) (f : FabMsg) : Bool := f.tc == 7 || decide (unitsOver x.sent x.freed f.tc + f.cost ≤ classUnits f.tc)

/-- CREDIT (R377): the freed counts of TC0 to TC4. A class that gains credits waits no more. -/
def Mach.onCredit (m : Mach) (p : Nat) (f : FabMsg) : Mach :=
  if f.payload.length < 10 then m
  else
    let x := m.fport p
    let freed := (List.range 5).map fun t => leAt f.payload (2 * t) 2
    m.setFport p { x with freed := freed, starved := x.starved.filter fun k => freed.getD k.1 0 == x.freed.getD k.1 0 }

/-- The port is a fabric port at ALIGNED or above. -/
def Mach.fabricUp (m : Mach) (p : Nat) : Bool := m.isFabricPort p && decide (3 ≤ m.rd E.PORT_STATE p)

/-- CREDIT_SEND (R377). -/
def execCreditSend (p : Nat) (s : State) : Host.Outcome State Fault Refusal :=
  s.onMach (p < 96) fun m =>
    m.when (m.fabricUp p && m.rd E.PORT_STATE p != 7) fun m =>
      let x := m.fport p
      let m := m.setFport p { x with told := x.gave, tx := x.tx.filter fun (f : FabMsg) => f.kind != 0x02 }
      m.sendNeighbour p 7 0x02 0 0 (x.gave.flatMap fun n => leBytes 2 n)

/-- Frames of a class wait for credits. -/
def Mach.waits (m : Mach) (p tc : Nat) : Bool :=
  decide (tc < 5) && ((m.fport p).tx.find? fun (f : FabMsg) => f.tc == tc).any fun f => !(m.fport p).mayCost f

/-- CREDIT_STARVED (R377): the waiting frames of the class are discarded. -/
def execCreditStarved (p tc : Nat) (s : State) : Host.Outcome State Fault Refusal :=
  s.onMach (p < 96) fun m =>
    m.when (m.fabricUp p && m.waits p tc) fun m =>
      let lost := (m.fport p).tx.filter fun (f : FabMsg) => f.tc == tc
      let x := m.fport p
      let m := m.setFport p { x with tx := x.tx.filter (fun (f : FabMsg) => f.tc != tc)
                                     starved := if x.starved.any fun k => k.1 == tc then x.starved else x.starved ++ [(tc, m.ns)] }
      let m := lost.foldl (fun m f => match f.into with | some q => m.freeUnits q f | none => m) m
      m.inc E.CREDIT_STARVED p

/-- CREDIT_STARVE_FAULT (R377, R388): the wait goes on for 3 ms, 2 ms beyond the discard of the frames, with further
ones. -/
def execCreditStarveFault (p tc : Nat) (s : State) : Host.Outcome State Fault Refusal :=
  s.onMach (p < 96) fun m =>
    m.when (m.isFabricPort p && m.rd E.PORT_STATE p == 4 && m.waits p tc &&
      (m.fport p).starved.any fun k => k.1 == tc && decide (k.2 + 2000000 ≤ m.ns)) fun m => m.fabFault p 4

/-! ### Sending (R370, R375, R376) -/

/-- The link of a port is down from this node, by the map in force (R373, R375). -/
def Mach.downLink (m : Mach) (p : Nat) : Bool :=
  m.fabAddr != 0 && ((m.fabMap.adj m.fabAddr).any fun x => x.2.1 == p) && !bitOf (m.rd E.LINK_INFO p) 1

/-- The port may send the frame in its present state (R370, R371, R386). -/
def Mach.maySend (m : Mach) (p : Nat) (f : FabMsg) : Bool :=
  let st := m.rd E.PORT_STATE p
  (st == 4 || (st == 3 && f.tc == 7) || (st == 7 && f.kind == 0x01)) &&
    (m.fabAddr != 0 || [0x01, 0x02, 0x03, 0x04, 0x10].contains f.kind)

/-- The committed forward entry whose flow a frame of this node belongs to (R379). -/
def Mach.fwdOf (m : Mach) (f : FabMsg) : Option (Nat × Fwd) :=
  if f.src = m.fabAddr ∧ (f.kind = 0x30 ∨ f.kind = 0x31) then
    m.fwds.find? fun x => x.2.state == 2 && x.2.node == f.dst && x.2.flow == f.flow
  else none

/-- Frames of a flow that a window of 10 µs which ends now still holds a part of (R381). -/
def Fwd.window (x : Fwd) (ns : Nat) : List (Nat × Nat) := x.went.filter fun k => decide (ns < k.1 + 10000)

/-- The pace of its flow lets a frame go (R381): no 10 µs hold more than 1.25 × D of the flow. Where one frame alone is more than that, its time at
1.25 × D passes before the next (notes/assumptions/55.md). -/
def Mach.paceLets (m : Mach) (f : FabMsg) : Bool :=
  match m.fwdOf f with
  | some x =>
    let w := x.2.window m.ns
    decide (x.2.paceAt ≤ m.ns) && (w.isEmpty || decide (640 * (sumOf (w.map Prod.snd) + f.length) ≤ x.2.d))
  | none => true

/-- A frame of a flow leaves on port `p` (R381). -/
def Mach.pace (m : Mach) (p : Nat) (f : FabMsg) : Mach :=
  match m.fwdOf f with
  | some (k, x) =>
    let gone := m.ns + f.length * 8000000 / Nat.max 1 (m.rd E.NET_RATE p)
    let next := if x.d < 640 * f.length then m.ns + cdiv (f.length * 6400000) (Nat.max 1 x.d) else 0
    { m with fwds := SMap.set {} m.fwds k { x with paceAt := next, went := x.window m.ns ++ [(gone, f.length)] } }
  | none => m

/-- The frame that a port sends next: strict priority, each class in order, under its credits (R376, R377) and the pace of its
flow (R381). -/
def Mach.nextFrame (m : Mach) (p : Nat) : Option FabMsg :=
  let x := m.fport p
  let l := x.tx.filter fun f => m.maySend p f && m.paceLets f
  [7, 0, 1, 2, 3, 4].findSome? fun tc =>
    match l.find? fun (f : FabMsg) => f.tc == tc with
    | some f => if x.mayCost f then some f else none
    | none => none

/-- Remove the first frame equal to `f`. -/
def dropFrame (f : FabMsg) : List FabMsg → List FabMsg
  | [] => []
  | x :: t => if x = f then t else x :: dropFrame f t

/-- A frame leaves on a port (R375, R377): its buffer on the port it came by is freed. -/
def Mach.sendFrame (m : Mach) (p : Nat) (f : FabMsg) : Mach :=
  let x := m.fport p
  let m := (m.setFport p { x with tx := dropFrame f x.tx, sent := if f.tc < 5 then addUnits x.sent f.tc f.cost else x.sent
                                  starved := x.starved.filter fun k => k.1 != f.tc }).pace p f
  let m := match f.into with | some q => m.freeUnits q f | none => m
  let g : FabMsg := { f with hops := f.hops + 1, down := f.down || m.downLink p }
  ((m.emit (.fab p g.bytes)).putPacket p g.bytes).inc E.FRAMES_OUT p

/-! ### HELLO and port states (R371, R386, R388) -/

/-- HELLO_SEND (R371, R388). -/
def execHelloSend (p : Nat) (s : State) : Host.Outcome State Fault Refusal :=
  s.onMach (p < 96) fun m =>
    m.when (m.fabricUp p && decide (m.rd E.FAB_PORT_FAULT p < 3)) fun m =>
      let m := m.setFport p { m.fport p with tx := (m.fport p).tx.filter fun (f : FabMsg) => f.kind != 0x01 }
      let m := if m.tree.sent.isNone then m.elect else m
      m.sendNeighbour p 7 0x01 0 0 (m.helloPayload p)

/-- A fabric port with a valid HELLO takes its state (R371, R386, R388). -/
def Mach.portJoin (m : Mach) (p eui : Nat) : Mach :=
  let st := m.rd E.PORT_STATE p
  let why := m.rd E.FAB_PORT_FAULT p
  if m.member eui = false then (if st = 7 then (if why = 1 then m.wr E.FAB_PORT_FAULT p 2 else m) else m.fabFault p 2)
  else if st = 3 ∧ (m.fport p).settled then m.wr E.PORT_STATE p 4
  else if st = 7 ∧ why < 3 then (m.wr E.PORT_STATE p 4).wr E.FAB_PORT_FAULT p 0
  else m

/-- A valid HELLO (R371, R372, R386). -/
def Mach.onHello (m : Mach) (p : Nat) (f : FabMsg) : Mach :=
  if f.payload.length ≠ 32 then m
  else
    let h := readHello f.payload
    let was := (m.rd E.PORT_STATE p, (m.fport p).hello)
    let m := m.setFport p { m.fport p with hello := some f.payload }
    let info := bn (h.members != m.membersCrc) + (m.rd E.LINK_INFO p / 2 % 2) * 2 + bn (m.xlinkPorts.contains p) * 4 + h.address * 2 ^ 16
    let m := ((m.wr E.NEIGHBOUR p h.eui).wr E.LINK_INFO p info).portJoin p h.eui
    if was = (m.rd E.PORT_STATE p, (m.fport p).hello) ∨ m.rd E.PORT_STATE p ≠ 4 then m else m.elect

/-- The member list has changed (R386, R388): every port with a HELLO is judged again. -/
def Mach.checkMembers (m : Mach) : Mach :=
  let m := m.each (List.range 96) fun p m =>
    match (m.fport p).hello with
    | some b => if m.isFabricPort p ∧ (m.rd E.PORT_STATE p = 4 ∨ m.rd E.FAB_PORT_FAULT p = 2) then
        let h := readHello b
        (m.wr E.LINK_INFO p (m.rd E.LINK_INFO p / 2 * 2 + bn (h.members != m.membersCrc))).portJoin p h.eui
      else m
    | none => m
  m.elect

/-- LINK_SETTLE (R74, R371): an ALIGNED camera port is LINKED; a fabric port also needs a valid HELLO. -/
def execLinkSettle (p : Nat) (s : State) : Host.Outcome State Fault Refusal :=
  s.onMach (p < 96) fun m =>
    m.when (m.rd E.PORT_STATE p == 3) fun m =>
      if m.isFabricPort p then
        let m := m.setFport p { m.fport p with settled := true }
        match (m.fport p).hello with
        | some b => (m.portJoin p (readHello b).eui).elect
        | none => m
      else (m.wr E.PORT_STATE p 4).setPort p { m.port p with heard := false, ident := false }

/-- HELLO_TIMEOUT (R371): the port is ALIGNED afresh, and pair frames go by the other cross-link port (R401). -/
def execHelloTimeout (p : Nat) (s : State) : Host.Outcome State Fault Refusal :=
  s.onMach (p < 96) fun m =>
    m.when (m.isFabricPort p && (m.rd E.PORT_STATE p == 4 || m.rd E.PORT_STATE p == 3)) fun m =>
      let m := m.setFport p { m.fport p with hello := none }
      if m.rd E.PORT_STATE p = 4 then
        (((m.setFport p { m.fport p with settled := false }).wr E.PORT_STATE p 3).resendPair p).elect
      else m

/-- HELLO_FAULT_TIMEOUT (R371). -/
def execHelloFaultTimeout (p : Nat) (s : State) : Host.Outcome State Fault Refusal :=
  s.onMach (p < 96) fun m =>
    m.when (m.isFabricPort p && m.rd E.PORT_STATE p == 3 && (m.fport p).hello.isNone) fun m => m.fabFault p 1

/-! ### The walk and the map (R372) -/

/-- Links of the view between nodes with EUIs `a` and `b`, `a` below `b`: the ports pair off in rising order
(notes/assumptions/17.md). -/
def linksOf (rs : List Report) (a b : Nat) : List (Nat × Nat × Nat × Bool) :=
  let recs : Nat → Nat → List (Nat × Nat × Nat × Nat × Bool) := fun x y => match rs.find? fun r => r.eui == x with
    | some r => r.recs.filter fun (k : Nat × Nat × Nat × Nat × Bool) => k.2.2.2.1 == y
    | none => []
  ((recs a b).zip (recs b a)).map fun (k : (Nat × Nat × Nat × Nat × Bool) × (Nat × Nat × Nat × Nat × Bool)) =>
    (k.1.1, k.2.1, Nat.min k.1.2.2.1 k.2.2.2.1, k.1.2.2.2.2 || k.2.2.2.2.2)

/-- EUIs of the neighbours of a node in the view. -/
def viewAdj (rs : List Report) (a : Nat) : List Nat :=
  (rs.map Report.eui).filter fun b => a != b && !(linksOf rs (min a b) (max a b)).isEmpty

/-- The parent of a node in the tree of root ports: the neighbour nearest to the root, of those the least EUI. -/
def viewParent (rs : List Report) (dist : SMap Nat) (a : Nat) : Option Nat :=
  let d := SMap.get 255 dist a
  leastPort ((viewAdj rs a).filter fun b => SMap.get 255 dist b + 1 == d)

/-- Preorder walk, children in ascending EUI. -/
def walk (children : Nat → List Nat) : Nat → Nat → List Nat
  | 0, _ => []
  | fuel + 1, n => n :: (children n).flatMap (walk children fuel)

/-- Addresses in walk order (R372 step 4): pins first, then the lowest free address. -/
def giveAddresses (pin : Nat → Nat) (order : List Nat) : List (Nat × Nat) :=
  let pinned := order.foldl (fun (r : List (Nat × Nat)) n =>
    let p := pin n
    if 1 ≤ p ∧ p ≤ 0xFFF ∧ (r.any fun x => x.2 == p) = false then r ++ [(n, p)] else r) []
  let all := order.foldl (fun (r : List (Nat × Nat)) n =>
    if pinned.any fun x => x.1 == n then r
    else
      let used := (pinned ++ r).map fun x => x.2
      match (List.range 4095).find? fun i => !used.contains (i + 1) with
      | some i => r ++ [(n, i + 1)]
      | none => r) []
  order.filterMap fun n => (pinned ++ all).find? fun x => x.1 == n

/-- The map that the root builds from its view (R372 steps 4 and 5). -/
def Mach.buildMap (m : Mach) : FabMap :=
  let own := m.rd E.FAB_EUI
  let rs := m.tree.reports.filter fun r => r.eui == own || m.member r.eui
  let dist := bfs (viewAdj rs) 64 0 [own] [(own, 0)]
  let children := fun n => ((rs.map Report.eui).filter fun k => viewParent rs dist k == some n).foldr (insertBy fun e => (e, 0)) []
  let order := walk children 64 own
  let pin := fun n => match rs.find? fun r => r.eui == n with | some r => r.pin | none => 0
  let nodes := giveAddresses pin order
  let addr := fun n => match nodes.find? fun x => x.1 == n with | some x => x.2 | none => 0
  let pairs := nodes.flatMap fun a => (nodes.filter fun b => decide (a.1 < b.1)).map fun b => (a.1, b.1)
  { nodes := nodes
    links := pairs.flatMap fun q => (linksOf rs q.1 q.2).map fun l =>
      { a := addr q.1, aPort := l.1, b := addr q.2, bPort := l.2.1, net := l.2.2.1, dovetail := l.2.2.2 } }

/-- A MAP as bytes (notes/assumptions/17.md). -/
def FabMap.bytes (g : FabMap) : Bytes :=
  leBytes 2 g.nodes.length ++ leBytes 2 g.links.length ++ (g.nodes.flatMap fun n => leBytes 8 n.1 ++ leBytes 2 n.2) ++
    g.links.flatMap fun l => leBytes 2 l.a ++ leBytes 1 l.aPort ++ leBytes 2 l.b ++ leBytes 1 l.bPort ++ leBytes 4 l.net ++
      leBytes 1 (bn l.dovetail)

/-- Read `n` nodes. -/
def readNodes : Nat → Bytes → List (Nat × Nat)
  | 0, _ => []
  | n + 1, b => (leAt b 0 8, leAt b 8 2) :: readNodes n (b.drop 10)

/-- Read `n` links. -/
def readLinks : Nat → Bytes → List FabLink
  | 0, _ => []
  | n + 1, b => { a := leAt b 0 2, aPort := leAt b 2 1, b := leAt b 3 2, bPort := leAt b 5 1, net := leAt b 6 4,
                  dovetail := bitOf (leAt b 10 1) 0 } :: readLinks n (b.drop 11)

/-- Read a MAP. -/
def readMap (b : Bytes) : FabMap :=
  let n := Nat.min (leAt b 0 2) (b.length / 10)
  let l := Nat.min (leAt b 2 2) (b.length / 11)
  { nodes := readNodes n (b.drop 4), links := readLinks l (b.drop (4 + 10 * n)) }

/-- Cut bytes into pieces of at most `k`. -/
def cutBytes (k : Nat) : Nat → Bytes → List Bytes
  | 0, _ => []
  | n + 1, b => if b.length ≤ k then [b] else b.take k :: cutBytes k n (b.drop k)

/-- The remote streams with a context. -/
def Mach.remotes (m : Mach) : List Nat :=
  (m.streams.map Prod.fst).filter fun s => m.hasContext s && Terms.remote (m.force s)

/-- ROUTE_TABLE, ROUTE_HOPS and the up links of the map in force (R373, R374). -/
def Mach.showRoutes (m : Mach) : Mach :=
  let g := m.fabMap
  let dep := g.depths g.root
  let own := m.fabAddr
  let r := g.nodes.foldl (fun (r : Bytes × Bytes) n =>
    match g.routeOf dep own n.2 with
    | some q => (putBytes r.1 n.2 (leBytes 1 q.1), putBytes r.2 n.2 (leBytes 1 q.2))
    | none => r) (List.replicate 4096 0xFF, zeros 4096)
  let m := (m.wrB E.ROUTE_TABLE 0 r.1).wrB E.ROUTE_HOPS 0 r.2
  m.each (List.range 96) fun p m =>
    let up := (g.adj own).any fun x => x.2.1 == p && isUp dep own x.1
    m.wr E.LINK_INFO p (m.rd E.LINK_INFO p / 4 * 4 + bn up * 2 + m.rd E.LINK_INFO p % 2)

/-- Install a map (R372 step 6, R375): holds off the new routes go. Where the route of an admitted remote stream or a rate on it changes, every
contract is re-forecast, and streams that moved reserve their route anew; where only routes of SUSPENDED ones change, those of reason 2 are
retried (R131). -/
def Mach.installMap (m : Mach) (epoch : Nat) (g : FabMap) : Mach :=
  let before := m.remotes.map fun s => (s, m.pathOf (Terms.sourceNode (m.force s)), m.routeRates (Terms.sourceNode (m.force s)))
  let own := (g.nodes.find? fun n => n.1 == m.rd E.FAB_EUI).map fun n => n.2
  let addr := own.getD 0
  let pin := m.rd E.FAB_ADDR_PIN
  let m := { m with fabMap := g, tree.parts := [], tree.total := 0, tree.epoch := epoch }
  let m := m.wr E.FAB_ADDR 0 (addr + bn (pin != 0 && pin != addr) * 65536)
  let m := (m.wr E.MAP_STATE 0 (epoch % 2 ^ 32 + g.nodes.length % 65536 * 2 ^ 32)).showTree
  let m := (m.inc E.MAPS_INSTALLED 0).showRoutes
  let moved := (before.filter fun x => m.pathOf (Terms.sourceNode (m.force x.1)) != x.2.1 && (m.strm x.1).admitted).map fun x => x.1
  let rates := before.filter fun x => m.routeRates (Terms.sourceNode (m.force x.1)) != x.2.2 || m.pathOf (Terms.sourceNode (m.force x.1)) != x.2.1
  let m := m.each moved fun s m => m.setStrm s { m.strm s with routeLost := some m.ns }
  let m := { m with holds := m.holds.filter fun h => h.outPort == 96 || m.routeFor h.node h.to_ == some h.outPort }.showReserved
  if rates.isEmpty then m
  else if rates.all fun x => !(m.strm x.1).admitted then m.retryAll
  else m.reforecast.each moved fun s m => if (m.strm s).admitted then m.askRoute s else m

/-- Send MAP frames down the child ports (R372 step 5): epoch, then a piece of the map. -/
def Mach.sendMap (m : Mach) (epoch : Nat) (g : FabMap) : Mach :=
  let b := g.bytes
  let l := cutBytes 2072 (b.length / 2072 + 1) b
  m.each m.childPorts fun p m =>
    l.zipIdx.foldl (fun m x => m.sendNeighbour p 3 0x04 x.2 l.length (leBytes 4 epoch ++ x.1)) m

/-- MAP_WALK (R372 steps 4 to 6): at the root. -/
def execMapWalk (s : State) : Host.Outcome State Fault Refusal :=
  s.onMach true fun m =>
    m.when (decide (4 ≤ m.rd E.MODULE_STATE) && m.tree.rootPort.isNone) fun m =>
      let m := if m.tree.sent.isNone then m.elect else m
      let g := m.buildMap
      let epoch := (m.rd E.MAP_STATE % 2 ^ 32 + 1) % 2 ^ 32
      (m.sendMap epoch g).installMap epoch g

/-- A MAP frame (R372 steps 3, 5 and 6). One without payload is the request for reports (notes/assumptions/17.md). -/
def Mach.onMap (m : Mach) (p : Nat) (f : FabMsg) : Mach :=
  let pass := fun (m : Mach) =>
    let on := m.childPorts.filter fun q => q != p
    if 15 ≤ f.hops ∧ on.isEmpty = false then m.inc E.ROUTE_DROPS p else m.each on fun q m => m.queueFrame q { f with into := none }
  if f.payload.length < 4 then (pass m).sendReport
  else if m.tree.rootPort ≠ some p then m
  else
    let epoch := leAt f.payload 0 4
    if epoch = m.rd E.MAP_STATE % 2 ^ 32 then m
    else
      let t := m.tree
      let fresh := t.epoch != epoch || t.total != f.argB
      let parts := SMap.put f.argA (f.payload.drop 4) (if fresh then [] else t.parts)
      let m := pass { m with tree := { t with epoch := epoch, total := f.argB, parts := parts } }
      if (List.range f.argB).all fun i => parts.any fun x => x.1 == i then
        m.installMap epoch (readMap ((List.range f.argB).flatMap fun i => SMap.get [] parts i))
      else m

/-- A LINK_REPORT on port `p` (R372 step 3); its next hop would be its sixteenth no more (R375). -/
def Mach.onReport (m : Mach) (p : Nat) (f : FabMsg) : Mach :=
  match m.tree.rootPort with
  | none => m.viewReport (readReport f.payload)
  | some q => if 15 ≤ f.hops then m.inc E.ROUTE_DROPS p else m.queueFrame q { f with into := none }

/-! ### The checks of R387 -/

/-- The committed hold of a flow that enters this node by a port (R380, R381). -/
def Mach.flowHold (m : Mach) (p : Nat) (f : FabMsg) : Option Hold :=
  m.holds.find? fun h => h.committed && h.inPort == p && h.node == f.src && h.flow == f.flow

/-- Charge a frame of a flow to its bucket (R381): 1.25 × D, two lines deep. -/
def Mach.chargeFlow (m : Mach) (h : Hold) (n : Nat) : Bool × Mach :=
  let depth := 2 * h.line * 10 ^ 11
  let fill := Nat.min depth (h.fill + h.d * 15625 * (m.ns - h.fillAt))
  let cost := n * 10 ^ 11
  let put := fun (v : Nat) => { m with holds := m.holds.map fun (k : Hold) => if k = h then { k with fill := v, fillAt := m.ns } else k }
  if cost ≤ fill then (true, put (fill - cost)) else (false, put fill)

/-- Charge a TC1 or TC3 frame to its ingress bucket (R376). -/
def Mach.chargeClass (m : Mach) (p tc n : Nat) : Bool × Mach :=
  let x := m.fport p
  let net := m.rd E.NET_RATE p
  let cost := n * 10 ^ 11
  if tc = 1 then
    let fill := Nat.min (8192 * 10 ^ 11) (x.fill1 + net * 250 * (m.ns - x.fill1At))
    let ok := decide (cost ≤ fill)
    (ok, m.setFport p { x with fill1 := if ok then fill - cost else fill, fill1At := m.ns })
  else if tc = 3 then
    let fill := Nat.min (16384 * 10 ^ 11) (x.fill3 + net * 625 * (m.ns - x.fill3At))
    let ok := decide (cost ≤ fill)
    (ok, m.setFport p { x with fill3 := if ok then fill - cost else fill, fill3At := m.ns })
  else (true, m)

/-- A pair frame from the node at the other end of a port flagged for Dovetail use (R387 check 7). -/
def Mach.pairFrame (m : Mach) (p : Nat) (f : FabMsg) : Bool :=
  decide (0x60 ≤ f.kind ∧ f.kind ≤ 0x6F) && m.xlinkPorts.contains p &&
    (f.src == 0xFFFF || f.src == m.rd E.LINK_INFO p / 65536)

/-- Check 5 (R370). -/
def Mach.srcKnown (m : Mach) (f : FabMsg) : Bool :=
  (f.src == 0xFFFF || m.fabMap.nodes.any fun n => n.2 == f.src) &&
    (m.fabAddr != 0 || [0x01, 0x02, 0x03, 0x04, 0x10].contains f.kind)

/-- The frame is for this node (R370). -/
def Mach.forUs (m : Mach) (f : FabMsg) : Bool :=
  f.dst == 0xFFFF || (f.dst == 0 && f.kind == 0x03) || (f.dst != 0 && f.dst == m.fabAddr)

/-- Check 6 (R375): the port by which a frame goes on. -/
def Mach.onward (m : Mach) (f : FabMsg) : Option Nat :=
  match m.routeFor f.src f.dst with
  | none => none
  | some q => if 15 ≤ f.hops ∨ (f.down ∧ bitOf (m.rd E.LINK_INFO q) 1) then none else some q

/-- A check has failed: the frame is discarded and counted, and its units are freed. -/
def Mach.discard (m : Mach) (p : Nat) (f : FabMsg) (e : Entry) : Option FabMsg × Mach := (none, (m.freeUnits p f).inc e p)

/-- Checks 4 to 8 of R387 on a frame that has taken its units. Answers the frame when it is for this node. -/
def Mach.judgeFrame (m : Mach) (p : Nat) (b : Bytes) (f : FabMsg) : Option FabMsg × Mach :=
  if frameCrc b = false then m.discard p f E.FAB_CRC_ERRORS
  else if m.srcKnown f = false then m.discard p f E.FOREIGN_SRC
  else
    let go := if m.forUs f then some 96 else m.onward f
    match go with
    | none => m.discard p f E.ROUTE_DROPS
    | some q =>
      let flow : Option (Bool × Mach) := if f.tc = 2 ∧ m.pairFrame p f = false then
          (m.flowHold p f).map fun h => m.chargeFlow h f.length
        else some (true, m)
      match flow with
      | none => m.discard p f E.TC2_POLICED
      | some (false, m) => m.discard p f E.TC2_POLICED
      | some (true, m) =>
        match m.chargeClass p f.tc f.length with
        | (false, m) => m.discard p f E.CLASS_POLICED
        | (true, m) =>
          if q = 96 then (some f, m.freeUnits p f)
          else if f.kind = 0x41 ∨ (f.kind = 0x43) then (some f, m.freeUnits p f)
          else (none, m.queueFrame q { f with into := if f.tc < 5 then some p else none })

/-- A credit overrun (R387 check 3): 16 in 1 ms fault the port. -/
def Mach.overrun (m : Mach) (p : Nat) : Mach :=
  let l := ((m.fport p).overruns.filter fun t => decide (m.ns < t + 1000000)) ++ [m.ns]
  let m := (m.setFport p { m.fport p with overruns := l }).inc E.CREDIT_OVERRUNS p
  if 16 ≤ l.length then m.fabFault p 3 else m

/-- Reception of a frame on a fabric port under R387: a frame for this node is answered. A port below ALIGNED receives
none; one that is FAULTED takes HELLO alone, and the units of any other frame are free again at once (R386). -/
def Mach.receiveFrame (m : Mach) (p : Nat) (b : Bytes) (damaged : Bool) : Option FabMsg × Mach :=
  let m := m.setPort p { m.port p with rx := (m.port p).rx.eraseP fun k => k.bytes == b }
  let st := m.rd E.PORT_STATE p
  if m.fabricUp p = false then (none, m)
  else
    let m := m.inc E.FRAMES_IN p
    if b.length < 28 then (none, m.inc E.FRAMING_ERRORS p)
    else if damaged ∨ frameHcrc b = false then (none, m.inc E.FAB_HCRC_ERRORS p)
    else if frameFits b = false then (none, m.inc E.FRAMING_ERRORS p)
    else if frameValid b = false then (none, m.inc E.FAB_BAD_FRAMES p)
    else
      let f := readFrame b
      let x := m.fport p
      if f.tc < 5 ∧ classUnits f.tc < unitsOver x.got x.told f.tc + f.cost then (none, m.overrun p)
      else
        let m := if f.tc < 5 then m.setFport p { x with got := addUnits x.got f.tc f.cost } else m
        if st = 7 ∧ f.kind ≠ 0x01 then (none, m.freeUnits p f) else m.judgeFrame p b f

/-! ### Routes of remote streams (R379, R380) -/

/-- Read terms in the layout of `Terms.bytes`. -/
def readTerms (b : Bytes) : Terms :=
  (contractFields.foldl (fun (r : List Nat × Bytes) e => (r.1 ++ [leAt r.2 0 e.ty.bytes], r.2.drop e.ty.bytes)) ([], b)).1

/-- Bytes of `Terms.bytes`. -/
def termsLength : Nat := contractFields.foldl (fun r e => r + e.ty.bytes) 0

/-- Bytes of a line as it travels in frames of at most 2,048 bytes of it (R382). -/
def Terms.wireLine (t : Terms) : Nat := t.lb + 64 * cdiv t.lb 2048

/-- Answer a reservation (notes/assumptions/17.md): verdict, reason in ARG_B [7:0], refusing node in [31:16]. -/
def Mach.answerReserve (m : Mach) (to_ num reason addr : Nat) : Mach := (m.sendTo to_ 3 0x42 num (reason + addr * 65536) []).2

/-- Hold D on an output port for a flow, or refuse with reason 0x11 (R380 step 3). -/
def Mach.holdOn (m : Mach) (h : Hold) : Option Mach :=
  let n := { m with holds := m.holds ++ [h] }
  if 10 * n.heldOn h.outPort (fun _ => true) ≤ 8 * m.rd E.NET_RATE h.outPort then some n else none

/-- Drop a forward entry: its squall ends with it (R78, R379). -/
def Mach.dropFwd (m : Mach) (k : Nat) : Mach :=
  let x := m.fwds.get {} k
  (({ m with fwds := SMap.del k m.fwds }.wr E.FWD_STATE k 0).wr E.FWD_FLOW k 0).portFollow x.port

/-- A node on the route, the source node among them, holds the reservation and passes it on, or answers (R380). The node
before the processing node answers that every hold is made (notes/assumptions/17.md). -/
def Mach.passReserve (m : Mach) (f : FabMsg) (inPort src dst : Nat) : Mach :=
  let t := readTerms f.payload
  let refuse := fun (m : Mach) =>
    let m := (m.fwds.filter fun x => x.2.state == 1 && src == m.fabAddr && x.2.node == dst && x.2.verdict == f.argA).foldl (fun m x => m.dropFwd x.1) m
    m.answerReserve dst f.argA 0x11 m.fabAddr
  match m.routeFor src dst with
  | none => refuse m
  | some q =>
    match m.holdOn { node := src, flow := t.flow, to_ := dst, verdict := f.argA, outPort := q, inPort := inPort, d := f.argB, want := f.argB, line := t.wireLine } with
    | none => refuse m
    | some m =>
      let last := (m.fabMap.adj m.fabAddr).any fun x => x.2.1 == q && x.1 == dst
      if last then m.answerReserve dst f.argA 0 0
      else if src = m.fabAddr then (m.sendTo dst 3 0x41 f.argA f.argB f.payload).2
      else m.queueFrame q { f with into := none }

/-- The first check that fails on the source node (R380 step 2): 0x01, 0x02 or 0x10, or 0, for a forward entry `x`. -/
def Mach.reserveReason (m : Mach) (t : Terms) (from_ : Nat) (x : Fwd) : Nat :=
  if m.cameraPort t.port = false then 0x01
  else if ((m.admittedBut 256).any fun c => c.sets.any fun l => !Terms.remote l.terms && Terms.port l.terms == t.port && Terms.vc l.terms == t.vc) ∨
      (m.fwds.any fun x => x.2.state != 0 && x.2.port == t.port && x.2.vc == t.vc && x.2.node != from_) then 0x02
  else if (m.tightPort (m.admittedBut 256) (m.forwards ++ [x])).isSome then 0x10
  else 0

/-- The lowest free forward entry. -/
def Mach.freeFwd (m : Mach) : Option Nat := (List.range 256).find? fun k => (m.fwds.get {} k).state == 0

/-- RESERVE at the source node (R379, R380 step 2). One with the verdict number of a committed entry gives its position channel anew (R237,
notes/assumptions/17.md). A full forward table refuses like full lanes (notes/assumptions/33.md). -/
def Mach.onReserve (m : Mach) (f : FabMsg) : Mach :=
  if f.payload.length < termsLength then m
  else
    let t := readTerms f.payload
    match m.fwds.find? fun x => x.2.state == 2 && x.2.node == f.src && x.2.flow == t.flow && x.2.verdict == f.argA with
    | some (k, x) => { m with fwds := SMap.set {} m.fwds k { x with posSrc := leAt f.payload termsLength 1 } }
    | none =>
    let x : Fwd := { state := 1, port := t.port, vc := t.vc, node := f.src, flow := t.flow, terms := t, d := f.argB, verdict := f.argA,
                     posSrc := leAt f.payload termsLength 1 }
    let why := m.reserveReason t f.src x
    match why, m.freeFwd with
    | 0, some k =>
      let m := ({ m with fwds := SMap.set {} m.fwds k x }.wr E.FWD_STATE k 1).wr E.FWD_FLOW k (t.flow + f.src * 65536)
      m.passReserve f 96 m.fabAddr f.src
    | 0, none => m.answerReserve f.src f.argA 0x10 m.fabAddr
    | w, _ => m.answerReserve f.src f.argA w m.fabAddr

/-- RESERVE_HOP at a node on the route (R380 step 3). -/
def Mach.onReserveHop (m : Mach) (p : Nat) (f : FabMsg) : Mach :=
  if f.payload.length < termsLength ∨ f.dst = m.fabAddr then m else m.passReserve f p f.src f.dst

/-- The port by which a remote stream's frames enter this node. -/
def Mach.entryPort (m : Mach) (src : Nat) : Nat :=
  match (m.pathOf src).bind fun l => l.getLast? with
  | some l => if l.b = m.fabAddr then l.bPort else l.aPort
  | none => 96

/-- RESERVE_ANSWER at the processing node (R380 step 4). -/
def Mach.onReserveAnswer (m : Mach) (f : FabMsg) : Mach :=
  match m.verdicts with
  | [] => m
  | v :: vs =>
    let t : Terms := v.terms
    let why := f.argB % 256
    if v.num ≠ f.argA ∨ v.route ≠ 1 then m
    else if why = 0 then
      { m with verdicts := { v with route := 2 } :: vs, holds := m.holds ++
          [{ node := t.sourceNode, flow := t.flow, to_ := m.fabAddr, verdict := v.num, outPort := 96, inPort := m.entryPort t.sourceNode,
             d := t.d, want := t.d, line := t.wireLine }] }
    else { m with verdicts := { v with route := 3, routeWhy := (why, detailOf 5 (if why = 0x11 then f.argB / 65536 else t.sourceNode)) } :: vs }

/-- RESERVE_ANSWER_TIMEOUT (R380 step 4). -/
def execReserveAnswerTimeout (k : Nat) (s : State) : Host.Outcome State Fault Refusal :=
  s.onMach (k < 256) fun m =>
    match m.verdicts with
    | [] => m
    | v :: vs => m.when (v.stream == k && v.route == 1) fun m =>
        { m with verdicts := { v with route := 3, routeWhy := (0x12, detailOf 5 (Terms.sourceNode v.terms)) } :: vs }

/-- RELEASE on the source node's forward entries (R379, R380). A committed entry of the same flow gives its place; its D counts until the
commit comes again (R129). The bucket of a flow is full from the commit of its first entry on, and stays as it is over a change: DESIGN CHOICE
(notes/assumptions/58.md). -/
def Mach.settleFwds (m : Mach) (to_ : Nat) (t : Terms) (num commit : Nat) : Mach :=
  let mine := m.fwds.filter fun x => x.2.state != 0 && x.2.node == to_ && x.2.flow == t.flow
  if num = 0 then mine.foldl (fun m x => m.dropFwd x.1) m
  else if commit = 1 then
    match mine.find? fun x => x.2.verdict == num with
    | none => m
    | some (k, x) =>
      if x.state = 2 then { m with fwds := SMap.set {} m.fwds k { x with d := Terms.d x.terms } }
      else
      let old := mine.find? fun y => y.2.state == 2
      let m := match old with | some y => m.dropFwd y.1 | none => m
      let rx := match old with
        | some y => y.2.rx
        | none => ({} : Rx).fillBucket t.rxCfg m.now
      { m with fwds := SMap.set {} m.fwds k { x with state := 2, rx := rx, posSrc := (old.map fun (y : Nat × Fwd) => y.2.posSrc).getD x.posSrc, d := maxOf (x.d :: (old.map fun (y : Nat × Fwd) => y.2.d).toList) } }.wr E.FWD_STATE k 2
  else (mine.filter fun x => x.2.state == 1 && x.2.verdict == num).foldl (fun m x => m.dropFwd x.1) m

/-- RELEASE (R380): at the source node, which sends it along the route, and at each node of the route. -/
def Mach.onRelease (m : Mach) (f : FabMsg) : Mach :=
  if f.payload.length < termsLength then m
  else
    let t := readTerms f.payload
    if f.dst = m.fabAddr ∧ t.sourceNode = m.fabAddr then
      let m := (m.settleFwds f.src t f.argA f.argB).settleHolds m.fabAddr t.flow f.src f.argA f.argB
      (m.sendTo f.src 3 0x43 f.argA f.argB f.payload).2
    else if f.dst = m.fabAddr then m
    else
      let m := if f.src = t.sourceNode then m.settleHolds f.src t.flow f.dst f.argA f.argB else m
      match m.routeFor f.src f.dst with
      | some q => m.queueFrame q { f with into := none }
      | none => m

/-- HOLD_EXPIRY (R380): the tentative holds of a flow of a source node on a port, and on the source node its tentative
entries. -/
def execHoldExpiry (p flow node : Nat) (s : State) : Host.Outcome State Fault Refusal :=
  s.onMach (p < 96) fun m =>
    let hit := fun (h : Hold) => !h.committed && h.node == node && h.flow == flow && (h.outPort == p || h.inPort == p)
    m.when (m.holds.any hit) fun m =>
      let m := { m with holds := m.holds.filter fun h => !hit h }.showReserved
      if node = m.fabAddr then (m.fwds.filter fun x => x.2.state == 1 && x.2.flow == flow).foldl (fun m x => m.dropFwd x.1) m else m

/-! ### Lines of a remote stream (R382) -/

/-- The stream that a flow of a source node feeds. -/
def Mach.flowStream (m : Mach) (src flow : Nat) : Option Nat :=
  m.remotes.find? fun s => (m.strm s).admitted && Terms.sourceNode (m.force s) == src && Terms.flow (m.force s) == flow

/-- A line that came over the fabric, from what its frames brought. -/
def farLine (c : RxCfg) (a : LineAsm) (missing : Bool) (arr : TW64) : LineOut :=
  let short := decide (a.pixels.length < c.lb)
  { frame := a.frame, line := a.line, tag := a.tag, time := a.time, pos := a.pos, missing := missing, refused := a.refused,
    damaged := !missing && (a.damaged || short), arr := arr,
    pixels := if missing then [] else
      unpackBits c.bits c.width ((a.pixels ++ List.replicate (c.lb - a.pixels.length) 0).map fun v => BitVec.ofNat 8 v) }

/-- Fill lines lost on the fabric (R102, R382): the source node's bucket has been charged for them. -/
def farFill (c : RxCfg) (t base : TW64) : Nat → Rx → Rx × List RxOut
  | 0, x => (x, [])
  | n + 1, x =>
    let r := ({ x with bucket := c.depth, bucketT := t.toNat / 256 } : Rx).fillOne c t base
    let q := farFill c t base n r.1
    (q.1, r.2 ++ q.2)

/-- A line of a remote stream is finished: lines before it that never came are written as missing (R102, R382). -/
def Rx.farLine (x : Rx) (c : RxCfg) (l : LineOut) : Rx × List RxOut :=
  let x := if x.started then x else { x with started := true, frame := l.frame, line := l.line }
  let n := c.lines x.frame x.line l.frame l.line
  if n < 0 then (x, [.outOfOrder])
  else
    let r := if 1024 < n then ({ x with lastT := none, prevT := none, gap := 0 }, [RxOut.resync l.arr])
      else Machine.farFill c l.arr (l.time - BitVec.ofNat 64 (n.toNat + 1) * x.delta c) n.toNat x
    let x := r.1
    let nx := c.after l.frame l.line
    let x := { x with frame := nx.1, line := nx.2, lineTag := l.tag, frameTag := l.tag, absent := x.absent && l.missing }
    let x := if l.missing then { x with gap := x.gap + 1 }
      else { x with prevT := if x.gap = 0 then x.lastT else none, lastT := some l.time, lastPos := l.pos, gap := 0 }
    (x, r.2 ++ (if l.missing ∧ l.refused = false then [RxOut.missing] else []) ++ [.line l])

/-- Hand a finished line of a remote stream to its ring; a received one ends an absence (R104). Lines that the source node's bucket has refused
put the stream into no squall here: DESIGN CHOICE (notes/assumptions/58.md). -/
def giveFar (s : Nat) (c : RxCfg) (l : LineOut) (h : Memory) (m : Mach) : Memory × Mach :=
  let r := (m.strm s).rx.farLine c l
  let m := m.setStrm s { m.strm s with rx := r.1 }
  let hm := applyRx s r.2 (h, m)
  (hm.1, hm.2.showPolice s)

/-- The line under assembly ends without its last fragment: its ARRIVAL is its own (R382). -/
def endFar (s : Nat) (c : RxCfg) (h : Memory) (m : Mach) : Memory × Mach :=
  match (m.strm s).far with
  | none => (h, m)
  | some a =>
    let m := m.setStrm s { m.strm s with far := none }
    giveFar s c (farLine c { a with damaged := true } false a.arr) h m

/-- A LINE frame (R382). -/
def onLine (f : FabMsg) (h : Memory) (m : Mach) : Memory × Mach :=
  match m.flowStream f.src f.flow with
  | none => (h, m)
  | some s =>
    if m.cstate s ≠ cRUNNING ∨ (m.strm s).enabled = false ∨ f.payload.length < 32 then (h, m)
    else
      let c := Terms.rxCfg (m.rxTerms s)
      let time : TW64 := BitVec.ofNat 64 (leAt f.payload 0 8)
      let arr : TW64 := BitVec.ofNat 64 (leAt f.payload 8 8)
      let frame := leAt f.payload 20 4
      let line := leAt f.payload 24 4
      let part := (f.payload.drop 32).map BitVec.toNat
      let last := bitOf f.argA 16
      let missing := bitOf f.argA 17
      let same : Bool := match (m.strm s).far with | some a => a.frame == frame && a.line == line | none => false
      let (h, m) := if same then (h, m) else endFar s c h m
      let a : LineAsm := (m.strm s).far.getD
        { frame := frame, line := line, tag := f.argA % 65536, time := time, pos := leAt f.payload 16 4, pixels := [],
          refused := bitOf f.argA 19, fseq := f.fseq, arr := arr }
      let gap := same && a.fseq != f.fseq || f.argB != a.pixels.length
      let px := a.pixels.take f.argB
      let px := px ++ List.replicate (Nat.min f.argB c.lb - px.length) 0 ++ part
      let a : LineAsm := { a with pixels := px.take c.lb, damaged := a.damaged || gap || bitOf f.argA 18, fseq := (f.fseq + 1) % 2 ^ 32 }
      if last then
        let m := m.setStrm s { m.strm s with far := none }
        giveFar s c (farLine c a missing arr) h m
      else (h, m.setStrm s { m.strm s with far := some a })

/-- A SET_NOTICE (R383): the slot is created or bound as for a local port. A notice that finds no slot free creates none
(notes/assumptions/20.md). -/
def Mach.onSetNotice (m : Mach) (f : FabMsg) : Mach :=
  match m.flowStream f.src f.flow with
  | none => m
  | some s =>
    if f.payload.length < 16 then m
    else
      let tag := f.argA / 65536
      let row := (leAt f.payload 0 4, leAt f.payload 4 4)
      match f.argA % 256 with
      | 1 =>
        match (m.strm s).makeRoom (m.echoes (m.strm s).cur) with
        | none => m
        | some x =>
          let m := m.setStrm s x
          m.addSlot s (if m.echoes x.cur then { tag := tag, write := true, fromRow := some row } else { tag := tag, write := true, pend := some row })
      | 2 => m.bindExec s tag row.1 row.2
      | 3 => m.bindFailed s tag
      | _ => m

/-! ### Imported events (R311, R384) -/

/-- An EVENT frame. -/
def Mach.onEvent (m : Mach) (f : FabMsg) : Mach :=
  let ch := f.argA % 256
  if f.payload.length < 16 then m
  else if bitOf (leAt (m.rdB E.FAB_EVENT_ACCEPT) (ch / 8) 1) (ch % 8) = false then m.inc E.IMPORTS_REFUSED 0
  else
    m.publish { ch := ch, gen := bitsOf (leAt f.payload 0 4) 10 8 + 1, src := 9 * 4096 + f.src % 4096, data := leAt f.payload 4 4,
                stamp := BitVec.ofNat 64 (leAt f.payload 8 8) }

end Sys2Proof.Machine
end

