-- ==== Sys2Proof/Machine/Time.lean ====
section
/-! DEFINITION. Time: changes of offset and rate (R289, R290), the era (R287), network time (R292 to R294), PPS and PTM
(R296 to R298), time events (R299); the sending of fabric frames (R376), for a SYNC is stamped as it leaves; and the
configuration of hub tasks (R310). -/

namespace Sys2Proof.Machine

/-! ### Events and changes (R287, R289, R299) -/

/-- The era changes (R287, R485): it is written to the Almanac, and its generation moves on. -/
def Mach.setEra (m : Mach) (era : Nat) : Mach :=
  let e := era % 65536
  if m.rd E.ERA = e then m else ((m.wr E.ERA 0 e).inc E.ALMANAC_GEN 0).record 8 [e]

/-- Publish a time event at an instant (R299). -/
def Mach.timeEventAt (m : Mach) (code : Nat) (t : TW64) : Mach := m.produce 10 0 (m.rd E.TIME_EC) code t

/-- Publish a time event now. -/
def Mach.timeEvent (m : Mach) (code : Nat) : Mach := m.timeEventAt code m.now

/-- A step has taken the time from `old` to `new` (R287, R290): counted, recorded and published; the era follows a wrap. -/
def Mach.stepped (m : Mach) (old new step : TW64) : Mach :=
  let m := (({ m with time.high := new.msb }.inc E.STEPS 0).wr E.LAST_STEP 0 step.toNat).timeEventAt 1 new
  let up := decide (0 < step.toInt)
  if up ∧ old.msb ∧ new.msb = false then (m.setEra (m.rd E.ERA + 1)).timeEventAt 5 new
  else if up = false ∧ old.msb = false ∧ new.msb then m.setEra (m.rd E.ERA + 65535)
  else m

/-- Install a change as of its anchor (R289). -/
def Mach.install (m : Mach) (c : TimeChange) : Mach :=
  let old := twAt (m.rd E.OFS) (m.rd E.RATE) (m.rd E.LTC_ANCHOR) c.anchor
  let new := m.changeOfs c
  let m := ((({ m with time.change := none }.wr E.OFS 0 new.toNat).wr E.RATE 0 c.rate).wr E.LTC_ANCHOR 0 c.anchor)
  if c.step = 0 then m else m.stepped old new c.step

/-- A change whose anchor is reached stands in the entries (R289). -/
def Mach.settled (m : Mach) : Mach :=
  match m.time.change with
  | some c => if m.due c then m.install c else m
  | none => m

/-- TIME_CHANGE_APPLY (R289): at the anchor and not before. -/
def execTimeChangeApply (s : State) : Host.Outcome State Fault Refusal := s.onMach true Mach.settled

/-- The anchor at which a change applies (R289): at least 64 ticks ahead. -/
def Mach.anchorFor (m : Mach) (a : Nat) : Nat :=
  if (BitVec.ofNat 64 a - m.ltc).toInt < 64 then (m.ltc + 64).toNat else a

/-- Issue a change of host software or of the servo. -/
def Mach.issue (m : Mach) (anchor : Nat) (step : TW64) (rate : Nat) (host : Bool) : Mach :=
  { m with time.change := some { anchor := anchor, step := step, rate := rate, host := host } }

/-- The module is grandmaster (R294). -/
def Mach.isGm (m : Mach) : Bool := m.rd E.GM_EUI == m.rd E.MODULE_EUI

/-- TIME_CMD 1 (R290): without effect while a change is pending (R289). -/
def execTimeCmdInstall (path : Nat) (s : State) : Host.Outcome State Fault Refusal :=
  s.onMach (path < 5) fun m =>
    let m := m.settled
    m.command path 0x5010 5 [1] (m.rd E.TIME_SOURCE == 0 && m.isGm && m.time.change.isNone) fun m =>
      m.issue (m.anchorFor (m.rd E.NEXT_ANCHOR)) (BitVec.ofNat 64 (m.rd E.NEXT_STEP)) (m.rd E.NEXT_RATE) true

/-- TIME_CMD 2 (R290): NEXT_STEP = TIME_SET − T_old(NEXT_ANCHOR), with RATE kept. -/
def execTimeCmdSet (path : Nat) (s : State) : Host.Outcome State Fault Refusal :=
  s.onMach (path < 5) fun m =>
    let m := m.settled
    m.command path 0x5010 5 [2] (m.isGm && m.time.change.isNone) fun m =>
      let a := m.rd E.NEXT_ANCHOR
      let step := BitVec.ofNat 64 (m.rd E.TIME_SET) - m.twOf a
      (m.wr E.NEXT_STEP 0 step.toNat).issue (m.anchorFor a) step (m.rd E.RATE) true

/-- ERA_INCREMENT (R287): once for each passage of TW64 from bit 63 set to bit 63 clear. -/
def execEraIncrement (s : State) : Host.Outcome State Fault Refusal :=
  s.onMach true fun m => m.when (m.time.high && !m.now.msb) fun m => ({ m with time.high := false }.setEra (m.rd E.ERA + 1)).timeEvent 5

/-! ### The choice of a grandmaster (R291, R294) -/

/-- The class that the node offers; 0 where it is no candidate (R294). -/
def Mach.ownClass (m : Mach) : Nat :=
  match m.rd E.TIME_SOURCE with
  | 0 => 3
  | 1 => if m.rd E.PPS_IN_VALID = 1 then 1 else 0
  | 3 => if m.time.ptmOk then 2 else 0
  | _ => 0

/-- Nanoseconds of 3 SYNC_PERIOD. -/
def Mach.threePeriods (m : Mach) : Nat := 3 * m.rd E.SYNC_PERIOD * 1000

/-- Rank of candidates: class, priority, EUI (R294). -/
def gmBetter (a b : Nat × Nat × Nat) : Bool :=
  decide (a.1 < b.1) || (a.1 == b.1 && (decide (a.2.1 < b.2.1) || (a.2.1 == b.2.1 && decide (a.2.2 < b.2.2))))

/-- The grandmasters announced within the last 3 SYNC_PERIOD (R294). -/
def Mach.announcedNow (m : Mach) : List Announced := m.time.announced.filter fun a => decide (m.ns < a.at_ + m.threePeriods)

/-- The best candidate and the ANNOUNCE of the parent port, none for the node itself (R294). -/
def Mach.bestGm (m : Mach) : Option ((Nat × Nat × Nat) × Option Announced) :=
  let rank := fun (a : Announced) => (a.cls, a.priority, a.eui)
  let l := m.announcedNow
  let own := if m.ownClass = 0 then none else some (m.ownClass, m.rd E.TIME_PRIORITY, m.rd E.MODULE_EUI)
  let best := l.foldl (fun (r : Option (Nat × Nat × Nat)) a => match r with
    | some x => if gmBetter (rank a) x then some (rank a) else r
    | none => some (rank a)) own
  match best with
  | none => none
  | some b =>
    if own = some b then some (b, none)
    else
      let near := l.filter fun a => rank a == b
      let p := near.foldl (fun (r : Option Announced) a => match r with
        | some x => if a.hops < x.hops ∨ (a.hops = x.hops ∧ a.port < x.port) then some a else r
        | none => some a) none
      some (b, p)

/-- Put TIME_STATE, publishing an entry to LOCKED or HOLDOVER (R291). -/
def Mach.timeState (m : Mach) (st : Nat) : Mach :=
  if m.rd E.TIME_STATE = st then m
  else
    let m := m.wr E.TIME_STATE 0 st
    if st = 2 ∨ st = 3 then m.timeEvent st else m

/-- Choose the grandmaster and the parent port again (R291, R294). -/
def Mach.chooseGm (m : Mach) : Mach :=
  let oldGm := m.rd E.GM_EUI
  let oldPort := m.rd E.PARENT_PORT
  let follow := fun (gm hops port : Nat) (m : Mach) =>
    let m := ((m.wr E.GM_EUI 0 gm).wr E.GM_HOPS 0 hops).wr E.PARENT_PORT 0 port
    let m := if port = oldPort then m else { m with time.i := 0, time.child := none, time.parentAt := m.ns }
    if oldGm ≠ 0 ∧ gm ≠ 0 ∧ oldGm ≠ gm then m.timeEvent 4 else m
  match m.bestGm with
  | none =>
    let m := follow 0 0 0xFF m
    if m.rd E.TIME_STATE = 0 then m else m.timeState 3
  | some (_, none) =>
    let m := follow (m.rd E.MODULE_EUI) 0 0xFF m
    if m.rd E.TIME_SOURCE = 0 then { m with time.good := 0 }.timeState 2
    else if m.rd E.TIME_STATE = 0 ∨ m.rd E.TIME_STATE = 3 then { m with time.good := 0 }.timeState 1
    else if m.time.good < 8 then m.timeState 1
    else m
  | some (b, some a) =>
    let own := oldGm == m.rd E.MODULE_EUI
    let m := follow b.2.2 (a.hops + 1) a.port m
    if m.rd E.TIME_STATE = 0 ∨ m.rd E.TIME_STATE = 3 ∨ (own ∧ m.time.good < 8) then { m with time.good := 0 }.timeState 1 else m

/-! ### The servo (R289, R291, R293) -/

/-- The servo's rate for an offset and its integrator (R293). -/
def servoRate (limit : Nat) (o i ts : Int) : Nat :=
  let adj := -(asr o 2 + asr i 6)
  let nom : Int := (RATE_NOM : Int)
  let w := Int.fdiv (nom * (limit : Int)) 1000000
  (clampInt (nom + Int.fdiv (nom * adj) ts) (nom - w) (nom + w)).toNat

/-- The servo runs on an offset, once each `ts` (R293): without effect while a host change is pending (R289). -/
def Mach.servo (m : Mach) (o ts : Int) : Mach :=
  let m := m.settled
  if m.time.change.any fun c => c.host then m
  else
    let m := m.wrI E.OFFSET_LAST 0 o
    let good := if o.natAbs ≤ m.rd E.LOCK_LIMIT * 256 then Nat.min 8 (m.time.good + 1) else 0
    let m := { m with time.good := good }.timeState (if good = 8 then 2 else 1)
    let a := (m.ltc + 64).toNat
    if m.rd E.STEP_LIMIT * 256 < o.natAbs then
      { m with time.i := 0 }.issue a (BitVec.ofInt 64 (-o)) (m.rd E.RATE) false
    else
      let i := signedOf 64 (patternOf 64 (m.time.i + o))
      { m with time.i := i }.issue a 0 (servoRate (m.rd E.RATE_LIMIT) o i ts) false

/-! ### Messages (R292) -/

/-- Payload of a time message (R292). -/
def timePayload (kind seq hops cls priority era eui : Nat) (stamp : TW64) : Bytes :=
  leBytes 4 (kind + seq % 256 * 2 ^ 8 + hops % 32 * 2 ^ 16 + cls * 2 ^ 24) ++ leBytes 4 (priority + era * 2 ^ 16) ++ leBytes 8 eui ++
    leBytes 8 stamp.toNat ++ zeros 8

/-- Send a time message on a port. -/
def Mach.sendTime (m : Mach) (p : Nat) (b : Bytes) : Mach := m.sendNeighbour p 0 0x10 0 0 b

/-- The ports on which time travels: fabric ports at LINKED or above (R292). -/
def Mach.timePorts (m : Mach) : List Nat := (List.range 96).filter fun p => m.isFabricPort p && m.rd E.PORT_STATE p == 4

/-- The node's ANNOUNCE; none while it knows no grandmaster (notes/assumptions/30.md). -/
def Mach.announce (m : Mach) : Option Bytes :=
  m.bestGm.map fun b => timePayload 1 0 (m.rd E.GM_HOPS) b.1.1 b.1.2.1 (m.rd E.ERA) b.1.2.2 0

/-- SYNC_PERIOD (R292): an ANNOUNCE on every port but the parent port, and a SYNC to each child, which is a node on a port
by which no grandmaster is announced (notes/assumptions/30.md). -/
def execSyncPeriod (s : State) : Host.Outcome State Fault Refusal :=
  s.onMach true fun m =>
    match m.announce with
    | none => m
    | some b =>
      let l := m.timePorts.filter fun p => p != m.rd E.PARENT_PORT
      let seq := m.time.seq
      let m := { m with time.seq := (seq + 1) % 256 }
      m.each l fun p m =>
        let m := m.sendTime p b
        if m.announcedNow.any fun a => a.port == p then m else m.sendTime p (timePayload 2 seq 0 0 0 0 0 0)

/-- An ANNOUNCE (R287, R294): one of 31 hops is not taken. -/
def Mach.onAnnounce (m : Mach) (p : Nat) (b : Bytes) : Mach :=
  let w0 := leAt b 0 4
  let a : Announced := { port := p, cls := bitsOf w0 31 24, priority := leAt b 4 1, eui := leAt b 8 8, hops := bitsOf w0 20 16,
                         era := leAt b 6 2, at_ := m.ns }
  if a.hops = 31 then m
  else
    let m := { m with time.announced := (m.announcedNow.filter fun (x : Announced) => !(x.port == p && x.eui == a.eui)) ++ [a] }.chooseGm
    if m.rd E.PARENT_PORT = p ∧ m.rd E.GM_EUI = a.eui then m.setEra a.era else m

/-- The child discards its exchange as a sync miss (R292). -/
def Mach.missSync (m : Mach) (p : Nat) : Mach := { m with time.child := none }.inc E.SYNC_MISSES p

/-- The exchange with the parent that a message of a SEQ continues; a SEQ that does not match ends it (R292). -/
def Mach.continue_ (m : Mach) (p seq : Nat) (f : Exchange → Mach) : Mach :=
  match m.time.child with
  | none => m
  | some x => if x.port ≠ p then m else if x.seq = seq then f x else m.missSync p

/-- A SYNC from the parent, arrived at t2 (R292). -/
def Mach.onSync (m : Mach) (p : Nat) (b : Bytes) (t2 : TW64) : Mach :=
  if m.rd E.PARENT_PORT ≠ p then m
  else
    let m := if m.time.child.isSome then m.missSync p else m
    { m with time.child := some { port := p, seq := leAt b 1 1, t2 := t2, at_ := m.ns } }

/-- A FOLLOW_UP (R292): the child's DELAY_REQ is queued. -/
def Mach.onFollowUp (m : Mach) (p : Nat) (b : Bytes) : Mach :=
  m.continue_ p (leAt b 1 1) fun x =>
    { m with time.child := some { x with t1 := some (BitVec.ofNat 64 (leAt b 16 8)) } }.sendTime p
      (timePayload 4 x.seq 0 0 0 0 0 0)

/-- A DELAY_REQ, arrived at t4 (R292). -/
def Mach.onDelayReq (m : Mach) (p : Nat) (b : Bytes) (t4 : TW64) : Mach := m.sendTime p (timePayload 5 (leAt b 1 1) 0 0 0 0 0 t4)

/-- A DELAY_RESP (R292, R293): the exchange is complete and the servo runs. -/
def Mach.onDelayResp (m : Mach) (p : Nat) (b : Bytes) : Mach :=
  m.continue_ p (leAt b 1 1) fun x =>
    match x.t1, x.t3 with
    | some t1, some t3 =>
      let t4 : TW64 := BitVec.ofNat 64 (leAt b 16 8)
      let u := twDiff x.t2 t1
      let v := twDiff t4 t3
      let m := { m with time.child := none, time.parentAt := m.ns }.wr E.FAB_LINK_DELAY p (patternOf 32 (asr (u + v) 1))
      m.servo (asr (u - v) 1 - m.rdI E.FAB_ASYM_CORR p) (m.rd E.SYNC_PERIOD * 256000 : Nat)
    | _, _ => m.missSync p

/-- A TIME frame (R292), whose stamp at the reference symbol is `t`. -/
def Mach.onTime (m : Mach) (p : Nat) (f : FabMsg) (t : TW64) : Mach :=
  let b := f.payload
  if b.length ≠ 32 then m
  else match leAt b 0 1 with
    | 1 => m.onAnnounce p b
    | 2 => m.onSync p b t
    | 3 => m.onFollowUp p b
    | 4 => m.onDelayReq p b t
    | 5 => m.onDelayResp p b
    | _ => m

/-- An announcement is 3 SYNC_PERIOD old (R294). -/
def Mach.aged (m : Mach) (a : Announced) : Bool := decide (a.at_ + m.threePeriods ≤ m.ns)

/-- ANNOUNCE_AGEOUT (R294): a grandmaster whose announcements are 3 SYNC_PERIOD old is no candidate any more. -/
def execAnnounceAgeout (eui : Nat) (s : State) : Host.Outcome State Fault Refusal :=
  s.onMach true fun m =>
    m.when (m.time.announced.any fun a => a.eui == eui && m.aged a) fun m =>
      { m with time.announced := m.time.announced.filter fun a => !(a.eui == eui && m.aged a) }.chooseGm

/-- 200 µs after t1 (R292), which the child tells from the arrival of SYNC (notes/assumptions/30.md). -/
def Mach.exchangeOver (m : Mach) (x : Exchange) : Bool := decide (x.at_ + 200000 ≤ m.ns)

/-- SYNC_EXCHANGE_TIMEOUT (R292). -/
def execSyncExchangeTimeout (p : Nat) (s : State) : Host.Outcome State Fault Refusal :=
  s.onMach (p < 96) fun m => m.when (m.time.child.any fun x => x.port == p && m.exchangeOver x) fun m => m.missSync p

/-- PARENT_TIMEOUT (R294): 3 SYNC_PERIOD without a complete exchange, the node drops that parent and chooses again. -/
def execParentTimeout (s : State) : Host.Outcome State Fault Refusal :=
  s.onMach true fun m =>
    m.when (m.rd E.PARENT_PORT != 0xFF && decide (m.time.parentAt + m.threePeriods ≤ m.ns)) fun m =>
      { m with time.announced := m.time.announced.filter fun a => a.port != m.rd E.PARENT_PORT }.chooseGm

/-- A time message leaves on a port now (R292): after a SYNC, stamped t1, its FOLLOW_UP is queued; a DELAY_REQ of the exchange that
runs is stamped t3. -/
def Mach.timeSent (m : Mach) (p : Nat) (b : Bytes) : Mach :=
  let seq := leAt b 1 1
  match leAt b 0 1, m.time.child with
  | 2, _ => m.sendTime p (timePayload 3 seq 0 0 0 0 0 m.now)
  | 4, some x => if x.port = p ∧ x.seq = seq then { m with time.child := some { x with t3 := some m.now } } else m
  | _, _ => m

/-- FABRIC_FRAME_SEND (R376, R377). -/
def execFabricFrameSend (p : Nat) (s : State) : Host.Outcome State Fault Refusal :=
  s.onMach (p < 96) fun m =>
    match m.nextFrame p with
    | none => m
    | some f => (m.sendFrame p f).when (f.kind == 0x10) fun m => m.timeSent p f.payload

/-! ### PPS and PTM (R296 to R298) -/

/-- PPS_IN becomes valid or invalid (R296). -/
def Mach.ppsValid (m : Mach) (v : Bool) : Mach :=
  if m.rd E.PPS_IN_VALID = bn v then m else ((m.wr E.PPS_IN_VALID 0 (bn v)).timeEvent (if v then 7 else 6)).chooseGm

/-- The offset of a PPS edge (R296). -/
def ppsOffset (t : TW64) (corr : Int) : Int :=
  let x : Int := (t.toNat : Int) - corr * 256
  x - rdiv x 256000000000 * 256000000000

/-- PPS_IN_EDGE (R296): an edge of the direction that the entry PPS_IN_EDGE makes active; the other has no effect (R300). -/
def execPpsInEdge (rising : Bool) (t : TW64) (s : State) : Host.Outcome State Fault Refusal :=
  s.onMach true fun m =>
    m.when (decide (3 ≤ m.rd E.MODULE_STATE) && rising == (m.rd E.PPS_IN_EDGE == 0)) fun m =>
      let tick := m.tickOf t
      let good : Bool := match m.time.ppsAt with
        | some a => decide (absd (absd tick a) 1400000000 ≤ 1400)
        | none => false
      let run := if good then Nat.min 3 (m.time.ppsRun + 1) else 1
      let m := { m with time.ppsAt := some tick, time.ppsRun := run }.wr E.PPS_IN_LAST 0 t.toNat
      let m := if run = 3 then m.ppsValid true else if good then m else m.ppsValid false
      if m.rd E.TIME_SOURCE = 1 ∧ m.rd E.PPS_IN_VALID = 1 then m.servo (ppsOffset t (m.rdI E.PPS_IN_OFFSET)) 256000000000 else m

/-- PPS_IN_GAP (R296): more than 1,400,002,000 ticks after the last active edge. -/
def execPpsInGap (s : State) : Host.Outcome State Fault Refusal :=
  s.onMach true fun m =>
    m.when (m.time.ppsAt.any fun a => decide (a + 1400002000 < m.ltc.toNat)) fun m =>
      { m with time.ppsAt := none, time.ppsRun := 0 }.ppsValid false

/-- This is the first I/O cycle at or after a whole second plus PPS_OUT_OFFSET: the one before it, 4 ticks ago, lay before that instant (R297). -/
def Mach.ppsOutDue (m : Mach) : Bool :=
  m.ltc.toNat % 4 == 0 &&
    decide (((m.now.toNat : Int) - m.rdI E.PPS_OUT_OFFSET * 256) % 256000000000 < twDiff m.now (m.twOf (m.ltc.toNat - 4)))

/-- PPS_OUT_RISE (R297): at the first I/O cycle at or after a whole second plus PPS_OUT_OFFSET. -/
def execPpsOutRise (s : State) : Host.Outcome State Fault Refusal :=
  s.onMach true fun m =>
    m.when (m.rd E.PPS_OUT_WIDTH != 0 && m.ioOn && m.time.ppsOut.isNone && m.ppsOutDue) fun m =>
      { m with time.ppsOut := some m.ltc.toNat }.emit (.ppsOut true m.now)

/-- PPS_OUT_FALL (R297): once PPS_OUT has been high for PPS_OUT_WIDTH. -/
def execPpsOutFall (s : State) : Host.Outcome State Fault Refusal :=
  s.onMach true fun m =>
    m.when (m.time.ppsOut.any fun a => decide (m.rd E.PPS_OUT_WIDTH * 7000 ≤ (m.ltc.toNat - a) * 5)) fun m =>
      { m with time.ppsOut := none }.emit (.ppsOut false m.now)

/-- PTM_ENABLE has been written (R294, R298): no dialog runs while it is 0, and none succeeds. -/
def Mach.ptmEnabled (m : Mach) : Mach := { m with time.ptmOk := m.time.ptmOk && m.rd E.PTM_ENABLE == 1 }.chooseGm

/-- PTM_DIALOG (R298). -/
def execPtmDialog (s : State) : Host.Outcome State Fault Refusal :=
  s.onMach true fun m => m.when (m.rd E.PTM_ENABLE == 1 && !m.time.ptmRun) fun m => { m with time.ptmRun := true }.emit .ptm

/-- PTM_DIALOG_DONE (R298). -/
def execPtmDialogDone (ok : Bool) (h : Nat) (t : TW64) (s : State) : Host.Outcome State Fault Refusal :=
  s.onMach true fun m =>
    m.when m.time.ptmRun fun m =>
      let m := { m with time.ptmRun := false, time.ptmOk := ok && m.rd E.PTM_ENABLE == 1 }
      let m := if ok then (m.wr E.PTM_HOST_TIME 0 h).wr E.PTM_TW64 0 t.toNat else m.inc E.PTM_FAILS 0
      if m.rd E.TIME_SOURCE = 3 then
        let m := m.chooseGm
        if ok then m.servo (twDiff t (BitVec.ofNat 64 (256 * h))) (m.rd E.PTM_PERIOD * 256000000 : Nat) else m
      else m

/-! ### Hub tasks (R302, R310) -/

/-- SW_PUBLISH (R302). -/
def execSwPublish (path : Nat) (data : Bytes) (s : State) : Host.Outcome State Fault Refusal :=
  s.onMach (path < 5) fun m =>
    let a := E.SW_PUBLISH.at 0
    m.command path a.1 a.2 data true fun m =>
      let c := m.convert E.SW_PUBLISH 0 data
      (m.tallyIf path a.1 a.2 c.kind data).swPublish c.val.toNat

/-- The channels that a task's slots name. -/
def Mach.slotChannels (m : Mach) (t : Nat) : List Nat := [m.rd E.SLOT0 t, m.rd E.SLOT1 t].filter fun c => decide (c < 256)

/-- An enabled RELAY task (R310). -/
def Mach.relayOn (m : Mach) (t : Nat) : Bool := m.rd E.TASK_ENABLE t == 1 && m.rd E.TASK_KIND t == 2

/-- The channels reached from a set over the enabled RELAY tasks. -/
def Mach.reached (m : Mach) : Nat → List Nat → List Nat
  | 0, l => l
  | n + 1, l =>
    let more := ((List.range 256).filter fun t => m.relayOn t && (m.slotChannels t).any l.contains).map fun t => m.rd E.TASK_PARAM t % 256
    let l' := more.foldl (fun r c => insertNat c r) l
    if l'.length = l.length then l else m.reached n l'

/-- The graph of R310 has a cycle through the task. -/
def Mach.loops (m : Mach) (t : Nat) : Bool :=
  m.relayOn t && (let r := m.reached 256 [m.rd E.TASK_PARAM t % 256]; (m.slotChannels t).any r.contains)

/-- TASK_ENABLE of the task is forced to 0 (R310). -/
def Mach.refuseLoop (m : Mach) (t : Nat) : Mach :=
  ((m.wr E.TASK_ENABLE t 0).wr E.TASK_FLAGS t (putBit (m.rd E.TASK_FLAGS t) 0 true)).inc E.LOOPS_REFUSED 0

/-- Store a value of a task's configuration under the check of R310. -/
def Mach.putTask (m : Mach) (path : Nat) (e : Entry) (t : Nat) (data : Bytes) : Mach :=
  let v := (m.legal e t (m.convert e t data).val).val
  let n := (boundedBy e t).foldl (fun m x => m.again path x.1 x.2) ((m.setVal e t v).tookEffect e t)
  if n.loops t then (n.refuseLoop t).tallyE path e t 8 data
  else
    let m := m.putEntry path e t data
    if e = E.TASK_ENABLE ∧ m.rd E.TASK_ENABLE t = 1 then m.wr E.TASK_FLAGS t (putBit (m.rd E.TASK_FLAGS t) 0 false) else m

/-- The entries under the check of R310. -/
def loopEntries : List Entry := [E.TASK_KIND, E.TASK_PARAM, E.TASK_ENABLE, E.SLOT0, E.SLOT1]

/-- A write of one of them. -/
def Mach.writeTask (m : Mach) (path : Nat) (e : Entry) (t : Nat) (data : Bytes) : Mach :=
  let a := e.at t
  m.command path a.1 a.2 data true fun m => m.putTask path e t data

/-- TASK_CONFIG_WRITE (R310). -/
def execTaskConfigWrite (path t sub : Nat) (data : Bytes) (s : State) : Host.Outcome State Fault Refusal :=
  s.onMach (path < 5 ∧ t < 256 ∧ loopEntries.any fun e => e.sub == sub) fun m =>
    match loopEntries.find? fun e => e.sub == sub with
    | some e => m.writeTask path e t data
    | none => m

end Sys2Proof.Machine
end

