-- ==== Sys2Proof/Machine/Roles.lean ====
section
/-! DEFINITION. The interlock and the roles of a pair: authority as it falls and rises (R395, R413), OWN (R396 to R400), the
table of R417, SYNCING and BARRED (R418, R419), release and takeover (R399, R413, R414). -/

namespace Sys2Proof.Machine

/-! ### Authority (R262, R278, R395) -/

/-- AUTH falls (R395): no memory request leaves, writes not sent are discarded and counted, channels are held, and a
recovery of the engine ends; dividers hold their output (R253), and no trigger that waits leaves (R262). -/
def Mach.authLost (m : Mach) : Mach :=
  let r := m.discardWrites
  let m := (r.2.inc E.RELEASE_DISCARDS 0 r.1).holdChannels.endRecovery
  let m := m.each (List.range 8) fun n m => m.setPosc n { m.posc n with q := 0 }
  let m := m.each (List.range 96) fun p m => m.barTriggers p
  m.each (List.range 8) fun v m => m.showVport v

/-- AUTH rises (R253, R262, R278, R413 steps 1, 2 and 4): held triggers leave, pins are driven as sequencers and dividers
stand, and channels resume. -/
def Mach.authGained (m : Mach) : Mach :=
  let m := { m with pair.authAt := some m.ltc.toNat, ep.pba := m.ep.pba.filter (fun k => !m.ep.muted.contains k), ep.muted := [] }.sendHeld
  let m := m.each (List.range 32) fun i m => m.showPulses i m.now
  let m := m.each (List.range 8) fun n m =>
    if m.divOn n then
      let ph := (m.posc n).phase
      let i := m.rd E.DIV_PIN n
      (m.drive i (ph == 1 || ph == 2) m.now).drive (i + 1) (ph == 2 || ph == 3) m.now
    else m
  (m.each (List.range 8) fun v m => m.showVport v).resume

/-- A change of what the gate of R395 reads, with what follows from it. -/
def Mach.underGate (m : Mach) (f : Mach → Mach) : Mach :=
  let n := f m
  if m.auth ∧ n.auth = false then n.authLost else if m.auth = false ∧ n.auth then n.authGained else n

/-! ### Roles and module states (R467) -/

/-- The module stands in a state that a trial must reach (R481). -/
def Mach.isUp (m : Mach) : Bool := let st := m.rd E.MODULE_STATE; st == 4 || st == 5 || st == 7

/-- A trial in progress has brought the module up (R481): the first instant counts. -/
def Mach.trialReached (m : Mach) : Mach :=
  if m.life.trial.isSome ∧ m.life.trialUp.isNone ∧ m.isUp then { m with life.trialUp := some m.ns } else m

/-- The module state changes (R467): recorded, and the condition of cause 8 of R124 has changed where it does. -/
def Mach.setModState (m : Mach) (st : Nat) : Mach :=
  if m.rd E.MODULE_STATE = st then m
  else
    let was := m.readyOrActive
    let m := ((m.wr E.MODULE_STATE 0 st).record 6 [st]).trialReached
    if was = m.readyOrActive then m else { m with fail8 := some m.ns }

/-- The module state of a role (R467). -/
def roleState (role : Nat) : Nat :=
  match role with | 1 => 7 | 2 => 5 | 5 => 5 | 3 => 6 | 4 => 9 | _ => 4

/-- The role changes, and the module state with it while the module is past WAKING and not draining. -/
def Mach.setRole (m : Mach) (role : Nat) : Mach :=
  let m := m.wr E.PAIR_ROLE 0 role
  let st := m.rd E.MODULE_STATE
  let m := if 4 ≤ st ∧ st ≠ 8 then m.setModState (roleState role) else m
  if m.readyOrActive then m.resume else m.holdChannels

/-! ### OWN (R394, R396, R397) -/

/-- The module drives its OWN line, or no longer drives it. -/
def Mach.driveOwn (m : Mach) (v : Bool) : Mach :=
  if m.flagOn 2 = v then m else (m.underGate fun m => m.flag 2 v).emit (.own v)

/-- FRESH clears (R396): the driver is disabled. -/
def Mach.clearFresh (m : Mach) : Mach := ({ m with pair.want := false }.flag 0 false).driveOwn false

/-- What arms the keepalive timer holds (R396): no island in recovery but the host island for its data link alone, the Bench's cores in
lockstep, no uncorrectable memory error pending, supply and junction temperature within limits. -/
def Mach.keptAlive (m : Mach) : Bool :=
  !m.pair.broken && !m.life.outRange && !m.life.hot &&
    (List.range 0x36).all fun i => m.rd E.ISLAND_STATE i != 2 || (i == 0x31 && !m.life.hostFault)

/-- The health monitor arms an expired keepalive timer again where it may (R396). -/
def Mach.rearm (m : Mach) : Mach := if m.pair.expired ∧ m.keptAlive then { m with pair.expired := false } else m

/-- The module may assert OWN (R390, R396, R397). -/
def Mach.mayOwn (m : Mach) : Bool :=
  m.paired && m.flagOn 0 && m.role != 4 && !m.pair.expired && m.pair.guardDone && !m.flagOn 3 && !m.flagOn 8 && !m.flagOn 7 && m.pair.clash.isNone

/-- Ownership is taken: counted (R422, R489). -/
def Mach.ownTaken (m : Mach) : Mach := { ((m.inc E.TAKEOVERS 0).inc E.SWITCHOVERS 0) with pair.want := false }

/-- Assert OWN where the module is to and may (R397, R417 rows 1 and 5): it is then ACTIVE. -/
def Mach.tryOwn (m : Mach) : Mach := if m.pair.want ∧ m.mayOwn then (m.ownTaken.setRole 1).driveOwn true else m

/-! ### The table of R417, SYNCING, BARRED -/

/-- Everything of the standby's delivery and comparison is dropped (notes/assumptions/31.md). -/
def Mach.forgetPair (m : Mach) : Mach :=
  let m := m.each (m.chans.map Prod.fst) fun c m => m.setChan c { m.chan c with queue := [], issued := [], alloc := (m.chan c).hw }
  let m := m.each (m.streams.map Prod.fst) fun s m => m.setStrm s { m.strm s with delivs := [], digests := [], posRx := [] }
  { m with pair.log := [], pair.updates := [], pair.markAt := none }

/-- Entry to SYNCING (R396, R418): FRESH clears, and SYNC_DATA is awaited from its beginning. -/
def Mach.enterSyncing (m : Mach) (pull : Bool) : Mach :=
  let m := m.clearFresh.forgetPair
  let m := { m with pair.pull := pull, pair.syncBytes := [], pair.awaitStart := [], pair.awaitStripe := [], pair.awaitDigest := [],
                    pair.syncMark := false, pair.synced := false }
  (m.setRole 3).wr E.SYNC_PROGRESS 0 0

/-- Entry to BARRED (R412, R418, R419, R470, R475). -/
def Mach.bar (m : Mach) : Mach := (m.clearFresh.setRole 4).pairEvent 8 0

/-- CONFIG_CRC (R403): CRC-32C over every persistent pair-wide value, numbers at their width. -/
def Mach.configCrc (m : Mach) : Nat :=
  let keys := (entryTable.filter fun e => e.persist).flatMap fun e =>
    (List.range (e.count * e.subs)).filterMap fun k =>
      let a := e.at k
      if pairWide a.1 a.2 then some (e.key k, e, k) else none
  let sorted := keys.foldl (fun (r : SMap (Entry × Nat)) x => SMap.put x.1 x.2 r) []
  crc32c (sorted.flatMap fun x => match m.val x.2.1 x.2.2 with | .num n => leBytes x.2.1.ty.bytes n | .bytes b => b)

/-- The fields of the partner's PAIR_STATE (R402). -/
def pairWord (b : Bytes) (i : Nat) : Nat := leAt b (4 * i) 4

/-- The module is stale (R417). -/
def Mach.stale (m : Mach) (b : Bytes) : Bool :=
  let epoch := leAt b 4 8
  decide (m.rd E.ALMANAC_GEN < pairWord b 4) || decide (m.rd E.CONFIG_EPOCH < epoch) ||
    (m.rd E.CONFIG_EPOCH == epoch && m.configCrc != pairWord b 3 && !m.slotA)

/-- The first row of R417 that holds. Under row 5 the module waits in PAIR_ROLE 5 until it asserts OWN (notes/assumptions/34.md). -/
def Mach.joinPair (m : Mach) : Mach :=
  let own := fun (m : Mach) (role : Nat) => ({ m with pair.want := true }.flag 0 true).setRole role |>.tryOwn
  if m.pair.presLine = false ∧ m.pair.presSeen = false then own (m.flag 9 true) 1
  else match m.pair.partner with
    | none => m.clearFresh.setRole 5
    | some b =>
      if pairWord b 0 % 8 = 1 then m.enterSyncing (m.rd E.CONFIG_EPOCH != leAt b 4 8 || m.configCrc != pairWord b 3)
      else if m.stale b then m.enterSyncing true
      else own m 5

/-- A module that drives OWN reads its partner's OWN asserted without OVERRIDE (R397): slot B releases and applies R417, and so does
a module whose own line has failed (R420). -/
def Mach.settleClash (m : Mach) : Mach :=
  if m.paired ∧ m.flagOn 2 ∧ m.flagOn 3 ∧ m.flagOn 6 = false ∧ (m.slotA = false ∨ m.flagOn 7) then
    { m.driveOwn false with pair.clash := some m.ns }.joinPair
  else m

/-! ### Release (R399) -/

/-- Release OWN for a reason and take a role, 0 for the present one (R399, R413 step 5). -/
def Mach.release (m : Mach) (reason role : Nat) : Mach :=
  let m := (((m.wr E.LAST_SWITCH_REASON 0 reason).inc E.RELEASES 0).inc E.SWITCHOVERS 0).pairEvent 2 reason
  let m := ({ m with pair.want := false }.driveOwn false).record 6 [0x100 + reason]
  if role = 0 then m else m.setRole role

/-- Field of the partner's last PAIR_STATE, 0 before the first. -/
def Mach.partnerWord (m : Mach) (i : Nat) : Nat := match m.pair.partner with | some b => pairWord b i | none => 0

/-- The partner is STANDBY. -/
def Mach.partnerStandby (m : Mach) : Bool := m.xlinkUp && m.partnerWord 0 % 8 == 2

/-- Reasons 3 to 7: the partner is STANDBY, the mask allows the reason, and SWITCH_HOLDOFF has passed (R399). -/
def Mach.maySwitch (m : Mach) (reason : Nat) : Bool :=
  m.role == 1 && m.flagOn 2 && m.partnerStandby && bitOf (m.rd E.SWITCH_MASK) (reason - 3) &&
    (match m.pair.switchAt with | some a => decide (a + m.rd E.SWITCH_HOLDOFF * 1000000 ≤ m.ns) | none => true)

/-- A switch of reasons 3 to 7. -/
def Mach.switch_ (m : Mach) (reason : Nat) : Mach := { m with pair.switchAt := some m.ns }.release reason 2

/-! ### Takeover (R400, R413, R414) -/

/-- What a channel delivers under a new active (R413 steps 3 and 4, R414). -/
def Mach.takeChannel (m : Mach) (c : Nat) : Mach :=
  let x := m.chan c
  let es := m.pair.log.filter fun e => e.chan == c && !seqLess e.seq x.commit
  let live := es.filter fun e => !e.dropped
  let unitOf := fun (e : LogUnit) =>
    let w := leAt e.entry 0 4
    let blank : Unit := { kind := bitsOf w 11 8, stream := bitsOf w 23 16, deliv := 2 ^ 32, data := [], key := leAt e.entry 12 8,
                          awaited := bitsOf w 11 8 != 7, readyAt := m.ns }
    let u := (x.queue.find? fun u => u.seq == some e.seq).getD blank
    { u.afresh with seq := some e.seq, logged := true, data := m.loggedBytes u e.body, at_ := some (leAt e.entry 20 8, leAt e.entry 28 4 % 2 ^ 25) }
  let queue := ((x.queue.filter fun u => u.seq.isSome && !(es.any fun e => u.seq == some e.seq)) ++ live.map unitOf ++
    x.queue.filter fun u => u.seq.isNone).map fun (u : Unit) => { u with headAt := none }
  let x := { x with queue := queue, doorbell := true, issued := [] }
  let x := match live with
    | [] => x
    | e :: _ =>
      if m.chClass c = 1 then { x with descs := [], fetch := leAt e.entry 20 8, atTail := false, off := leAt e.entry 28 4 % 2 ^ 25 }
      else { x with hw := leAt e.entry 20 8 % 2 ^ 32 }
  let x := match m.pair.decNext.find? fun k => k.1 == c with | some k => { x with hw := k.2, entries := [] } | none => x
  let m := m.setChan c { x with alloc := x.hw }
  { m with pair.log := m.pair.log.filter fun e => !(live.any fun k => k.chan == e.chan && k.seq == e.seq) }.markHead c

/-- A STANDBY module takes ownership, with AUTH at instant `t` (R400, R413). -/
def Mach.takeover (m : Mach) (t : TW64) : Mach :=
  let m := match m.pair.fall with
    | some f => (m.wr E.LAST_SWITCH_TIME 0 f.toNat).wr E.LAST_GAP 0 (twAfter t f / 256)
    | none => m
  let m := { m with pair.tookAt := some m.ns, pair.tookOver := true }.each (List.range 128) fun c m => m.takeChannel c
  let m := (m.ownTaken.setRole 1).driveOwn true
  (m.record 6 [0x200]).pairEvent 1 0

/-- The last commit mark came within XLINK_TIMEOUT (R400). -/
def Mach.markFresh (m : Mach) : Bool :=
  match m.pair.markAt with | some a => decide (m.ns ≤ a + m.rd E.XLINK_TIMEOUT * 1000) | none => false

/-- A module that is STANDBY takes ownership as soon as every condition of R400 holds. -/
def Mach.tryTakeover (m : Mach) (t : TW64) : Mach :=
  if m.role = 2 ∧ m.rd E.MODULE_STATE = 5 ∧ m.mayOwn ∧ m.markFresh then m.takeover t else m

/-- SYNCING ends (R418). -/
def Mach.checkSynced (m : Mach) : Mach :=
  (if m.role = 3 ∧ m.pair.synced ∧ m.pair.awaitStart.isEmpty ∧ m.pair.awaitStripe.isEmpty ∧ m.pair.awaitDigest.isEmpty ∧ m.pair.syncMark then
    ((({ m with pair.restarts := 0 }.flag 0 true).setRole 2).wr E.SYNC_PROGRESS 0 100)
  else m).tryTakeover m.now

/-- The partner's PAIR_STATE tells how it let go (R399): one that has become STANDBY has switched, which counts for the holdoff of the
pair, and for each of its valve ports in chain fault (notes/assumptions/34.md). -/
def Mach.afterSwitch (m : Mach) (role faults : Nat) : Mach :=
  if m.pair.tookOver = false ∨ role = 1 ∨ role = 5 then m
  else
    let m := { m with pair.tookOver := false }
    if role = 2 then
      let ports := (List.range 8).filter fun v => bitOf faults v
      { m with pair.switchAt := m.pair.tookAt
               pair.portSwitch := ports.foldl (fun r v => SMap.put v (m.pair.tookAt.getD 0) r) m.pair.portSwitch }
    else m

end Sys2Proof.Machine
end

