-- ==== Sys2Proof/Machine/Restart.lean ====
section
/-! DEFINITION. What the module loses and keeps: release of every contract (R469), islands that lose power or are reset
(R466, R475), warm restart (R475), entry to WAKING (R470), the drain toward DORMANT (R469), OFF (R468), islands in
recovery (R474, R475), and the return to the previous bank (R481). -/

namespace Sys2Proof.Machine

/-! ### Contracts and islands -/

/-- Every contract is released (R469): verdicts in progress end without an answer. -/
def Mach.releaseAll (m : Mach) : Mach :=
  let m := { m with verdicts := [], deferred := [] }
  let ss := (List.range 256).filter fun s => m.cstate s != cDRAFT
  let m := m.each (ss.filter fun s => m.cstate s == cRUNNING) fun s m => m.stopNow s
  m.each ss fun s m => m.releaseNow s

/-- An entry holds the dictionary key. -/
def Entry.holds (e : Entry) (key : Nat) : Bool :=
  let i := key / 256
  let s := key % 256
  decide (e.base ≤ i ∧ i < e.base + e.count ∧ e.sub ≤ s ∧ s < e.sub + e.subs)

/-- The entries that show what the islands other than Bench and time base hold, and the sets that are not kept (R188, R469). -/
def islandEntries : List Entry :=
  [E.LANE_STATE, E.BLK_LOCK, E.PORT_STATE, E.PORT_SKEW, E.PORT_FAULT, E.CAM_IDENTIFIED, E.CAM_IDENTITY,
   E.CAM_UPLINK, E.REG_STATUS, E.LINK_DELAY, E.TAG_UNCERTAIN, E.POLICE_STATE, E.PLANER_STATE, E.PLANER_CONTEXT, E.SET_IN_USE,
   E.BG_STATE, E.OPEN_NOW, E.NEXT_SEQ, E.FRAME_PARAMS, E.TBL_STATE, E.TBL_SIZE, E.TBL_OFFSET, E.FF_DIMS, E.DEFECT_COUNT,
   E.DEFECT_DROPPED, E.TONE_LUTS, E.COUNT, E.SPEED, E.POS_STATUS, E.SAMPLE_TIME, E.AMP_NOW, E.MG_STATE, E.MG_NEXT,
   E.SCHEDULE_USED, E.VP_STATE, E.VP_IMAGE, E.VP_FAULTS, E.IMAGE_HASH, E.TASK_FLAGS, E.FAB_ADDR, E.ROOT_INFO, E.MAP_STATE,
   E.ROUTE_TABLE, E.ROUTE_HOPS, E.FAB_PORT_FAULT, E.NEIGHBOUR, E.LINK_INFO, E.TC2_RESERVED, E.FWD_STATE, E.FWD_FLOW]

/-- The cross-link carries nothing: what the module knew of its partner over it is gone, and OVERRIDE clears (R398, R416). A pair-wide
write on its way is left to this module alone: slot A has applied it, slot B is still to (R403, notes/assumptions/34.md). -/
def Mach.forgetXlink (m : Mach) : Mach :=
  let left := if m.slotA then m.pair.orphans else m.pair.orphans ++ m.pair.wides
  { m with pair.partner := none, pair.unacked := [], pair.rxNext := none, pair.rxBeyond := [], pair.heardAt := none,
           pair.syncTo := false, pair.giveStart := [], pair.wides := [], pair.wideIn := [],
           pair.orphans := left }.underGate fun m => (m.flag 5 false).flag 6 false

/-- What stands at the contacts of the discrete pins. -/
def Mach.contacts (m : Mach) : SMap Pin :=
  (m.pins.filter fun (x : Nat × Pin) => x.2.input).map fun x => (x.1, ({ input := true } : Pin))

/-- Every island but Bench, time base and host loses what it holds. SEQ of the channels goes on (R339). -/
def Mach.clearIslands (m : Mach) : Mach :=
  let chans := m.chans.map fun x => (x.1, { x.2 with queue := [], issued := [], alloc := x.2.hw, redo := [], entries := [] })
  let m := { m with lanes := [], txLanes := [], txPorts := [], quads := [], ports := [], streams := [], verdicts := [], deferred := [], planers := [], tabs := {},
                    chans := chans.filter fun x => x.2 != ({} : Chan), ep.writes := [],
                    fports := [], fabMap := {}, fwds := [], holds := [], flowSeq := [], tree := {}, hub := [], tasks := [],
                    pins := m.contacts,
                    pos := [], readPairs := [], mgs := [], held := [], mallet := {}, vports := [],
                    dict := m.dict.filter fun x => !(islandEntries.any fun e => e.holds x.1) }
  m.forgetPair.forgetXlink.showPool.restPorts

/-- The islands other than host, time base and Bench. -/
def dataIslands : List Nat := (List.range 0x36).filter fun i => i != 0x31 && i != 0x33 && i != 0x35

/-- The CAN FD path reinitialises (R442, R443, R445): it runs while CAN_ENABLE is 1 and the I/O island has power. -/
def Mach.canInit (m : Mach) : Mach :=
  let on := m.rd E.CAN_ENABLE == 1 && decide (3 ≤ m.rd E.MODULE_STATE)
  let m := { m with can := { on := on, causes := m.can.causes, emcyAt := m.can.emcyAt } }
  ((m.wr E.NMT_STATE 0 0x7F).wr E.CAN_STATE 0 (if on then 0 else 3)).wr E.CAN_NODE_ID 0 (m.rd E.CAN_NODE_BASE + m.slotId)

/-- Tasks are restored in ascending task number under the check of R310. A refusal counts in the clamp tally with kind 8 as a write of
TASK_ENABLE by the module itself, path 4 (R435). -/
def Mach.restoreTasks (m : Mach) : Mach :=
  let on := (List.range 256).filter fun t => m.rd E.TASK_ENABLE t == 1
  let m := m.each on fun t m => m.wr E.TASK_ENABLE t 0
  m.each on fun t m =>
    let m := m.wr E.TASK_ENABLE t 1
    if m.loops t then (m.refuseLoop t).tallyE 4 E.TASK_ENABLE t 8 [1] else m

/-- WAKING from step 2 of R470: FRESH is clear (R396), islands that are not failed power up, ports are formed, and the
carrier's equalisation table is to be read (R54). -/
def Mach.wake (m : Mach) : Mach :=
  let m := { m.clearFresh with pair.broken := false, pair.lineLow := false }
  let m := m.each dataIslands fun i m =>
    if m.rd E.ISLAND_STATE i = 0 ∧ (24 ≤ i ∨ m.rd E.QUAD_ROLE i ≠ 0) then m.setIsland i 1 else m
  let m := m.each (List.range 96) fun l m => m.freeOffset l
  let m := m.restPorts.restoreTasks
  let m := (m.each (List.range 8) fun n m => m.posRestart n).pinsNamed (List.range 32)
  let m := m.each ((List.range 8).filter fun v => m.rd E.VP_ENABLE v == 1) fun v m => m.startGrid v
  { m with life.awake := true, twc.queue := if m.twc.now = some 0 ∨ m.twc.queue.contains 0 then m.twc.queue else m.twc.queue ++ [0] }.setModState 3
    |>.canInit

/-! ### Warm restart, drain, OFF -/

/-- A reset discards the accumulation buffers of every path, and each counts with kind 5 (R440). -/
def Mach.dropBuffers (m : Mach) : Mach :=
  let one := fun (path : Nat) (m : Mach) (a : Accum) => m.tally path a.index a.sub 5 a.bytes
  let m := m.mb.accum.toList.foldl (one 0) m
  let m := (m.server.accums.map Prod.snd).foldl (one 2) m
  let m := m.gw.accum.toList.foldl (one 3) m
  { m with mb.accum := none, server.accums := [], gw.accum := none }

/-- A warm restart for a cause in the codes of LAST_RESTART (R475). -/
def Mach.warmRestart (m : Mach) (code : Nat) : Mach :=
  let m := ((m.wr E.LAST_RESTART 0 code).record 6 [0x300 + code]).releaseAll
  let m := ({ m with drainTo := 0, life.removal := none }.clearFresh)
  let m := if m.ep.up then m.linkDown else m
  let m := m.clearIslands.dropBuffers
  let m := m.each dataIslands fun i m => if m.rd E.ISLAND_STATE i = 1 then m.setIsland i 0 else m
  m.wake

/-- Steps 1 to 3 of R469: the drain toward DORMANT begins. -/
def Mach.beginDrain (m : Mach) : Mach :=
  let m := m.releaseAll
  let m := m.each ((List.range 8).filter fun v => m.rd E.VP_ENABLE v == 1) fun v m => m.stopGrid v
  let m := { m.each (List.range 32) (fun k m => (m.setMg k {}).setMgState k 0) with held := [] }
  { m.clearFresh with drainTo := 1 }.setModState 8

/-- Step 5 of R469: the domains power down, and the link retrains to 2.5 GT/s x4. -/
def Mach.powerDown (m : Mach) : Mach :=
  let m := m.clearIslands.holdChannels
  let m := m.each dataIslands fun i m => if m.rd E.ISLAND_STATE i = 3 then m else m.setIsland i 0
  let m := if m.ep.up then
      (((m.wr E.LINK_RATE 0 1).wr E.LINK_WIDTH 0 4).wr E.LINK_FLIT 0 0).linkNow 1 4 (m.rd E.MPS_NOW)
    else m
  ({ m with drainTo := 0, life.awake := false }.setModState 2).canInit

/-- The entries that outlive a loss of power: counts of the Almanac, the configuration store, firmware and the fuse. -/
def keptEntries : List Entry :=
  [E.STORE_GEN, E.STORE_WRITES, E.FUSE_STATE, E.POWERED_HOURS, E.MATINGS, E.SWITCHOVERS, E.LOG_USED, E.PART_DAYS, E.PART_USED,
   E.PART_ADVICE, E.HBM_CE, E.TJ_HIST, E.ALMANAC_GEN, E.ERA, E.FW_RELEASE_A, E.FW_RELEASE_B, E.FW_ACTIVE, E.SEC_MIN]

/-- OFF (R468): what flash and the fuse hold is kept, what stands at the contacts, and, but for a removal, that the module is BARRED
(R419). The presence contact is let go (R492). -/
def powerOff (m : Mach) : Memory × Mach :=
  let m := if m.rd E.MODULE_STATE = 0 then m
    else
      let m := m.record 6 [0]
      if m.life.removal.isSome then m else m.record 5 [m.rd E.ERA, m.slotId, 1]
  let m := if m.life.supply then m.emit (.presence (m.slotId % 2) false) else m
  let barred := m.role == 4 && m.life.removal.isNone
  ([], { dict := m.dict.filter fun x => keptEntries.any (fun e => e.holds x.1) || (barred && E.PAIR_ROLE.holds x.1)
         free := m.free, slotId := m.slotId, out := m.out
         pins := m.contacts
         pair := { presLine := m.pair.presLine, ownLine := m.pair.ownLine }
         almanac := m.almanac
         life := { banks := m.life.banks, stores := m.life.stores, restore := m.life.restore, activate := m.life.activate,
                   trial := m.life.trial } })

/-! ### Firmware in trial (R481) -/

/-- A firmware bank: 0 A, 1 B. -/
def Mach.bank (m : Mach) (b : Nat) : Bank := if b = 0 then m.life.banks.1 else m.life.banks.2
/-- FW_RELEASE of a bank. -/
def releaseEntry (b : Nat) : Entry := if b = 0 then E.FW_RELEASE_A else E.FW_RELEASE_B
/-- Replace a bank: its RELEASE is word 2 of what is loaded; until that word is, it is a free value (R478, notes/assumptions/2.md). -/
def Mach.setBank (m : Mach) (b : Nat) (x : Bank) : Mach :=
  let m := { m with life.banks := if b = 0 then (x, m.life.banks.2) else (m.life.banks.1, x) }
  if x.shipped then m
  else if 12 ≤ x.bytes.length then m.wr (releaseEntry b) 0 (leAt x.bytes 8 4)
  else
    let r := m.take 32
    r.2.wr (releaseEntry b) 0 r.1
/-- Security version of a bank. -/
def Bank.sec (x : Bank) : Nat := if x.shipped then Config.factorySecurity else leAt x.bytes 16 4
/-- The boot ROM runs the bank (R479). -/
def Mach.boots (m : Mach) (b : Nat) : Bool := (m.bank b).valid && decide (m.rd E.SEC_MIN ≤ (m.bank b).sec)

/-- FW_STATE bit. -/
def Mach.fwFlag (m : Mach) (b : Nat) (v : Bool) : Mach := m.wr E.FW_STATE 0 (putBit (m.rd E.FW_STATE) b v)

/-- REVISION and SW_VERSION show the release that runs (R445). -/
def Mach.showRelease (m : Mach) : Mach :=
  let x := m.bank (m.rd E.FW_ACTIVE)
  if x.shipped then (m.toDefault E.REVISION 0).toDefault E.SW_VERSION 0
  else
    let n := leAt x.bytes 8 4
    (m.wr E.REVISION 0 (0xA2 * 2 ^ 24 + n % 2 ^ 24)).wrB E.SW_VERSION 0
      (ascii "B" ++ decText (n / 2 ^ 16 % 256) ++ ascii "." ++ decText (n / 256 % 256) ++ ascii "." ++ decText (n % 256))

/-- An activated bank goes on trial at a start (R480, R481). -/
def Mach.startTrial (m : Mach) : Mach :=
  if m.life.activate then
    let m := ({ m with life.activate := false, life.trial := some m.ns, life.trialUp := if m.isUp then some m.ns else none }.wr E.FW_ACTIVE 0 (1 - m.rd E.FW_ACTIVE))
    ((m.wr E.FW_STATE 0 0).fwFlag 3 true).record 7 [3]
  else m

/-- The boot ROM chooses a bank (R479, R480): an activated bank goes on trial, and a bank that is not valid gives way. -/
def Mach.boot (m : Mach) : Mach :=
  let m := m.startTrial
  let a := m.rd E.FW_ACTIVE
  if m.boots a then { m with life.bootless := false }.showRelease
  else if m.boots (1 - a) then
    ((({ m with life.bootless := false, life.trial := none }.wr E.FW_ACTIVE 0 (1 - a)).fwFlag 3 false).fwFlag 4 true).showRelease
  else { m with life.bootless := true }

/-- Requests in progress end as the Bench cores restart (R476): the mailbox and the gateway with result 5. A USDO transfer can only time out, and a
verdict is computed again from the start. -/
def Mach.benchLost (m : Mach) : Mach :=
  let m := match m.mb.run with
    | some r => { m with mb.run := none, mb.status := 2 + 5 * 2 ^ 8 + r.tag * 2 ^ 16 }.cause 5
    | none => m
  let m := match m.gw.run with
    | some r => { m with gw.run := none, gw.status := 2, gw.result := 5, gw.tag := r.tag, gw.endAt := m.ns }
    | none => m
  let m := { m.dropBuffers with can.waits := [], can.usdo := m.can.usdo.map fun (u : Usdo) => { u with lost := true }, server.waiting := [], pair.broken := false }
  { m with verdicts := match m.verdicts with | v :: vs => { v with own := none } :: vs | [] => [] }

/-- A trial ends without success (R481): the Bench restarts into the previous bank. -/
def Mach.trialReturn (m : Mach) : Mach :=
  if m.life.trial.isSome then
    let m := ({ m with life.trial := none, life.trialUp := none }.wr E.FW_ACTIVE 0 (1 - m.rd E.FW_ACTIVE)).fwFlag 3 false
    (((m.fwFlag 5 true).record 7 [4]).benchLost).boot
  else m

/-! ### Islands in recovery (R474, R475) -/

/-- Entries of an island into recovery within the last hour, the present one included. -/
def Mach.recoveriesOf (m : Mach) (i : Nat) : Nat :=
  (m.life.recoveries.filter fun x => x.1 == i && decide (m.ns < x.2 + 3600 * 10 ^ 9)).length

/-- The stripe in progress on a planer ends as under R155. -/
def abortPlaner (n : Nat) (h : Memory) (m : Mach) : Mach :=
  match m.running n with
  | none => m
  | some (k, p) =>
    m.endStripe n k p (p.aborted (m.runIn h k p) (p.cutIn.getD {})) (m.cyclesRun n) true

/-- A failed planer takes no context (R475): its contracts are suspended with reason 2, lose their reservations, and are
forecast again at once in ascending ADMIT_EPOCH. -/
def Mach.planerFailed (m : Mach) (n : Nat) : Mach :=
  let hit := m.byEpoch ((List.range 256).filter fun s => (m.strm s).admitted && (m.strm s).planer == n)
  let m := m.each hit fun s m => m.dropContract s { reason := 2, detail := 0, bound := 0 }
  let m := m.each hit fun s m => m.retryContract s
  m.each hit fun s m =>
    let x := m.strm s
    m.setStrm s { x with stripes := x.stripes.map fun (p : Stripe) => if p.planer = n ∧ p.started = false then { p with planer := x.planer } else p }

/-- The last of three failures (R475). -/
def Mach.islandFailed (m : Mach) (i : Nat) : Mach :=
  let m := (m.setIsland i 3).record 6 [0x500 + i]
  if i < 24 then m.quadChanged i
  else if i < 40 then m.planerFailed (i - 24)
  else m.bar

end Sys2Proof.Machine
end

