-- ==== Sys2Proof/Machine/Firmware.lean ====
section
/-! DEFINITION. A firmware image and its validity (R478, R479): SHA-384 and ECDSA over P-384, whose constants and algorithms
are those of FIPS 180-4 and FIPS 186-4 (PRESUMED, notes/assumptions/40.md). -/

namespace Sys2Proof.Machine

/-! ### SHA-384 -/

/-- The greatest root that is found bit by bit from `bits` bits: the floor of the k-th root of n. -/
def rootFloor (k n : Nat) : Nat → Nat → Nat
  | 0, r => r
  | bits + 1, r => rootFloor k n bits (if (r + 2 ^ bits) ^ k ≤ n then r + 2 ^ bits else r)

/-- The prime numbers below 410, of which there are 80. -/
def shaPrimes : List Nat :=
  (List.range 410).filter fun n => decide (2 ≤ n) && (List.range n).all fun d => decide (d < 2) || n % d != 0

/-- The first 64 bits of the fractional part of the k-th root of p. -/
def rootFraction (k p : Nat) : BitVec 64 := BitVec.ofNat 64 (rootFloor k (p * 2 ^ (64 * k)) 68 0)

/-- The constant of each round: from the cube root of its prime. -/
def shaConstants : List (BitVec 64) := shaPrimes.map (rootFraction 3)

/-- The value SHA-384 starts from: from the square roots of the 9th to the 16th prime. -/
def sha384Init : List (BitVec 64) := ((shaPrimes.drop 8).take 8).map (rootFraction 2)

/-- A word turned right by each amount of a list, all added bitwise to `rest`. -/
def shaMix (x rest : BitVec 64) (turns : List Nat) : BitVec 64 := turns.foldl (fun r n => r ^^^ x.rotateRight n) rest

/-- The big-endian number of bytes. -/
def beNat (b : Bytes) : Nat := b.foldl (fun r x => 256 * r + x.toNat) 0

/-- The word of the message schedule that follows the 16 words `w`. -/
def shaNext (w : List (BitVec 64)) : BitVec 64 :=
  let at_ := fun i => w.getD i 0
  shaMix (at_ 14) (at_ 14 >>> 6) [19, 61] + shaMix (at_ 1) (at_ 1 >>> 7) [1, 8] + at_ 0 + at_ 9

/-- One round with a constant: working words `v`, a to h in order, and the schedule's next 16 words `w`. -/
def shaRound (v w : List (BitVec 64)) (k : BitVec 64) : List (BitVec 64) :=
  let at_ := fun i => v.getD i 0
  let chosen := at_ 6 ^^^ (at_ 4 &&& (at_ 5 ^^^ at_ 6))
  let most := (at_ 0 &&& at_ 1) ||| (at_ 2 &&& (at_ 0 ||| at_ 1))
  let add := shaMix (at_ 4) 0 [14, 18, 41] + chosen + at_ 7 + w.headD 0 + k
  (add + most + shaMix (at_ 0) 0 [28, 34, 39]) :: v.take 3 ++ (at_ 3 + add) :: (v.drop 4).take 3

/-- One block of 128 bytes: every round in order, and the sum with the words before it. -/
def shaBlock (hs : List (BitVec 64)) (b : Bytes) : List (BitVec 64) :=
  let words := (List.range 16).map fun i => BitVec.ofNat 64 (beNat ((b.drop (8 * i)).take 8))
  let last := shaConstants.foldl (fun (r : List (BitVec 64) × List (BitVec 64)) k => (shaRound r.1 r.2 k, r.2.drop 1 ++ [shaNext r.2])) (hs, words)
  List.zipWith (fun x y => x + y) hs last.1

/-- Every whole block. -/
def shaBlocks : Nat → List (BitVec 64) → Bytes → List (BitVec 64)
  | 0, hs, _ => hs
  | n + 1, hs, b => shaBlocks n (shaBlock hs (b.take 128)) (b.drop 128)

/-- SHA-384 of a byte string: 48 bytes. -/
def sha384 (b : Bytes) : Bytes :=
  let pad := (b.length + 17 + 127) / 128 * 128 - b.length - 17
  let b := b ++ [0x80] ++ zeros pad ++ (leBytes 16 (8 * b.length)).reverse
  (((shaBlocks (b.length / 128) sha384Init b).take 6).map fun w => (leBytes 8 w.toNat).reverse).flatten

/-! ### ECDSA over P-384 -/

/-- The field prime. -/
def p384P : Nat := 2 ^ 384 - 2 ^ 128 - 2 ^ 96 + 2 ^ 32 - 1
/-- The order of the base point. -/
def p384N : Nat := 0xffffffffffffffffffffffffffffffffffffffffffffffffc7634d81f4372ddf581a0db248b0a77aecec196accc52973
/-- The base point. -/
def p384G : Nat × Nat :=
  (0xaa87ca22be8b05378eb1c71ef320ad746e1d3b628ba79b9859f741e082542a385502f25dbf55296c3a545e3872760ab7,
   0x3617de4a96262c6f5d9e98bf9292dc29f8f41dbd289a147ce9da3113b5f0b8c00a60b1ce1d7e819d7a431d7c90ea0e5f)

/-- `b ^ e` modulo `q`, on `fuel` bits of `e`. -/
def powMod (q : Nat) : Nat → Nat → Nat → Nat
  | 0, _, _ => 1 % q
  | fuel + 1, b, e =>
    let r := powMod q fuel (b * b % q) (e / 2)
    if e % 2 = 1 then r * b % q else r

/-- The inverse modulo a prime (Fermat). -/
def invMod (q a : Nat) : Nat := powMod q 384 (a % q) (q - 2)

/-- Point addition on P-384; none is the point at infinity. -/
def ecAdd : Option (Nat × Nat) → Option (Nat × Nat) → Option (Nat × Nat)
  | none, b => b
  | a, none => a
  | some (x1, y1), some (x2, y2) =>
    if x1 = x2 ∧ (y1 + y2) % p384P = 0 then none
    else
      let l := if x1 = x2 then (3 * x1 * x1 + 3 * (p384P - 1)) * invMod p384P (2 * y1) % p384P
        else (y2 + p384P - y1) * invMod p384P (x2 + p384P - x1) % p384P
      let x3 := (l * l + 2 * p384P - x1 - x2) % p384P
      some (x3, (l * (x1 + p384P - x3) + p384P - y1) % p384P)

/-- Scalar multiplication on `fuel` bits. -/
def ecMul : Nat → Nat → Option (Nat × Nat) → Option (Nat × Nat)
  | 0, _, _ => none
  | fuel + 1, k, a =>
    let r := ecMul fuel (k / 2) (ecAdd a a)
    if k % 2 = 1 then ecAdd r a else r

/-- The signature (r, s) of a digest verifies under a public key. -/
def ecdsaOk (key : Nat × Nat) (digest r s : Nat) : Bool :=
  if r = 0 ∨ p384N ≤ r ∨ s = 0 ∨ p384N ≤ s then false
  else
    let w := invMod p384N s
    let u1 := digest * w % p384N
    let u2 := r * w % p384N
    match ecAdd (ecMul 384 u1 (some p384G)) (ecMul 384 u2 (some key)) with
    | none => false
    | some q => q.1 % p384N == r

/-! ### Images (R478, R479) -/

/-- Bytes of the body that a header names. -/
def imageBody (b : Bytes) : Bytes := (b.drop 256).take (leAt b 12 4)

/-- The conditions of R479 on an image but for SEC_MIN. -/
def imageOk (b : Bytes) : Bool :=
  decide (256 + leAt b 12 4 ≤ b.length) && decide (leAt b 12 4 ≤ 16776960) &&
  leAt b 0 4 == 0x4D425846 && leAt b 4 1 == 1 && leAt b 5 1 == 0xA2 &&
  (b.drop 64).take 48 == sha384 (imageBody b) &&
  ecdsaOk (Config.signerX.toNat, Config.signerY.toNat) (beNat (sha384 (b.take 112))) (leAt b 112 48) (leAt b 160 48)

end Sys2Proof.Machine
end

