-- ==== Sys2Proof/Machine/Sync.lean ====
section
/-! DEFINITION. SYNC_DATA (R418): what the active module sends to a partner in SYNCING, section by section, and how the partner
installs it. The sections' layout is the model's own (notes/assumptions/17.md). -/

namespace Sys2Proof.Machine

/-! ### Sending -/

/-- The dictionary key belongs to a pair-wide entry that can be written (R403). -/
def sharedKey (key : Nat) : Bool :=
  pairWide (key / 256) (key % 256) &&
    entryTable.any fun e => e.holds key && (e.acc == .rw || e.acc == .rwq)

/-- Section 1: the pair-wide entries, the tables and the epoch. -/
def Mach.syncConfig (m : Mach) : List Nat :=
  encL (fun x => x.1 :: encVal x.2) (m.dict.filter fun x => sharedKey x.1) ++
    encL (fun (x : Nat × Table) => [x.1, x.2.gen] ++ encBytes x.2.bytes) m.tabs.active ++ [m.tabs.gens, m.rd E.CONFIG_EPOCH]

/-- Section 2: the contracts and their states. -/
def Mach.syncContracts (m : Mach) : List Nat :=
  encL (fun s =>
    let x := m.strm s
    [s, m.cstate s, m.rd E.CHANGE_STATE s, m.rd E.SUSPEND_REASON s, bn x.admitted, bn x.wasRunning, bn x.everRan, bn x.applyAt,
     x.planer, x.curPlaner, m.rd E.ADMIT_EPOCH s, m.rd E.CONTRACT_EPOCH s] ++ encNs x.force ++ encNs x.cur ++
      encL (fun (l : Live) => encNs l.terms ++ [l.planer, l.apply, l.num]) x.live ++ [x.applies])
    ((List.range 256).filter fun s => m.cstate s != cDRAFT)

/-- Section 3: the set slots. -/
def Mach.syncSlots (m : Mach) : List Nat :=
  encL (fun (x : Nat × Stream) => [x.1, x.2.nextSlot] ++ encL encSlot x.2.slots) (m.streams.filter fun x => !x.2.slots.isEmpty)

/-- Section 4: the object memory. -/
def Mach.syncObjects (m : Mach) : List Nat := encL (fun (x : Nat × Nat × Nat) => [x.1, x.2.1, x.2.2]) m.mallet.objs

/-- Section 5: the schedule and the grids. -/
def Mach.syncMallet (m : Mach) : List Nat :=
  encL (fun (p : Pulse) => [p.port, p.first, p.last, p.us.toNat, p.ue.toNat]) m.mallet.pulses ++
    encL (fun (x : Nat × ValvePort) => [x.1, bn x.2.grid, x.2.un.toNat, bn x.2.closing] ++ encNs x.2.run ++ encNs x.2.rest) m.vports

/-- Section 6: the era and the calendar. -/
def Mach.syncCalendar (m : Mach) : List Nat :=
  let c := m.almanac.cal
  [m.rd E.ERA, m.rd E.ALMANAC_GEN, c.1, c.2.1, c.2.2.1, c.2.2.2]

/-- The active module serves a partner in SYNCING (R418): sections 1 to 6, section 1 where the configurations differ, and a
starting state of every RUNNING stream as its next stripe ends. -/
def Mach.startSync (m : Mach) (partner : Bytes) : Mach :=
  let differ := m.rd E.CONFIG_EPOCH != leAt partner 4 8 || m.configCrc != pairWord partner 3
  let m := if differ then m.sendSync 1 m.syncConfig else m
  let m := ((((m.sendSync 2 m.syncContracts).sendSync 3 m.syncSlots).sendSync 4 m.syncObjects).sendSync 5 m.syncMallet).sendSync 6 m.syncCalendar
  let run := (List.range 256).filter fun s => m.cstate s == cRUNNING
  -- A stream at rest, with no stripe under way, gives its starting state at once.
  let still := run.filter fun s => (m.strm s).stripes.isEmpty
  let m := { m with pair.syncTo := true, pair.giveStart := run }
  m.each still fun s m => m.giveStart s

/-! ### Installing -/

/-- Install section 1. -/
def Mach.setConfig (m : Mach) (w : List Nat) : Mach :=
  let r := (do
    let es ← rdL (do let k ← rdN; let v ← rdVal; return (k, v))
    let ts ← rdL (do let k ← rdN; let gen ← rdN; let bytes ← rdBytes; return (k, ({ gen, bytes } : Table)))
    let gens ← rdN; let epoch ← rdN
    return (es, ts, gens, epoch) : Rd (List (Nat × Val) × List (Nat × Table) × Nat × Nat)) w |>.1
  let old := m
  let dict := r.1.foldl (fun d x => if sharedKey x.1 then SMap.put x.1 x.2 d else d) (m.dict.filter fun x => !sharedKey x.1)
  let m := { m with dict := dict, tabs := { m.tabs with active := r.2.1, gens := r.2.2.1, pending := none } }
  let m := m.each (List.range 64) fun n m =>
    let d := (m.table n 2).bytes
    let k := (defects d).length
    let f := flatDims (m.table n 1).bytes
    (((m.wr E.FF_DIMS n (f.2 * 2 ^ 32 + f.1)).wr E.DEFECT_COUNT n k).wr E.DEFECT_DROPPED n (defectCount d - k)).wr
      E.TONE_LUTS n (toneCount (m.table n 3).bytes)
  let m := m.each (List.range 8) fun v m =>
    if old.rd E.VP_ENABLE v = m.rd E.VP_ENABLE v then m else if m.rd E.VP_ENABLE v = 1 then m.startGrid v else m.stopGrid v
  ((m.wr E.CONFIG_EPOCH 0 r.2.2.2).wr E.STORE_PENDING 0 1).showPool

/-- One contract as section 2 carries it. -/
structure SyncContract where
  s : Nat
  state : Nat
  change : Nat
  reason : Nat
  admitted : Bool
  wasRunning : Bool
  everRan : Bool
  applyAt : Bool
  planer : Nat
  curPlaner : Nat
  admitEpoch : Nat
  epoch : Nat
  force : List Nat
  cur : List Nat
  live : List Live
  applies : Nat

/-- Read one contract. -/
def rdContract : Rd SyncContract := do
  let s ← rdN; let state ← rdN; let change ← rdN; let reason ← rdN
  let admitted ← rdB; let wasRunning ← rdB; let everRan ← rdB; let applyAt ← rdB
  let planer ← rdN; let curPlaner ← rdN; let admitEpoch ← rdN; let epoch ← rdN
  let force ← rdNs; let cur ← rdNs
  let live ← rdL (do let terms ← rdNs; let planer ← rdN; let apply ← rdN; let num ← rdN; return ({ terms, planer, apply, num } : Live))
  let applies ← rdN
  return { s, state, change, reason, admitted, wasRunning, everRan, applyAt, planer, curPlaner, admitEpoch, epoch, force, cur, live, applies }

/-- Install one contract: the module keeps its ring where it holds the same terms; a RUNNING contract runs where its port
is up (R392). -/
def Mach.setContract (m : Mach) (k : SyncContract) : Mach :=
  if 256 ≤ k.s then m
  else
    let s := k.s
    let x := m.strm s
    let ran := m.cstate s == cRUNNING && x.force == k.force
    let m := if ran ∨ m.cstate s = cDRAFT then m else m.releaseNow s
    let x := m.strm s
    let m := m.setStrm s { x with admitted := k.admitted, force := k.force, cur := k.cur, planer := k.planer,
                                  curPlaner := k.curPlaner, everRan := k.everRan, applyAt := k.applyAt,
                                  live := k.live.map fun (l : Live) => { l with apply := l.apply + x.applies - k.applies }, wasRunning := k.wasRunning }
    let m := ((m.wr E.ADMIT_EPOCH s k.admitEpoch).wr E.CONTRACT_EPOCH s k.epoch).wr E.CHANGE_STATE s k.change
    let m := if k.admitted then m.sizeRing s k.force else m
    if k.state = cRUNNING then
      if ran then m
      else if m.portUp k.force then { (m.enterRunning s) with admits := max m.admits k.admitEpoch }
      else (m.wr E.CONTRACT_STATE s cSUSPENDED).wr E.SUSPEND_REASON s 1
    else
      let m := if ran then m.leaveRunning s m.now else m
      (m.wr E.CONTRACT_STATE s k.state).wr E.SUSPEND_REASON s k.reason

/-- Install section 2: streams that run await their starting state. -/
def Mach.setContracts (m : Mach) (w : List Nat) : Mach :=
  let l := (rdL rdContract w).1
  let others := (List.range 256).filter fun s => m.cstate s != cDRAFT && !(l.any fun k => k.s == s)
  let m := m.each others fun s m => m.releaseNow s
  let m := l.foldl (fun m k => m.setContract k) m
  let run := (List.range 256).filter fun s => m.cstate s == cRUNNING
  { m.republish with pair.awaitStart := run, pair.awaitDigest := run }

/-- Install section 3. -/
def Mach.setSlots (m : Mach) (w : List Nat) : Mach :=
  let l := (rdL (do let s ← rdN; let n ← rdN; let k ← rdL rdSlot; return (s, n, k)) : Rd (List (Nat × Nat × List SetSlot))) w |>.1
  l.foldl (fun m k => if k.1 < 256 then m.setStrm k.1 { m.strm k.1 with slots := k.2.2, nextSlot := k.2.1 } else m) m

/-- Read section 5. -/
def rdMallet : Rd (List Pulse × List (Nat × Bool × TW64 × Bool × List Nat × List Nat)) := do
  let ps ← rdL (do
    let port ← rdN; let first ← rdN; let last ← rdN; let us ← rdT; let ue ← rdT
    return ({ port, first, last, us, ue } : Pulse))
  let vs ← rdL (do
    let v ← rdN; let grid ← rdB; let un ← rdT; let closing ← rdB; let run ← rdNs; let rest ← rdNs
    return (v, grid, un, closing, run, rest))
  return (ps, vs)

/-- Install section 5. -/
def Mach.setMallet (m : Mach) (w : List Nat) : Mach :=
  let r := (rdMallet w).1
  let m := { m with mallet.pulses := r.1 }.wr E.SCHEDULE_USED 0 r.1.length
  r.2.foldl (fun m k => if k.1 < 8 then
    (m.setVport k.1 { m.vport k.1 with grid := k.2.1, un := k.2.2.1, closing := k.2.2.2.1, run := k.2.2.2.2.1, rest := k.2.2.2.2.2 }).showVport k.1
    else m) m

/-- Install section 6 (R485). -/
def Mach.setCalendar (m : Mach) (w : List Nat) : Mach :=
  let g := fun i => w.getD i 0
  ({ m with almanac.cal := (g 2, g 3, g 4, g 5) }.wr E.ERA 0 (g 0)).wr E.ALMANAC_GEN 0 (g 1)

/-- Stripes of a stream that ran before SYNCING are dropped. -/
def Mach.dropStripes (m : Mach) (s : Nat) : Mach :=
  let m := m.each (List.range 16) fun n m =>
    match (m.planer n).run with
    | some k => if k.1 = s then (m.setPlaner n { m.planer n with run := none, kerf := false }).wr E.PLANER_STATE n 0 else m
    | none => m
  m.setStrm s { m.strm s with stripe := none, stripes := [], delivs := [], digests := [] }

/-- Retained lines take their places again, from stripe k onward (R418). -/
def Mach.replaceLines (m : Mach) (s : Nat) (l : List LineInfo) : Mach :=
  l.foldl (fun m li =>
    let o : LineOut := { frame := li.frame, line := li.line, tag := li.tag, time := li.time, pos := li.pos, missing := li.missing,
                         damaged := li.damaged, refused := li.refused, arr := m.now }
    let m := (m.placeLine s o li.posState).2
    m.setStrm s { m.strm s with lines := (m.strm s).lines.map fun (i : LineInfo) => if i.n = li.n then { i with events := li.events } else i }) m

/-- A starting state as section 7 carries it. -/
structure SyncStart where
  s : Nat
  frame : Nat
  line : Nat
  row : Nat
  first : Nat
  fresh : Bool
  inst : Nat
  ctx : PlanerCtx
  tileSeq : Nat
  waiting : List Stamped
  slots : List SetSlot
  nextSlot : Nat
  ghosts : List SetSlot

/-- Read one starting state. -/
def rdStart : Rd SyncStart := do
  let s ← rdN; let frame ← rdN; let line ← rdN; let row ← rdN; let first ← rdN; let fresh ← rdB; let inst ← rdN
  let ctx ← rdCtx; let tileSeq ← rdN; let waiting ← rdL rdStamped
  let slots ← rdL rdSlot; let nextSlot ← rdN; let ghosts ← rdL rdSlot
  return { s, frame, line, row, first, fresh, inst, ctx, tileSeq, waiting, slots, nextSlot, ghosts }

/-- Install section 7 (R418): the stream goes on from stripe k with the module's own retained rows. -/
def Mach.setStart (m : Mach) (w : List Nat) : Mach :=
  let k := (rdStart w).1
  let s := k.s
  if m.pair.awaitStart.contains s = false then m
  else
    let m := m.dropStripes s
    let x := m.strm s
    let c := Terms.rxCfg x.cur
    let a := x.applies + 1
    let late := x.lines.dropWhile fun i => decide (0 < c.lines i.frame i.line k.frame k.line)
    let x := { x with
      ctxs := [{ k.ctx with apply := a, cut := { k.ctx.cut with apply := a } }], applies := a
      tileSeq := k.tileSeq, waiting := k.waiting, slots := k.slots, nextSlot := k.nextSlot, ghosts := k.ghosts
      newSeq := k.fresh, sequ := x.sequ + 1, seqFirst := k.first, seqRows := k.row
      frames := k.inst, frameNo := if k.fresh then none else some k.frame, frameSlot := none
      frameProf := m.profile (Terms.profile x.cur), frameGens := m.gens (Terms.profile x.cur), frameCut := m.cutCfg s
      head := match late with | i :: _ => i.n | [] => x.head
      lines := x.lines.filter fun i => !(late.any fun j => j.n == i.n) }
    let m := (m.setStrm s x)
    let m := { m with pair.awaitStart := m.pair.awaitStart.filter fun j => j != s
                      pair.awaitStripe := m.pair.awaitStripe ++ [(s, k.frame, k.line)] }
    m.replaceLines s late

/-- A SYNC_DATA frame (R418): the pieces of a section are joined, and the section is installed with the last of them. -/
def Mach.onSyncData (m : Mach) (f : FabMsg) : Mach :=
  if m.role ≠ 3 then m
  else
    let b := m.pair.syncBytes ++ f.payload
    if f.argB ≠ 1 then { m with pair.syncBytes := b }
    else
      let w := bytesWords b.length b
      let m := { m with pair.syncBytes := [] }
      let m := match f.argA with
        | 1 => m.setConfig w
        | 2 => m.setContracts w
        | 3 => m.setSlots w
        | 4 => { m with mallet.objs := (rdL rdTriple w).1 }
        | 5 => m.setMallet w
        | 6 => { m.setCalendar w with pair.synced := true }
        | 7 => m.setStart w
        | _ => m
      (m.wr E.SYNC_PROGRESS 0 (Nat.min 90 (15 * f.argA))).checkSynced

end Sys2Proof.Machine
end

