-- ==== Sys2Proof/Machine/Pair.lean ====
section
/-! DEFINITION. The commands of a pair: PAIR_STATE (R398, R402), commit marks and the delivery log (R404 to R406), comparison
and replay (R407 to R412), the lines DVT_OWN (R396, R397, R400), releases (R399), the cross-link (R401, R416) and SYNCING
(R418), with the commands of PAIR_CMD (R417, R419), and VALVE_UPDATE (R275), which a switch of reason 7 may follow. -/

namespace Sys2Proof.Machine

/-! ### Cross-link (R401, R416) -/

/-- A pair frame has arrived on a cross-link port (R416): where the link was lost it is back, which code 7 reports; a module
that is neither ACTIVE nor BARRED then applies R417. -/
def Mach.heardPair (m : Mach) : Mach :=
  let back := m.flagOn 5 == false
  let again := m.pair.heardAt.isSome
  let m := { m with pair.heardAt := some m.ns }.flag 5 true
  if back then
    let m := if again then m.pairEvent 7 0 else m
    if m.role = 1 ∨ m.role = 4 ∨ m.rd E.MODULE_STATE < 4 ∨ m.rd E.MODULE_STATE = 8 then m else m.joinPair
  else m

/-- A TC2 pair frame's FSEQ has been received before (R401); else it is noted as received. -/
def Mach.pairSeen (m : Mach) (n : Nat) : Bool × Mach :=
  match m.pair.rxNext with
  | none => (false, { m with pair.rxNext := some ((n + 1) % 2 ^ 32) })
  | some e =>
    let d := (n + 2 ^ 32 - e) % 2 ^ 32
    if 2 ^ 31 ≤ d ∨ m.pair.rxBeyond.contains n then (true, m.inc E.PAIR_RESENDS 0)
    else
      let l := n :: m.pair.rxBeyond
      let e' := (List.range l.length).foldl (fun e _ => if l.contains e then (e + 1) % 2 ^ 32 else e) e
      (false, { m with pair.rxNext := some e', pair.rxBeyond := l.filter fun k => decide ((k + 2 ^ 32 - e') % 2 ^ 32 < 2 ^ 31) })

/-- Acknowledge what has come without a gap (R401). -/
def Mach.sendAck (m : Mach) : Mach :=
  match m.pair.rxNext with
  | some e => m.pairSend 0x6A 2 ((e + 2 ^ 32 - 1) % 2 ^ 32) 0 []
  | none => m

/-- A PAIR_ACK frees the frames up to its number (R401). -/
def Mach.onPairAck (m : Mach) (f : FabMsg) : Mach :=
  { m with pair.unacked := m.pair.unacked.filter fun u =>
      let d := (u.2.fseq + 2 ^ 32 - f.argA) % 2 ^ 32
      decide (1 ≤ d ∧ d < 2 ^ 31) }

/-- The frames that await their PAIR_ACK. -/
def Mach.setUnacked (m : Mach) (l : List (Nat × FabMsg)) : Mach := { m with pair.unacked := l }

/-- PAIR_RESEND (R401): frames that are unacknowledged for 20 µs go again with their numbers. -/
def execPairResend (s : State) : Host.Outcome State Fault Refusal :=
  s.onMach true fun m =>
    match m.xlinkPort with
    | none => m
    | some p =>
      let due := fun (u : Nat × FabMsg) => decide (u.1 + 20000 ≤ m.ns)
      let n : Mach := (m.pair.unacked.filter due).foldl (fun (m : Mach) u => m.queueFrame p u.2) m
      n.setUnacked (m.pair.unacked.map fun u => if due u then (m.ns, u.2) else u)

/-- The ns of the last pair frame. -/
def Mach.setHeard (m : Mach) (t : Option Nat) : Mach := { m with pair.heardAt := t }

/-- No pair frame has arrived for XLINK_TIMEOUT (R416). -/
def Mach.xlinkSilent (m : Mach) : Bool :=
  match m.pair.heardAt with
  | some h => decide (h + m.rd E.XLINK_TIMEOUT * 1000 ≤ m.ns)
  | none => true

/-- XLINK_TIMEOUT (R396, R398, R416). -/
def execXlinkTimeout (s : State) : Host.Outcome State Fault Refusal :=
  s.onMach true fun m =>
    m.when (m.paired && m.flagOn 5 && m.xlinkSilent) fun m =>
      let heard := m.pair.heardAt
      let m := ((m.forgetXlink.inc E.XLINK_LOSSES 0).pairEvent 6 0)
      let m := m.setHeard heard
      if m.role = 1 then (m.flag 9 true).settleClash else if m.role = 4 then m.clearFresh else m.enterSyncing true

/-! ### PAIR_STATE (R402) -/

/-- The contacts are sampled (R394, R492): presence of the partner, and the read-back of the module's own OWN line. A line that read
deasserted while the module drove it stays reported when the module has let it go (R420). -/
def Mach.readContacts (m : Mach) (present ownRead : Bool) : Mach :=
  let low := if m.flagOn 2 then !ownRead else m.pair.lineLow
  let m := { m with pair.presLine := present, pair.presSeen := m.pair.presSeen || present, pair.ownLine := some ownRead, pair.lineLow := low }
  (m.flag 4 present).flag 7 (low || ownRead != m.flagOn 2)

/-- The module grounds its presence contact DVT_PRES_A (slot A) or DVT_PRES_B (slot B) while it has input power (R394, R492). -/
def Mach.groundsPresence (m : Mach) (contactB : Bool) : Bool := m.life.supply && contactB == !m.slotA

/-- The streams fed (R399): RUNNING, with the port at STREAMING or SQUALL. -/
def Mach.fed (m : Mach) : Nat :=
  ((List.range 256).filter fun s =>
    let t := m.force s
    m.cstate s == cRUNNING && !Terms.remote t && (m.rd E.PORT_STATE (Terms.port t) == 5 || m.rd E.PORT_STATE (Terms.port t) == 6)).length

/-- Position channels that are LOST, as bits. -/
def Mach.posLost (m : Mach) : Nat := (List.range 8).foldl (fun r n => r + bn (m.rd E.POS_MODE n != 0 && m.pst n 5) * 2 ^ n) 0

/-- Valve ports in chain fault, as bits. -/
def Mach.chainFaults (m : Mach) : Nat := (List.range 8).foldl (fun r v => r + bn (m.vport v).fault * 2 ^ v) 0

/-- The payload of PAIR_STATE (R402). -/
def Mach.pairState (m : Mach) : Bytes :=
  let own := m.pair.ownLine.getD (m.flagOn 2)
  leBytes 4 (m.role + 8 * bn (!m.slotA) + 16 * bn (m.flagOn 0) + 32 * bn (m.flagOn 2) + 64 * bn own + 128 * bn m.ep.up + 256 +
    2 ^ 16 * Nat.min m.fed 255 + 2 ^ 24 * m.posLost) ++
  leBytes 8 (m.rd E.CONFIG_EPOCH) ++ leBytes 4 m.configCrc ++ leBytes 4 (m.rd E.ALMANAC_GEN) ++ leBytes 4 m.chainFaults ++ zeros 8

/-- PAIR_STATE_SEND (R394, R401). -/
def execPairStateSend (present ownRead : Bool) (s : State) : Host.Outcome State Fault Refusal :=
  s.onMach true fun m =>
    m.when (m.paired && decide (4 ≤ m.rd E.MODULE_STATE)) fun m =>
      let m := ((m.readContacts present ownRead).settleClash.tryOwn).checkSynced
      m.pairSend 0x60 3 0 0 m.pairState

/-- OVERRIDE follows what the partner reports (R398). -/
def Mach.setOverride (m : Mach) (w : Nat) : Mach :=
  let want := m.role == 1 && !bitOf w 5 && bitOf w 6
  if m.flagOn 6 = want then m
  else
    let m := m.underGate fun m => m.flag 6 want
    if want then (m.inc E.OVERRIDE_SETS 0).pairEvent 9 0 else m.settleClash

/-- A PAIR_STATE frame on port `p` (R390, R393, R402, R417, R418). Of a module in the same slot it is no partner's, and OWN is let go. -/
def Mach.onPairState (m : Mach) (p : Nat) (f : FabMsg) : Mach :=
  let b := f.payload
  let w := pairWord b 0
  if b.length < 32 ∨ bitsOf w 15 8 ≠ 1 then m
  else
    let role := w % 8
    let m := (m.wr E.PARTNER_ROLE 0 role).wr E.PARTNER_EUI 0 (m.rd E.NEIGHBOUR p)
    let m := m.flag 8 (bitOf w 3 != m.slotA)
    if m.flagOn 8 then { m with pair.partner := none }.driveOwn false
    else
      let m := { m with pair.partner := some b }.afterSwitch role (bitsOf (pairWord b 5) 7 0)
      let m := m.setOverride w
      let m := if m.role = 1 ∧ role = 2 then m.flag 9 false else m
      let m := if m.role = 1 ∧ role = 3 then (if m.pair.syncTo then m else m.startSync b)
        else { m with pair.syncTo := false, pair.giveStart := [] }
      (if m.role = 5 then m.joinPair else m).tryOwn

/-! ### Commit marks (R405) -/

/-- What a commit mark says of a channel: the number after the greatest SEQ up to which every unit is written or dropped. -/
def Mach.committed (m : Mach) (c : Nat) : Nat := ((m.chan c).issued.map Issued.seq).foldl seqMin (m.chan c).commit

/-- Send a commit mark. Valve entries that its frame or the field H cannot hold go with the next one (notes/assumptions/34.md). -/
def Mach.sendMark (m : Mach) : Mach :=
  let all := m.pair.markNo % 100 == 0
  let cs := (List.range 128).filter fun c => m.chClass c != 0 && (all || m.committed c != (m.chan c).marked)
  let room := Nat.min 255 ((2080 - 12 - 8 * cs.length) / 16)
  let vs := m.pair.updates.take room
  let b := leBytes 2 m.pair.markNo ++ leBytes 1 cs.length ++ leBytes 1 vs.length ++ leBytes 8 m.now.toNat ++
    cs.flatMap (fun c => leBytes 2 c ++ leBytes 6 ((m.committed c + 2 ^ 48 - 1) % 2 ^ 48)) ++
    vs.flatMap fun v => leBytes 4 v.1 ++ leBytes 8 v.2.1.toNat ++ leBytes 4 v.2.2
  let m := m.each cs fun c m => m.setChan c { m.chan c with marked := m.committed c }
  { m with pair.markNo := m.pair.markNo + 1, pair.updates := m.pair.updates.drop room }.pairSend 0x61 2 0 0 b

/-- COMMIT_MARK_SEND (R405). -/
def execCommitMarkSend (s : State) : Host.Outcome State Fault Refusal := s.onMach true fun m => m.when m.leads Mach.sendMark

/-- The units of a channel that a mark covers have left the active module (R406). -/
def Mach.coverUnit (c : Nat) (m : Mach) (u : Unit) : Mach :=
  let x := m.chan c
  let m := m.setChan c { x with queue := eraseUnit u x.queue }
  let seq := u.seq.getD 0
  let e := m.pair.log.find? fun k => k.chan == c && k.seq == seq
  let n := (m.unitBytesNow c u seq 0).1
  let m := { m with pair.log := m.pair.log.filter fun k => !(k.chan == c && k.seq == seq) }.unitEnded u seq (some n) false false
  match e with | some e => m.pointAfter e n.length | none => m

/-- A channel entry of a mark. Event-log records need not be produced here to be let go. -/
def Mach.coverChan (m : Mach) (c commit : Nat) : Mach :=
  let m := m.setChan c { m.chan c with commit := commit }
  let m := (m.chan c).queue.foldl (fun m u => if u.seq.isSome ∧ seqLess (u.seq.getD 0) commit then Mach.coverUnit c m u else m) m
  let gone := m.pair.log.filter fun e => e.chan == c && seqLess e.seq commit && bitsOf (leAt e.entry 0 4) 11 8 == 7
  gone.foldl (fun m e =>
    { m with pair.log := m.pair.log.filter fun k => k != e }.pointAfter e 16) m

/-- A verdict that nothing attributes (R411, R412). -/
def Mach.unattributed (m : Mach) : Mach :=
  let m := (m.inc E.UNATTRIBUTED 0).pairEvent 4 5
  let l := (m.pair.unattributed ++ [m.ns]).filter fun a => decide (m.ns < a + 3600 * 10 ^ 9)
  let m := if 3 ≤ l.length then { m with pair.unattributed := [] }.pairEvent 5 0 else { m with pair.unattributed := l }
  if m.rd E.UNATTR_POLICY = 1 ∧ m.maySwitch 3 then m.switch_ 3 else m

/-- The standby compares a valve entry with its own hash of the same port and U (R408). -/
def Mach.valveEntry (m : Mach) (port : Nat) (u : TW64) (hash : Nat) : Mach :=
  match m.pair.updates.find? fun k => k.1 == port && k.2.1 == u with
  | none => m
  | some k =>
    if k.2.2 = hash then m
    else ((m.inc E.VALVE_MISMATCHES 0).unattributed).pairSend 0x67 3 0 0 (replayPayload (2 ^ 32 - 1) port (u.toNat % 2 ^ 32) none)

/-- A COMMIT_MARK frame (R405, R406, R408, R418). -/
def Mach.onMark (m : Mach) (f : FabMsg) : Mach :=
  if m.follows = false then m
  else
    let b := f.payload
    let n := leAt b 2 1
    let h := leAt b 3 1
    let m := (List.range n).foldl (fun m i =>
      let c := leAt b (12 + 8 * i) 1
      if c < 128 then m.coverChan c ((leAt b (14 + 8 * i) 6 + 1) % 2 ^ 48) else m) m
    let m := (List.range h).foldl (fun m i =>
      let o := 12 + 8 * n + 16 * i
      m.valveEntry (leAt b o 4 % 8) (BitVec.ofNat 64 (leAt b (o + 4) 8)) (leAt b (o + 12) 4)) m
    let seen := (List.range h).map fun i => let o := 12 + 8 * n + 16 * i; (leAt b o 4 % 8, BitVec.ofNat 64 (leAt b (o + 4) 8))
    let m := { m with pair.markAt := some m.ns, pair.syncMark := m.pair.syncMark || m.role == 3
                      pair.updates := m.pair.updates.filter fun k => !(seen.any fun q => q.1 == k.1 && decide (twDiff k.2.1 q.2 ≤ 0)) }
    m.checkSynced

/-! ### The delivery log (R404, R406) -/

/-- HW_INDEX of a Class S channel as the log tells it (R406): a unit that starts in another descriptor shows that the one of the unit before it is
DONE, and the number of those between them, which no frame tells, is a free value (notes/assumptions/34.md). -/
def Mach.logPoint (m : Mach) (e : LogUnit) : Mach :=
  let c := e.chan
  let point := leAt e.entry 20 8
  if m.chClass c ≠ 1 ∨ e.dropped then m
  else if ((m.chan c).logPoint.any fun p => p != point) then
    let r := m.take 32
    r.2.setChan c { r.2.chan c with logPoint := some point, hw := ((r.2.chan c).hw + 1 + r.1) % 2 ^ 32 }
  else m.setChan c { m.chan c with logPoint := some point }

/-- One entry of the delivery log: it names a unit that this module has produced, or one still to come. -/
def Mach.logEntry (m : Mach) (entry body : Bytes) : Mach :=
  let c := leAt entry 0 1
  if 128 ≤ c then m
  else
    let e : LogUnit := { chan := c, seq := leAt entry 4 6, entry := entry, body := body }
    let m := ({ m with pair.log := m.pair.log ++ [e] }.wr E.SEQ_NEXT c ((e.seq + 1) % 2 ^ 48)).logPoint e
    match (m.chan c).queue.find? fun u => u.seq.isNone && e.names c u with
    | some u =>
      let x := m.chan c
      (m.setChan c { x with queue := eraseUnit u x.queue }).nameUnit c u e
    | none => m

/-- The entries of a DELIVERY_LOG frame. -/
def logEntries : Nat → Bytes → List (Bytes × Bytes)
  | 0, _ => []
  | fuel + 1, b =>
    if b.length < 32 then []
    else
      let k := bitsOf (leAt b 0 4) 11 8
      let n := if k = 1 ∨ k = 2 then 64 else if k = 7 then 16 else 0
      (b.take 32, (b.drop 32).take n) :: logEntries fuel (b.drop (32 + n))

/-- A DELIVERY_LOG frame. -/
def Mach.onLog (m : Mach) (f : FabMsg) : Mach :=
  if m.follows then (logEntries f.payload.length f.payload).foldl (fun m e => m.logEntry e.1 e.2) m else m

/-- The units that no log entry has named, with their channels. -/
def Mach.unnamed (m : Mach) : List (Nat × Unit) :=
  m.chans.flatMap fun (x : Nat × Chan) => (x.2.queue.filter fun u => u.seq.isNone).map fun u => (x.1, u)

/-- The oldest of a list of units. -/
def oldestUnit (l : List (Nat × Unit)) : Option (Nat × Unit) :=
  l.foldl (fun (r : Option (Nat × Unit)) k => match r with
    | none => some k
    | some q => if k.2.readyAt < q.2.readyAt then some k else r) none

/-- A unit that the log has not named is discarded (R406). -/
def Mach.expireUnit (m : Mach) (c : Nat) (u : Unit) : Mach :=
  ((m.setChan c { m.chan c with queue := eraseUnit u (m.chan c).queue }).inc E.UNITS_EXPIRED 0).unitEnded u 0 none false false

/-- UNIT_EXPIRY (R406): the oldest unit that the log has not named within 50 ms is discarded. -/
def execUnitExpiry (s : State) : Host.Outcome State Fault Refusal :=
  s.onMach true fun m =>
    m.when m.follows fun m =>
      match oldestUnit m.unnamed with
      | none => m
      | some (c, u) => m.when (decide (u.readyAt + 50000000 ≤ m.ns)) fun m => m.expireUnit c u

/-- A HOST_WRITE frame (R403, R406): channel, register (0 DOORBELL, 1 SW_INDEX), value. -/
def Mach.onHostWrite (m : Mach) (f : FabMsg) : Mach :=
  let c := leAt f.payload 0 4
  let v := leAt f.payload 8 4
  if m.follows = false ∨ 128 ≤ c then m else if leAt f.payload 4 4 = 0 then m.ring c v else m.setSw c v

/-- A DECISION frame (R279): the standby schedules what the active accepted. -/
def Mach.onDecision (m : Mach) (f : FabMsg) : Mach :=
  if m.follows = false then m
  else
    let b := f.payload.take 32
    let ta : TW64 := BitVec.ofNat 64 (leAt f.payload 32 8)
    let m := { m with pair.decNext := SMap.put (f.argA % 128) ((f.argB + 1) % 2 ^ 32) m.pair.decNext }.inc E.DECISIONS 0
    let c := m.clampDecision (readDecision b)
    let m := if c.2 then m.inc E.DEC_CLAMPED 0 else m
    m.applyDecision c.1 (m.fireTimeOf c.1) ta (leAt f.payload 40 4)

/-! ### POS of the active module (R248, R406) -/

/-- One line's POS: the line's stamp is written again, or the POS waits for its line. -/
def onPos (s f l pos : Nat) (h : Memory) (m : Mach) : Memory × Mach :=
  let x := m.strm s
  match x.lines.find? fun i => i.frame == f && i.line == l && i.posState == 1 with
  | some i =>
    let j := { i with pos := pos, posState := 0 }
    let x := { x with lines := x.lines.map fun (k : LineInfo) => if k.n = i.n then j else k }
    (h.writeBytes (x.stampAt x.cur i.n) j.stamp, m.setStrm s x)
  | none => (h, m.setStrm s { x with posRx := (x.posRx.filter fun k => !(k.1 == f && k.2.1 == l)) ++ [(f, l, pos)] })

/-- A POS_STAMP frame: 16 bytes a line. -/
def onPosStamp (f : FabMsg) (h : Memory) (m : Mach) : Memory × Mach :=
  if m.follows = false then (h, m)
  else
    (List.range (f.payload.length / 16)).foldl (fun (r : Memory × Mach) i =>
      let s := leAt f.payload (16 * i) 4
      if s < 256 then onPos s (leAt f.payload (16 * i + 4) 4) (leAt f.payload (16 * i + 8) 4) (leAt f.payload (16 * i + 12) 4) r.1 r.2 else r) (h, m)

/-- POS_STAMP_TIMEOUT (R406): 50 µs after its arrival the line keeps the module's own POS. -/
def execPosStampTimeout (k f l : Nat) (s : State) : Host.Outcome State Fault Refusal :=
  s.onMach (k < 256) fun m =>
    let x := m.strm k
    m.setStrm k { x with lines := x.lines.map fun (i : LineInfo) =>
      if i.frame = f ∧ i.line = l ∧ i.posState = 1 ∧ i.at_ + 50000 ≤ m.ns then { i with posState := 2 } else i }

/-! ### Comparison and replay (R407 to R412) -/

/-- A STRIPE_DIGEST frame (R407, R408). -/
def Mach.onDigest (m : Mach) (f : FabMsg) : Mach :=
  let b := f.payload
  let s := leAt b 0 4
  if 256 ≤ s ∨ m.paired = false ∨ m.pair.awaitStart.contains s then m
  else
    let x := m.strm s
    let old := (x.digestOf (leAt b 4 4) (leAt b 8 4)).getD { frame := leAt b 4 4, line := leAt b 8 4 }
    let d := { old with partner := some (leAt b 16 8), notComparable := old.notComparable || leAt b 12 4 == 1 }
    ((m.setStrm s (x.putDigest d)).compareDigests s d).checkSynced

/-- DIGEST_WAIT_TIMEOUT (R407): the partner's digest has not come 2 ms after the own one was ready. -/
def execDigestWaitTimeout (k f l : Nat) (s : State) : Host.Outcome State Fault Refusal :=
  s.onMach (k < 256) fun m =>
    match (m.strm k).digestOf f l with
    | none => m
    | some d => m.when (d.own.isSome && d.partner.isNone && decide (d.at_ + 2000000 ≤ m.ns)) fun m =>
        (m.setStrm k ((m.strm k).dropDigest f l)).inc E.NOT_COMPARED 0

/-- What a module's replay says (R411): SELF, that its digest equals the module's own first digest; INPUT_DIGEST; and its input events. -/
def replaySays (first : Option Nat) (r : Option (Nat × Nat × Nat)) : Option (Bool × Nat × Nat) :=
  r.map fun v => (first == some v.1, v.2.1, v.2.2)

/-- The row of R411. Each side: SELF, INPUT_DIGEST, input events; none where no replay was possible. -/
def verdictRow (a b : Option (Bool × Nat × Nat)) : Nat :=
  match a, b with
  | some a, some b =>
    if a.1 = false ∧ b.1 then 1
    else if a.1 ∧ b.1 = false then 2
    else if a.1 ∧ b.1 ∧ a.2.1 ≠ b.2.1 ∧ 0 < a.2.2 ∧ b.2.2 = 0 then 3
    else if a.1 ∧ b.1 ∧ a.2.1 ≠ b.2.1 ∧ a.2.2 = 0 ∧ 0 < b.2.2 then 4
    else 5
  | _, _ => 5

/-- Enter SYNCING beside a partner whose configuration may differ (R417 row 3). -/
def Mach.resync (m : Mach) : Mach :=
  m.enterSyncing (match m.pair.partner with
    | some b => m.rd E.CONFIG_EPOCH != leAt b 4 8 || m.configCrc != pairWord b 3
    | none => true)

/-- This module is found faulty (R412). -/
def Mach.foundFaulty (m : Mach) : Mach :=
  let l := (m.pair.faulty ++ [m.ns]).filter fun a => decide (m.ns < a + 86400 * 10 ^ 9)
  let m : Mach := { m.inc E.ATTRIB_SELF 0 with pair.faulty := l }
  let m := if m.role = 1 then m.release 2 0 else m
  if m.rd E.BAR_LIMIT ≤ l.length then m.bar else m.resync

/-- The verdict on a stripe whose replays have ended on both modules (R411, R412). -/
def Mach.settleDigest (m : Mach) (s : Nat) (d : Digest) : Mach :=
  match d.result, d.theirs with
  | some a, some b =>
    let a := replaySays d.own a
    let b := replaySays d.partner b
    let row := if m.slotA then verdictRow a b else verdictRow b a
    let m := m.setStrm s ((m.strm s).dropDigest d.frame d.line)
    if row = 5 then m.unattributed
    else
      let m := m.pairEvent 4 row
      if row ≤ 2 then (if (row = 1) = m.slotA then m.foundFaulty else m.inc E.ATTRIB_PARTNER 0) else m.inc E.ATTRIB_INPUT 0
  | _, _ => m

/-- A REPLAY frame (R410, R411). A stream number of all ones stands for a valve image (R411). -/
def Mach.onReplay (m : Mach) (f : FabMsg) : Mach :=
  let b := f.payload
  let s := leAt b 0 4
  if m.paired = false then m
  else if s = 2 ^ 32 - 1 then m.unattributed
  else if 256 ≤ s then m
  else match (m.strm s).digestOf (leAt b 4 4) (leAt b 8 4) with
    | none => m
    | some d =>
      let d := { d with theirs := some (if bitOf (leAt b 12 4) 0 then some (leAt b 16 8, leAt b 24 8, leAt b 32 8) else none) }
      (m.setStrm s ((m.strm s).putDigest d)).settleDigest s d

/-- INPUT_DIGEST of a stripe (R410): the retained bytes and the stamp of each of its lines, in row order. -/
def inputDigest (h : Memory) (x : Stream) (p : Stripe) : Nat :=
  let t : Terms := p.terms
  crc64 0 (p.infos.flatMap fun i => h.readBytes i.addr t.lb ++ h.readBytes (x.stampAt t i.n) 32)

/-- Cycles of the replay at the front of a list. -/
def Mach.replayCost (m : Mach) (l : List (Nat × Nat × Nat)) : Nat :=
  match l with
  | (k, f, i) :: _ => match ((m.strm k).digestOf f i).bind Digest.seed with
    | some q => Terms.cycles q.stripe.terms
    | none => 0
  | [] => 0

/-- What a replay of stream `k` finds (R410): its digest, the digest of what it read, and the events of its stripe; none where its input
is no longer held. -/
def Mach.replayFinds (m : Mach) (h : Memory) (k : Nat) (d : Digest) : Option (Nat × Nat × Nat) :=
  match d.seed with
  | none => none
  | some q =>
    let x := m.strm k
    if x.replayable q.stripe = false then none
    else
      let rin := { m.runIn h k q.stripe with tref := q.tref, acc := q.acc, tileSeq := q.tileSeq, waiting := q.waiting }
      let ran := q.stripe.run rin (q.stripe.cutIn.getD {})
      some (stripeDigest k q.stripe ran.units, inputDigest h x q.stripe, d.events)

/-- The replay of stripe `l` of frame `f` of stream `k` has its result: it is told to the partner, and the comparison goes on. -/
def Mach.replayed (m : Mach) (h : Memory) (k f l : Nat) : Mach :=
  match (m.strm k).digestOf f l with
  | none => m
  | some d =>
    let r := m.replayFinds h k d
    let d := { d with result := some r }
    ((m.setStrm k ((m.strm k).putDigest d)).pairSend 0x67 3 0 0 (replayPayload k f l r)).settleDigest k d

/-- REPLAY_DONE (R410): the replay at the front of a planer ends. -/
def execReplayDone (n : Nat) (s : State) : Host.Outcome State Fault Refusal :=
  s.onMach (n < 16) fun m =>
    let pl := m.planer n
    match pl.replays with
    | [] => m
    | (k, f, l) :: rest =>
      if pl.slice ∨ 0 < pl.replayCycles then m
      else (m.setPlaner n { pl with replays := rest, replayCycles := m.replayCost rest }).replayed s.hbm k f l

/-! ### OWN (R396, R397, R400) -/

/-- PARTNER_OWN_FALL (R400): detection at `t`; OWN_GUARD starts. -/
def execPartnerOwnFall (t : TW64) (s : State) : Host.Outcome State Fault Refusal :=
  s.onMach true fun m =>
    m.when (m.rd E.MODULE_STATE != 0 && m.flagOn 3) fun m =>
      { m with pair.fall := some t, pair.lowAt := m.ns, pair.guardDone := false }.underGate fun m => m.flag 3 false

/-- PARTNER_OWN_RISE (R397, R420). -/
def execPartnerOwnRise (s : State) : Host.Outcome State Fault Refusal :=
  s.onMach true fun m =>
    m.when (m.rd E.MODULE_STATE != 0 && !m.flagOn 3) fun m =>
      ({ m with pair.fall := none, pair.guardDone := false }.underGate fun m => m.flag 3 true).settleClash

/-- The partner's OWN has read deasserted for OWN_GUARD, in slot B for 50 µs more during the first 10 s after start-up (R397). -/
def Mach.guardOver (m : Mach) : Bool :=
  decide (m.pair.lowAt + m.rd E.OWN_GUARD * 1000 + (if m.slotA = false ∧ m.ns < m.pair.since + 10 ^ 10 then 50000 else 0) ≤ m.ns)

/-- OWN_GUARD_EXPIRY (R397, R400): a STANDBY module takes ownership, with AUTH at `t`; another asserts OWN where it is to. -/
def execOwnGuardExpiry (t : TW64) (s : State) : Host.Outcome State Fault Refusal :=
  s.onMach true fun m =>
    m.when (m.rd E.MODULE_STATE != 0 && !m.flagOn 3 && !m.pair.guardDone && m.guardOver) fun m =>
      ({ m with pair.guardDone := true }.tryTakeover t).tryOwn

/-- 1 ms has passed since the release after a clash (R397). -/
def Mach.clashOver (m : Mach) : Bool :=
  match m.pair.clash with
  | some a => decide (a + 1000000 ≤ m.ns)
  | none => false

/-- OWN_RETRY (R397). -/
def execOwnRetry (s : State) : Host.Outcome State Fault Refusal :=
  s.onMach true fun m => m.when m.clashOver fun m => { m with pair.clash := none }.tryOwn

/-- The OWN driver is disabled (R396): a module that drove OWN lets it go with reason 1 and restarts (R399). -/
def Mach.ownDrops (m : Mach) (code : Nat) : Mach :=
  { m with pair.expired := true }.when (m.paired && m.flagOn 2) fun m => (m.release 1 0).warmRestart code

/-- KEEPALIVE_EXPIRY (R396): the timer has run out, in a module of any role. -/
def execKeepaliveExpiry (s : State) : Host.Outcome State Fault Refusal := s.onMach true fun m => m.ownDrops 5

/-- OWN_DROP_FAULT (R396): 0 lockstep mismatch, 1 uncorrectable memory error, 2 supply, 3 temperature (R399). -/
def execOwnDropFault (cause : Nat) (s : State) : Host.Outcome State Fault Refusal :=
  s.onMach (cause < 4) fun m => { m with pair.broken := m.pair.broken || decide (cause < 2) }.ownDrops (if cause = 1 then 1 else 5)

/-! ### Releases (R399) -/

/-- HOST_GRACE_EXPIRY: reason 4. -/
def execHostGraceExpiry (s : State) : Host.Outcome State Fault Refusal :=
  s.onMach true fun m => m.when (!m.ep.up && bitOf (m.partnerWord 0) 7 && m.maySwitch 4) fun m => m.switch_ 4

/-- A RUNNING contract names a position channel that is LOST here and not at the partner (R399 reason 6). -/
def Mach.posShort (m : Mach) : Bool :=
  (List.range 256).any fun s =>
    let n := m.rd E.POS_SRC s
    m.cstate s == cRUNNING && decide (n < 8) && bitOf m.posLost n && !bitOf (m.partnerWord 0) (24 + n)

/-- UPLINK_GRACE_EXPIRY: reason 5, or 6 for a position channel. -/
def execUplinkGraceExpiry (position : Bool) (s : State) : Host.Outcome State Fault Refusal :=
  s.onMach true fun m =>
    if position then m.when (m.posShort && m.maySwitch 6) fun m => m.switch_ 6
    else m.when (decide (m.fed < bitsOf (m.partnerWord 0) 23 16) && m.maySwitch 5) fun m => m.switch_ 5

/-- A valve port has entered chain fault: reason 7, with no such switch on that port in the last second (R399). -/
def Mach.chainSwitch (m : Mach) (v : Nat) : Mach :=
  let free : Bool := match m.pair.portSwitch.find? fun k => k.1 == v with | some k => decide (k.2 + 10 ^ 9 ≤ m.ns) | none => true
  m.when (free && m.maySwitch 7) fun (m : Mach) =>
    let m : Mach := { m with pair.portSwitch := SMap.put v m.ns m.pair.portSwitch }
    m.switch_ 7

/-- VALVE_UPDATE (R272 to R278, R280): at the first cycle at which TW64 has reached Un; before it the update waits. -/
def execValveUpdate (v : Nat) (returned : List Bool) (s : State) : Host.Outcome State Fault Refusal :=
  s.onMach (v < 8) fun m =>
    m.when (m.ioOn && (m.vport v).grid && m.reachedTime (m.vport v).un) fun m =>
      let n := m.valveUpdate v returned
      if (m.vport v).fault = false ∧ (n.vport v).fault then n.chainSwitch v else n

/-- PAIR_CMD_SWITCH (R399): reason 9. -/
def execPairCmdSwitch (path : Nat) (s : State) : Host.Outcome State Fault Refusal :=
  s.onMach (path < 5) fun m =>
    m.command path 0x6400 0x0E [1] (m.role == 1 && m.flagOn 2 && m.partnerStandby) fun m => m.release 9 2

/-! ### WAITING, BARRED, SYNCING (R417 to R419) -/

/-- PAIR_CMD_CLEAR_BAR (R419): a paired module applies R417, another is READY. -/
def execPairCmdClearBar (path : Nat) (s : State) : Host.Outcome State Fault Refusal :=
  s.onMach (path < 5) fun m =>
    m.command path 0x6400 0x0E [2] (m.role == 4 && m.rd E.MODULE_STATE == 9) fun m =>
      let m := { m with pair.faulty := [], pair.restarts := 0 }
      if m.paired then (m.setRole 5).joinPair else m.setRole 0

/-- PAIR_CMD_FORCE_ALONE (R417, R438). -/
def execPairCmdForceAlone (path : Nat) (s : State) : Host.Outcome State Fault Refusal :=
  s.onMach (path < 5) fun m =>
    m.command path 0x6400 0x0E [3] (m.role == 5 && !m.flagOn 3) fun m =>
      let m := (m.record 7 [5]).flag 9 true
      ({ m with pair.want := true }.flag 0 true).setRole 1 |>.tryOwn

/-- SYNCING_TIMEOUT (R418): SYNCING restarts, and the third restart in a row bars the module. The active module sends everything again. -/
def execSyncingTimeout (s : State) : Host.Outcome State Fault Refusal :=
  s.onMach true fun m =>
    if m.role = 3 ∧ m.rd E.MODULE_STATE = 6 then
      let m := { m with pair.restarts := m.pair.restarts + 1 }
      if 3 ≤ m.pair.restarts then m.bar else m.joinPair
    else { m with pair.syncTo := false, pair.giveStart := [] }

end Sys2Proof.Machine
end

