-- ==== Sys2Proof/Machine/Life.lean ====
section
/-! DEFINITION. The module's life: start-up and hot plug (R467, R468, R472, R473, R496), wake and drain (R469 to R471), island
recovery (R474, R475), the Bench watchdog (R476), firmware (R478 to R481), the closing fuse (R483), the configuration store
(R431 to R433), and the Almanac (R484 to R487). -/

namespace Sys2Proof.Machine

/-! ### The configuration store (R431 to R433) -/

/-- EMCY_COBID without a stored value: 0x80 + node ID (R445). -/
def Mach.emcyDefault (m : Mach) : Nat := 0x80 + m.rd E.CAN_NODE_ID

/-- The persistent values in force that differ from their defaults. -/
def Mach.persisted (m : Mach) : SMap Val :=
  m.dict.filter fun (x : Nat × Val) =>
    (entryTable.any fun e => e.persist && e.holds x.1) && !(x.1 == E.EMCY_COBID.key 0 && x.2 == .num m.emcyDefault)

/-- What a copy's CRC-32C runs over (R431, notes/assumptions/36.md): its generation, then key, length and bytes of each value. -/
def storeImage (gen : Nat) (vals : SMap Val) : Bytes :=
  leBytes 4 gen ++ vals.flatMap fun (x : Nat × Val) => let b := x.2.toBytes; leBytes 4 x.1 ++ leBytes 4 b.length ++ b

/-- The copy has been written and its CRC-32C is right. -/
def Store.intact (x : Store) : Bool := x.valid && x.crc == crc32c (storeImage x.gen x.vals)

/-- The copy of the store that holds the latest generation, when one is valid (R431). -/
def Mach.latestStore (m : Mach) : Option Store :=
  let a := m.life.stores.1
  let b := m.life.stores.2
  if a.intact ∧ (b.intact = false ∨ b.gen ≤ a.gen) then some a else if b.intact then some b else none

/-- Write the store, in the copy that does not hold the latest generation (R431). -/
def Mach.writeStore (m : Mach) : Mach :=
  let gen := match m.latestStore with | some x => x.gen + 1 | none => 1
  let vals := m.persisted
  let new : Store := { valid := true, gen := gen, vals := vals, crc := crc32c (storeImage gen vals) }
  let first := m.latestStore == some m.life.stores.1
  let m := { m with life.stores := if first then (m.life.stores.1, new) else (new, m.life.stores.2) }
  ((m.wr E.STORE_GEN 0 gen).inc E.STORE_WRITES 0).wr E.STORE_PENDING 0 0

/-- A restored value that breaks its range is clamped and counts with path 4 (R432); it is then not yet stored (R431). -/
def Mach.checkStored (m : Mach) (e : Entry) (k : Nat) : Mach :=
  let old := m.val e k
  let c : Clamped := if e.ty.numeric then m.clampNum e k (if e.ty.signed then m.rdI e k else (m.rd e k : Int)) else m.convert e k old.toBytes
  let r := m.legal e k c.val
  if r.val = old then m else ((m.setVal e k r.val).wr E.STORE_PENDING 0 1).tallyE 4 e k (firstKind c.kind r.kind) (old.first8 e)

/-- Restore the values of a copy (R432). -/
def Mach.restoreVals (m : Mach) (vals : SMap Val) : Mach :=
  let rows := vals.filterMap fun x => match findEntry (x.1 / 256) (x.1 % 256) with
    | some r => if r.1.persist then some (r.1, r.2, x.2) else none
    | none => none
  let m := rows.foldl (fun (m : Mach) r => m.setVal r.1 r.2.1 r.2.2) m
  rows.foldl (fun (m : Mach) r => m.checkStored r.1 r.2.1) m

/-- Start-up restores the store (R432, R433). -/
def Mach.restoreStore (m : Mach) : Mach :=
  if m.life.restore then { m with life.restore := false }.writeStore
  else match m.latestStore with | some x => m.restoreVals x.vals | none => m

/-- STORE_WRITE (R431). -/
def execStoreWrite (s : State) : Host.Outcome State Fault Refusal :=
  s.onMach true fun m => m.when (m.rd E.STORE_PENDING == 1) Mach.writeStore

/-- A write of RESTORE_DEFAULTS (R433). -/
def Mach.restoreDefaults (m : Mach) (path : Nat) (data : Bytes) : Mach :=
  m.keyed path E.RESTORE_DEFAULTS 0 data true 0x64616F6C fun m => { m with life.restore := true }

/-- RESTORE_DEFAULTS (R433). -/
def execRestoreDefaults (path : Nat) (data : Bytes) (s : State) : Host.Outcome State Fault Refusal :=
  s.onMach (path < 5) fun m => m.restoreDefaults path data

/-! ### Start-up (R472) -/

/-- The module is powered: the Bench runs. -/
def Mach.powered (m : Mach) : Bool := m.life.supply

/-- Steps 1 to 5 of R472: the supply is there, the presence contact of the slot is grounded (R492), and the Bench starts. -/
def Mach.powerUp (m : Mach) (slot : Nat) : Mach :=
  let m := { m with slotId := slot, life.supply := true, ltc := 0, pair.since := 0 }.emit (.presence (slot % 2) true)
  let m := m.restoreStore
  let m := ((m.wr E.PAIR_SLOT 0 (slot % 2)).wr E.TWI_ADDRESS 0 (0x58 + slot)).canInit
  let m := if m.dict.any fun x => x.1 == E.EMCY_COBID.key 0 then m else m.wr E.EMCY_COBID 0 m.emcyDefault
  let m := ((m.setIsland 0x31 1).setIsland 0x33 1).setIsland 0x35 1
  let m := if m.life.trial.isSome then { m with life.trial := some 0, life.trialUp := none }.fwFlag 3 true else m
  m.boot.chooseGm

/-- POWER_ON (R472 steps 1 to 5): the module stays OFF until ATTACHED. -/
def execPowerOn (slot : Nat) (s : State) : Host.Outcome State Fault Refusal :=
  s.onMach (slot < 8) fun m => m.when (m.rd E.MODULE_STATE == 0 && !m.powered) fun m => m.powerUp slot

/-- Start-up ends (R468): without a valid firmware bank the module stays ATTACHED (R479). -/
def Mach.startUpEnd (m : Mach) : Mach :=
  if m.life.bootless then m else if m.rd E.BOOT_POLICY = 0 then m.wake else m.powerDown

/-- One year-life part of R486 consumes at once, in 2^-32 h. -/
def Mach.consume (m : Mach) (k n : Nat) : Mach :=
  let p := m.almanac.parts.get {} k
  { m with almanac.parts := SMap.put k { p with extra := p.extra + n } m.almanac.parts }

/-- 219,150 h of rated life in 2^-32 h (R486). -/
def ratedLife : Nat := 219150 * 2 ^ 32

/-- SENSE_LOOP_CLOSED (R468, R472, R484, R486). -/
def execSenseLoopClosed (s : State) : Host.Outcome State Fault Refusal :=
  s.onMach true fun m =>
    m.when (m.rd E.MODULE_STATE == 0 && m.powered && !m.life.outRange) fun m =>
      let m := ({ m with life.sense := true }.inc E.MATINGS 0).record 5 [m.rd E.ERA, m.slotId, 0]
      ((m.consume 0x3E (ratedLife / 250)).setModState 1).startUpEnd

/-! ### Removal and power loss (R468, R473, R496) -/

/-- SENSE_LOOP_BREAK (R473): OWN is released with reason 8; outside a pair authority falls. -/
def execSenseLoopBreak (s : State) : Host.Outcome State Fault Refusal :=
  s.onMach true fun m =>
    m.when (m.rd E.MODULE_STATE != 0 && m.life.sense) fun m =>
      let m := { m with life.sense := false, life.removal := some m.ns }.setModState 8
      let m := if m.paired ∧ m.flagOn 2 then m.release 8 0 else m
      (m.underGate fun m => { m with drainTo := 2 }).record 5 [m.rd E.ERA, m.slotId, 1]

/-- SENSE_LOOP_RESTORE (R473): within 10 ms the removal is abandoned. -/
def execSenseLoopRestore (s : State) : Host.Outcome State Fault Refusal :=
  s.onMach true fun m =>
    match m.life.removal with
    | none => m
    | some t =>
      m.when (m.rd E.MODULE_STATE == 8 && decide (m.ns ≤ t + 10 ^ 7) && !m.life.outRange) fun m =>
        let m := ({ m with life.sense := true, life.removal := none }.inc E.REMOVAL_ABORTS 0).record 5 [m.rd E.ERA, m.slotId, 2]
        if m.life.bootless then { m with drainTo := 0 }.setModState 1 else m.warmRestart 6

/-- SUPPLY_OUT_OF_RANGE (R396, R399, R496): OWN drops with reason 1, and the module restarts. -/
def execSupplyOutOfRange (s : State) : Host.Outcome State Fault Refusal :=
  s.onMach true fun m => m.when m.powered fun m => { m with life.outRange := true }.ownDrops 5

/-- SUPPLY_IN_RANGE (R496). -/
def execSupplyInRange (s : State) : Host.Outcome State Fault Refusal := s.onMach true fun m => { m with life.outRange := false }

/-- SUPPLY_LOSS (R468, R496). -/
def execSupplyLoss (s : State) : Host.Outcome State Fault Refusal := s.onAll true fun _ m => powerOff m

/-- JUNCTION_OVERTEMP (R468). -/
def execJunctionOvertemp (s : State) : Host.Outcome State Fault Refusal := s.onAll true fun h m => if m.powered then powerOff m else (h, m)

/-- JUNCTION_OPERATING_LIMIT (R396, R443). -/
def execJunctionOperatingLimit (above : Bool) (s : State) : Host.Outcome State Fault Refusal :=
  s.onMach true fun m => m.when m.powered fun m => { m with life.hot := above }

/-! ### Wake, DORMANT, warm restart (R468 to R471, R475) -/

/-- A DORMANT module wakes for a cause (R471). -/
def Mach.wakeFor (m : Mach) (cause : Nat) : Mach := m.when (m.rd E.MODULE_STATE == 2) fun m => (m.wr E.WAKE_SOURCE 0 cause).wake

/-- WAKE_N (R471). -/
def execWakeN (s : State) : Host.Outcome State Fault Refusal := s.onMach true fun m => m.wakeFor 1

/-- A write of MODULE_CMD: 1 wake, 2 dormant, 3 warm restart; other values have no effect (R468, R471, R475). -/
def Mach.moduleCmd (m : Mach) (path k : Nat) : Mach :=
  let st := m.rd E.MODULE_STATE
  if k = 1 then m.command path 0x6C00 0x02 [1] (st == 2) fun m => m.wakeFor 2
  else if k = 2 then m.command path 0x6C00 0x02 [2] (st == 4 || st == 5 || st == 6 || st == 9) Mach.beginDrain
  else m.command path 0x6C00 0x02 [3] (decide (3 ≤ st)) fun m => m.warmRestart 3

/-- MODULE_CMD_WAKE (R471). -/
def execModuleCmdWake (path : Nat) (s : State) : Host.Outcome State Fault Refusal := s.onMach (path < 5) fun m => m.moduleCmd path 1

/-- MODULE_CMD_DORMANT (R468, R469). -/
def execModuleCmdDormant (path : Nat) (s : State) : Host.Outcome State Fault Refusal := s.onMach (path < 5) fun m => m.moduleCmd path 2

/-- MODULE_CMD_WARM_RESTART (R475). -/
def execModuleCmdWarmRestart (path : Nat) (s : State) : Host.Outcome State Fault Refusal := s.onMach (path < 5) fun m => m.moduleCmd path 3

/-- A write of BOOT_POLICY (R468, R471). -/
def Mach.writeBootPolicy (m : Mach) (path : Nat) (data : Bytes) : Mach :=
  m.writeEntry path E.BOOT_POLICY 0 data fun _ m => if path = 3 ∧ m.rd E.BOOT_POLICY = 0 then m.wakeFor 3 else m

/-- BOOT_POLICY (R471). -/
def execBootPolicy (path : Nat) (data : Bytes) (s : State) : Host.Outcome State Fault Refusal :=
  s.onMach (path < 5) fun m => m.writeBootPolicy path data

/-- DRAIN_COMPLETE (R469): nothing staged for the host is left. -/
def execDrainComplete (s : State) : Host.Outcome State Fault Refusal :=
  s.onMach true fun m =>
    m.when (m.draining && m.ep.writes.isEmpty && m.chans.all fun x => x.2.queue.isEmpty && x.2.issued.isEmpty && (x.2.redo.isEmpty || !m.mayRequest))
      Mach.powerDown

/-- BENCH_IDLE_STOP (R471): 1 s after the last gateway request has ended, or the wake where none came since (notes/assumptions/44.md). -/
def execBenchIdleStop (s : State) : Host.Outcome State Fault Refusal :=
  s.onMach true fun m => m.when (m.rd E.MODULE_STATE == 2 && m.gw.run.isNone && decide (m.gw.endAt + 10 ^ 9 ≤ m.ns)) fun m => { m with life.awake := false }

/-- What WAKING ends in (R417, R467, R470, R475): `failed` names the HBM stacks that failed twice, `present` what DVT_PRES of the
partner reads. A module that a failure has barred stays BARRED until its next start-up, or until PAIR_CMD 2 where no failed island bars it. -/
def Mach.wakingDone (m : Mach) (failed : Nat) (present : Bool) : Mach :=
  let m := { m with pair.presLine := present, pair.presSeen := m.pair.presSeen || present }.flag 4 present
  let m := m.each (0x33 :: dataIslands) fun i m => if m.rd E.ISLAND_STATE i = 2 then m.setIsland i 1 else m
  let m := m.each ((List.range 8).filter fun i => bitOf failed i) fun i m => (m.setIsland (0x28 + i) 3).record 6 [0x500 + 0x28 + i]
  let dead : Bool := (List.range 0x36).any fun i => decide (40 ≤ i) && m.rd E.ISLAND_STATE i == 3
  let m : Mach := { m.wr E.MODULE_STATE 0 4 with fail8 := some m.ns }
  if dead ∨ m.role = 4 then m.bar
  else if m.paired then m.joinPair
  else ((m.record 6 [4]).setRole 0).trialReached

/-! ### Islands in recovery (R474, R475) -/

/-- An island enters recovery (R474, R475): the third time within 1 h it is failed. -/
def Mach.enterRecovery (i : Nat) (h : Memory) (m : Mach) : Mach :=
  let l := (m.life.recoveries ++ [(i, m.ns)]).filter fun x => decide (m.ns < x.2 + 3600 * 10 ^ 9)
  let m := (({ m with life.recoveries := l }.inc E.RECOVERIES i).record 6 [0x400 + i]).setIsland i 2
  let m := if 24 ≤ i ∧ i < 40 then abortPlaner (i - 24) h m else m
  let m := if i = 0x31 ∧ m.ep.up then m.linkDown else m
  let m : Mach := if 3 ≤ m.recoveriesOf i then m.islandFailed i
    else if i < 24 then ((m.setQuad i {}).quadChanged i).each ((List.range 4).map (4 * i + ·)) fun l m => m.freeOffset l
    else if i < 40 ∨ i = 0x31 then m
    else if 3 ≤ m.rd E.MODULE_STATE then m.warmRestart 1 else m
  if m.life.trialUp.isSome then m.trialReturn else m

/-- An island runs and sends heartbeats (R474). -/
def Mach.beats (m : Mach) (i : Nat) : Bool := i != 0x35 && m.rd E.ISLAND_STATE i == 1

/-- The host island fails for another cause than its data link (R396). -/
def Mach.hostFails (m : Mach) (i : Nat) : Mach := if i = 0x31 then { m with life.hostFault := true } else m

/-- HEARTBEAT_MISS (R474). -/
def execHeartbeatMiss (i : Nat) (s : State) : Host.Outcome State Fault Refusal :=
  s.onMach (i < 54) fun m => m.when (m.beats i) fun m => ((m.inc E.HEARTBEAT_MISSES i).hostFails i).enterRecovery i s.hbm

/-- ISLAND_FAULT (R396, R474): loss of a PLL's lock, or an uncorrectable error in the island's storage, which in a memory island
drops OWN at once. -/
def execIslandFault (i : Nat) (storage : Bool) (s : State) : Host.Outcome State Fault Refusal :=
  s.onMach (i < 54) fun m =>
    m.when (m.beats i) fun m =>
      let m := if storage ∧ 0x28 ≤ i ∧ i < 0x30 ∧ m.paired ∧ m.flagOn 2 then m.release 1 0 else m
      (m.hostFails i).enterRecovery i s.hbm

/-- DATA_LINK_DOWN (R334, R474, R475). -/
def execDataLinkDown (s : State) : Host.Outcome State Fault Refusal :=
  s.onMach true fun m => m.when m.ep.up fun m => if m.beats 0x31 then m.enterRecovery 0x31 s.hbm else m.linkDown

/-- ISLAND_RECOVERED (R475): the host island recovers with its link. -/
def execIslandRecovered (i : Nat) (s : State) : Host.Outcome State Fault Refusal :=
  s.onMach (i < 54) fun m => m.when (m.rd E.ISLAND_STATE i == 2 && (i != 0x31 || m.ep.up)) fun m =>
    let m := m.setIsland i 1
    if i = 0x31 then { m with life.hostFault := false } else m

/-! ### The Bench watchdog and firmware (R476, R478 to R481) -/

/-- The Bench cores restart (R476, R479). -/
def Mach.benchRestart (m : Mach) : Mach :=
  let m := m.benchLost.boot
  if m.rd E.MODULE_STATE = 1 then m.startUpEnd else m

/-- BENCH_WATCHDOG (R476, R481). -/
def execBenchWatchdog (s : State) : Host.Outcome State Fault Refusal :=
  s.onMach true fun m =>
    m.when (m.powered && (m.rd E.MODULE_STATE != 2 || m.life.awake)) fun m =>
      let failed := m.life.trialUp.isSome
      let l := (m.life.expiries ++ [m.ns]).filter fun t => decide (m.ns < t + 3600 * 10 ^ 9)
      let m := { m with life.expiries := l }.inc E.BENCH_RESETS 0
      let m := if failed then m.trialReturn else m.benchRestart
      if 3 ≤ l.length ∧ 3 ≤ m.rd E.MODULE_STATE then { m with life.expiries := [] }.warmRestart 2 else m

/-- The bank that is not active. -/
def Mach.spare (m : Mach) : Nat := 1 - m.rd E.FW_ACTIVE

/-- Put FW_STATE [1:0]. -/
def Mach.fwState (m : Mach) (n : Nat) : Mach := m.wr E.FW_STATE 0 (m.rd E.FW_STATE / 4 * 4 + n)

/-- The inactive bank is erased for a load (R480 step 1). -/
def Mach.fwErase (m : Mach) : Mach := ((m.setBank m.spare {}).wr E.FW_OFFSET 0 0).fwState 1

/-- A write of FW_SIZE. -/
def Mach.writeFwSize (m : Mach) (path : Nat) (data : Bytes) : Mach := m.writeEntry path E.FW_SIZE 0 data fun _ m => m.fwErase

/-- FW_SIZE (R480 step 1). -/
def execFwSize (path : Nat) (data : Bytes) (s : State) : Host.Outcome State Fault Refusal :=
  s.onMach (path < 5) fun m => m.writeFwSize path data

/-- Store bytes at FW_OFFSET; those beyond FW_SIZE are discarded, as by the table loader (R186, R480 step 2). -/
def Mach.fwStore (m : Mach) (b : Bytes) : Mach :=
  let o := m.rd E.FW_OFFSET
  let b := b.take (m.rd E.FW_SIZE - o)
  let x := m.bank m.spare
  let m := m.wr E.FW_OFFSET 0 (o + b.length)
  if b.isEmpty then m else m.setBank m.spare { x with bytes := x.bytes ++ b }

/-- A write of FW_DATA. -/
def Mach.writeFwData (m : Mach) (path : Nat) (data : Bytes) : Mach :=
  m.command path 0x7040 0x06 data (m.rd E.FW_STATE % 4 == 1) fun m =>
    let m := if 4096 < data.length then m.tally path 0x7040 0x06 5 data else m
    m.fwStore (data.take 4096)

/-- FW_DATA (R480 step 2). -/
def execFwData (path : Nat) (data : Bytes) (s : State) : Host.Outcome State Fault Refusal :=
  s.onMach (path < 5) fun m => m.writeFwData path data

/-- Verify the inactive bank (R479, R480 step 3). -/
def Mach.fwVerify (m : Mach) : Mach :=
  let b := m.spare
  let x := m.bank b
  let x := if x.shipped then x else { x with valid := imageOk x.bytes }
  let m := if x.shipped then m else { m with life.banks := if b = 0 then (x, m.life.banks.2) else (m.life.banks.1, x) }
  if m.boots b then (m.fwState 2).record 7 [1] else m.fwState 3

/-- Abandon a load (R480). -/
def Mach.fwAbandon (m : Mach) : Mach :=
  let recv := match m.life.recv with | some b => if b.object = 1 then none else some b | none => none
  ({ m with life.recv := recv, life.activate := false }.setBank m.spare {}).fwState 0

/-- FW_CMD 3 (R480 step 5): a Bench restart and, from WAKING on, a warm restart (R468), which a trial that begins here has still to
bring up (R481). -/
def Mach.fwRestart (m : Mach) : Mach :=
  let on := decide (3 ≤ m.rd E.MODULE_STATE)
  let again := m.life.activate
  let m := m.benchRestart
  let m := if again then { m with life.trialUp := none } else m
  if on then m.warmRestart 4 else m

/-- A write of FW_CMD: 1 verify, 2 activate, 3 restart, 4 abandon (R480). -/
def Mach.fwCmd (m : Mach) (path k : Nat) : Mach :=
  let st := m.rd E.FW_STATE % 4
  let c := fun ok f => m.command path 0x7040 0x07 [BitVec.ofNat 8 k] ok f
  if k = 1 then c true Mach.fwVerify
  else if k = 2 then c (st == 2) fun m => { m with life.activate := true }.record 7 [2]
  else if k = 3 then c true Mach.fwRestart
  else c (st != 0) Mach.fwAbandon

/-- FW_CMD_VERIFY (R480). -/
def execFwCmdVerify (path : Nat) (s : State) : Host.Outcome State Fault Refusal := s.onMach (path < 5) fun m => m.fwCmd path 1
/-- FW_CMD_ACTIVATE (R480). -/
def execFwCmdActivate (path : Nat) (s : State) : Host.Outcome State Fault Refusal := s.onMach (path < 5) fun m => m.fwCmd path 2
/-- FW_CMD_RESTART (R480). -/
def execFwCmdRestart (path : Nat) (s : State) : Host.Outcome State Fault Refusal := s.onMach (path < 5) fun m => m.fwCmd path 3
/-- FW_CMD_ABANDON (R480). -/
def execFwCmdAbandon (path : Nat) (s : State) : Host.Outcome State Fault Refusal := s.onMach (path < 5) fun m => m.fwCmd path 4

/-- 120 s after its start a trial has not brought the module up (R481). -/
def Mach.trialLate (m : Mach) : Bool :=
  m.life.trialUp.isNone && m.life.trial.any fun t => decide (t + 120 * 10 ^ 9 ≤ m.ns)

/-- A trial in progress has run for 600 s from the instant at which the module was up (R481). -/
def Mach.trialRun (m : Mach) : Bool :=
  m.life.trial.isSome && m.life.trialUp.any fun t => decide (t + 600 * 10 ^ 9 ≤ m.ns)

/-- TRIAL_DEADLINE (R481). -/
def execTrialDeadline (s : State) : Host.Outcome State Fault Refusal :=
  s.onMach true fun m => m.when m.trialLate Mach.trialReturn

/-- TRIAL_END (R481): SEC_MIN rises to the security version of the bank. -/
def execTrialEnd (s : State) : Host.Outcome State Fault Refusal :=
  s.onMach true fun m =>
    m.when m.trialRun fun m =>
      let m := { m with life.trial := none, life.trialUp := none }.peak E.SEC_MIN 0 (m.bank (m.rd E.FW_ACTIVE)).sec
      (m.fwFlag 3 false).record 7 [7]

/-! ### The closing fuse (R483) -/

/-- The two values of FUSE_CMD, in order. -/
def fuseFirst : Nat := 0x434C4F53
/-- See `fuseFirst`. -/
def fuseSecond : Nat := 0x46555345

/-- A write of FUSE_CMD. -/
def Mach.writeFuse (m : Mach) (path : Nat) (data : Bytes) : Mach :=
  let v := writtenInt E.FUSE_CMD.ty data
  let no := fun kind => m.tallyE path E.FUSE_CMD 0 kind data
  if m.serves path = false then m
  else if (path ≠ 0 ∧ path ≠ 3) ∨ m.permitted path 0x7050 0x01 0 = false then no 9
  else if v = (fuseFirst : Int) then { m with life.fuse := some (path, m.ns) }
  else if v = (fuseSecond : Int) then
    match m.life.fuse with
    | some (p, t) => if p = path ∧ m.ns ≤ t + 10 ^ 9 then { m with life.fuse := none, life.blowing := true } else no 8
    | none => no 8
  else no 1

/-- FUSE_CMD (R483). -/
def execFuseCmd (path : Nat) (data : Bytes) (s : State) : Host.Outcome State Fault Refusal :=
  s.onMach (path < 5) fun m => m.writeFuse path data

/-- FUSE_BLOWN (R483). -/
def execFuseBlown (s : State) : Host.Outcome State Fault Refusal :=
  s.onMach true fun m => m.when m.life.blowing fun m => ({ m with life.blowing := false }.wr E.FUSE_STATE 0 1).record 7 [6]

/-! ### The Almanac (R484 to R487) -/

/-- A write of CAL_CMD (R485). -/
def Mach.calCmd (m : Mach) (path : Nat) (data : Bytes) : Mach :=
  m.keyed path E.CAL_CMD 0 data true 1 fun m =>
    let c := (m.rd E.CAL_ERA, m.rd E.CAL_TW64, m.rd E.CAL_TAI, m.rd E.CAL_UTC)
    ({ m with almanac.cal := c }.inc E.ALMANAC_GEN 0).record 8 [c.1, c.2.1, c.2.2.1, c.2.2.2]

/-- TAI at time `t` of era `e` by the calendar in force (R485), exact: in units of 1 s / (256 × 10^9). -/
def Mach.tai (m : Mach) (e : Nat) (t : TW64) : Int :=
  let c := m.almanac.cal
  (signedOf 64 c.2.2.1) * (256 * 10 ^ 9) + ((e : Int) - c.1) * 2 ^ 64 + ((t.toNat : Int) - c.2.1)

/-- CAL_CMD (R485). -/
def execCalCmd (path : Nat) (data : Bytes) (s : State) : Host.Outcome State Fault Refusal :=
  s.onMach (path < 5) fun m => m.calCmd path data

/-- What a record of corrected errors holds (R484): the stack and the count of each of its channels. -/
def Mach.errorCounts (m : Mach) (stack : Nat) : List Nat :=
  stack :: (List.range 16).map fun c => leAt (m.rdB E.HBM_CE stack) (8 * c) 8

/-- What a record of a junction histogram holds (R484): the island, and minutes and sum of each bin. -/
def Mach.histogram (m : Mach) (i : Nat) : List Nat :=
  i :: (List.range 26).flatMap fun b => [leAt (m.rdB E.TJ_HIST i) (12 * b) 4, leAt (m.rdB E.TJ_HIST i) (12 * b + 4) 8]

/-- HBM_CORRECTED_ERROR (R484, R487). -/
def execHbmCorrectedError (stack channel : Nat) (s : State) : Host.Outcome State Fault Refusal :=
  s.onMach (stack < 8 ∧ channel < 16) fun m =>
    m.when (m.rd E.ISLAND_STATE (0x28 + stack) != 0) fun m =>
      let b := m.rdB E.HBM_CE stack
      let n := leAt b (8 * channel) 8 + 1
      let hours := m.almanac.ce.get [] stack
      let hours := (hours.headD 0 + 1) :: hours.drop 1
      let m := { m with almanac.ce := SMap.put stack hours m.almanac.ce }.wrB E.HBM_CE stack (putBytes b (8 * channel) (leBytes 8 n))
      let m := m.advise (0x36 + stack)
      if n % 100 = 0 then m.record 3 (m.errorCounts stack) else m

/-- The bin of a junction temperature in 0.1 °C (R484). -/
def tempBin (t : Int) : Nat := Nat.min 25 (Int.fdiv t 50).toNat

/-- One sample of an island (R484). -/
def Mach.sampleIsland (m : Mach) (i : Nat) (t : Int) : Mach :=
  let m := m.wrI E.TJ_NOW i t
  let key := 26 * i + tempBin t
  let o := 12 * tempBin t
  let b := m.rdB E.TJ_HIST i
  let secs := m.almanac.secs.get 0 key + 1
  let full := decide (60 ≤ secs)
  let b := putBytes b o (leBytes 4 (leAt b o 4 + bn full))
  let b := putBytes b (o + 4) (leBytes 8 (patternOf 64 (signedOf 64 (leAt b (o + 4) 8) + t)))
  let h := m.almanac.hour.get (0, 0) key
  { m with almanac.secs := SMap.set 0 m.almanac.secs key (if full then 0 else secs)
           almanac.hour := SMap.put key (h.1 + 1, h.2 + t) m.almanac.hour }.wrB E.TJ_HIST i b

/-- Turning points of a temperature with a threshold: the last extreme and the running one; a swing that ends is answered, signed
(notes/assumptions/41.md). -/
def turn (th : Int) (s : Option (Int × Int)) (t : Int) : Option (Int × Int) × Option Int :=
  match s with
  | none => (some (t, t), none)
  | some (e, c) =>
    if (e ≤ c ∧ c ≤ t) ∨ (c ≤ e ∧ t ≤ c) then (some (e, t), none)
    else if th ≤ ((c - t).natAbs : Int) then (some (c, t), if th ≤ ((c - e).natAbs : Int) then some (c - e) else none)
    else (some (e, c), none)

/-- What a sample does (R484, R486, R488). The temperatures are islands 0 to 53 and the cold plate; SUPPLY_V and INPUT_POWER follow. -/
def Mach.sampleAll (m : Mach) (temps : List Nat) : Mach :=
  let t := fun i => signedOf 16 (temps.getD i 0)
  let m := m.each (List.range 54) fun i m => m.sampleIsland i (t i)
  let top := (List.range 54).foldl (fun r i => max r (t i)) (t 0)
  let m := (((m.wrI E.TJ_MAX 0 top).wrI E.PLATE_TEMP 0 (t 54)).wr E.SUPPLY_V 0 (temps.getD 55 0)).wr E.INPUT_POWER 0 (temps.getD 56 0)
  let a := turn 200 m.almanac.swing top
  let m := { m with almanac.swing := a.1 }
  let m := match a.2 with
    | some d =>
      let k := d.natAbs / 100
      { m with almanac.swings := SMap.put k (m.almanac.swings.get 0 k + 1) m.almanac.swings }.record 2 [d.natAbs]
    | none => m
  let b := turn 1 m.almanac.plate (t 54)
  let m := { m with almanac.plate := b.1 }
  match b.2 with
  | some d => if 0 < d then m.consume 0x40 (d.natAbs ^ 4 * ratedLife / (20000 * 400 ^ 4)) else m
  | none => m

/-- ALMANAC_SAMPLE (R484). -/
def execAlmanacSample (temps : List Nat) (s : State) : Host.Outcome State Fault Refusal :=
  s.onMach (true) fun m => m.when (m.rd E.MODULE_STATE != 0) fun m => m.sampleAll temps

/-- exp by its series in fixed point of 2^-96. -/
def expFix (x : Int) : Int :=
  ((List.range 120).foldl (fun (r : Int × Int) (k : Nat) => let t := Int.fdiv (r.2 * x) (2 ^ 96 * ((k : Int) + 1)); (r.1 + t, t)) (2 ^ 96, 2 ^ 96)).1

/-- A number of 2^-96 as a REAL32 (R486): rounded to 24 significant bits, to the even one at a tie (notes/assumptions/42.md). -/
def roundReal32 (x : Nat) : Nat :=
  if x < 2 ^ 24 then x
  else
    let u := 2 ^ (Nat.log2 x - 23)
    let q := x / u
    let r := 2 * (x % u)
    (if u < r ∨ (r = u ∧ q % 2 = 1) then q + 1 else q) * u

/-- AF of R486 at the mean of `n` samples of sum `sum` in 0.1 °C, in 2^-32 (notes/assumptions/42.md). -/
def afFix (n : Nat) (sum : Int) : Nat :=
  roundReal32 (expFix (Int.fdiv (1624700 * (sum - 850 * n) * 2 ^ 96) (35815 * (2 * sum + 5463 * n)))).toNat / 2 ^ 64

/-- Consumption of an island in the hour, in 2^-32 h: AF at the mean temperature of each bin, weighed by its samples (R486). -/
def Mach.hourOf (m : Mach) (i : Nat) : Nat :=
  let bins := (List.range 26).map fun b => m.almanac.hour.get (0, 0) (26 * i + b)
  let n := (bins.map Prod.fst).sum
  if n = 0 then 0 else (bins.map fun b => if b.1 = 0 then 0 else afFix b.1 b.2 * b.1).sum / n

/-- A part's hour ends (R486). -/
def Part.hour (p : Part) (c : Nat) : Part :=
  { used := p.used + c + p.extra, recent := ((c + p.extra) :: p.recent).take 2160, extra := 0 }

/-- days(k) (R486). -/
def Part.days (p : Part) : Nat :=
  let sum := p.recent.sum
  if sum = 0 then 65535 else Nat.min 65535 ((ratedLife - p.used) * p.recent.length / (24 * sum))

/-- A part's hour with its entries and its advice (R486, R487). -/
def Mach.partHour (m : Mach) (k c : Nat) : Mach :=
  let p := (m.almanac.parts.get {} k).hour c
  let m := { m with almanac.parts := SMap.put k p m.almanac.parts }
  ((m.wr E.PART_DAYS k p.days).wr E.PART_USED k (Nat.min 1000000 (p.used * 1000000 / ratedLife))).advise k

/-- What an hour does (R484, R486, R487). What the flash consumes is a free value (notes/assumptions/2.md). -/
def Mach.hourly (m : Mach) : Mach :=
  let m := m.inc E.POWERED_HOURS 0
  let m := m.record 0 [m.rd E.POWERED_HOURS]
  let m := m.each (List.range 54) fun i m => m.record 1 (m.histogram i)
  let m := m.each (List.range 8) fun i m => m.record 3 (m.errorCounts i)
  let islands := (List.range 54).map m.hourOf
  let m := m.each (List.range 54) fun i m => m.partHour i (islands.getD i 0)
  let m := m.each (List.range 8) fun i m => m.partHour (0x36 + i) (islands.getD (0x28 + i) 0)
  let m := m.partHour 0x3E 0
  let r := m.take 32
  let m := (r.2.partHour 0x3F r.1).partHour 0x40 0
  { m with almanac.hour := [], almanac.ce := m.almanac.ce.map fun x => (x.1, (0 :: x.2).take 720) }

/-- ALMANAC_HOUR (R484, R486, R487). -/
def execAlmanacHour (s : State) : Host.Outcome State Fault Refusal :=
  s.onMach (true) fun m => m.when (m.rd E.MODULE_STATE != 0) fun m => m.hourly

/-! ### Causes of the error register (R443) -/

/-- Error codes that stand, each with the entry that describes it. -/
def Mach.causesNow (m : Mach) : List (Nat × Nat) :=
  let one := fun (c : Bool) (x : Nat × Nat) => if c then [x] else []
  one m.latestStore.isNone (0x6100, 0x1F3001) ++
  one m.life.outRange (0x3100, 0x6C0007) ++
  one m.life.hot (0x4200, 0x6C000B) ++
  one (!m.ep.up && m.rd E.MODULE_STATE != 0) (0x8100, 0x5C0007) ++
  ((List.range 96).filter fun p => m.rd E.PORT_STATE p == 7 && m.rd E.QUAD_ROLE (p / 4) == 2).map (fun p => (0x8100, (0x6100 + p) * 256 + 1)) ++
  one (m.role == 4 || (m.paired && !m.xlinkUp && m.pair.heardAt.isSome)) (0xFF01, 0x640003) ++
  ((List.range 65).filter fun k => m.rd E.PART_ADVICE k != 0).map fun k => (0xFF02, (0x7100 + k) * 256 + 3)

/-- ERROR_REGISTER (R443). -/
def errorBits (l : List (Nat × Nat)) : Nat :=
  let has := fun c => l.any fun (x : Nat × Nat) => x.1 == c
  bn (has 0x6100) + 4 * bn (has 0x3100) + 8 * bn (has 0x4200) + 16 * bn (has 0x8100) + 128 * bn (has 0xFF01 || has 0xFF02)

end Sys2Proof.Machine
end

