-- ==== Sys2Proof/Machine/Dict.lean ====
section
/-! DEFINITION. The object dictionary as the access paths see it (R423 to R445): a read of any entry, a write of any entry with
everything its chapter makes of it, and the accumulation of long values (R440). -/

namespace Sys2Proof.Machine

/-! ### Reads (R15, R423, R424, R437) -/

/-- SCHED_STATE (R158): the oldest unfinished stripe of a stream. -/
def Mach.schedState (m : Mach) (s : Nat) : Nat :=
  let x := m.strm s
  match x.stripes with
    | [] => if x.admitted ∨ m.rd E.CONTRACT_STATE s = 4 then 1 else 0
    | p :: _ =>
      if p.started then 4 else if p.released = false then 2 else if m.withinBudget x p.terms then 3 else 5

/-- PLANER_STATE (R158): the kerf of R146 is the first 32 cycles of a stripe that spends one. -/
def Mach.planerState (m : Mach) (n : Nat) : Nat :=
  let pl := m.planer n
  if m.rd E.ISLAND_STATE (24 + n) = 2 then 4
  else if m.rd E.PLANER_STATE n = 1 ∧ pl.kerf ∧ (m.ltc.toNat - pl.startLtc) * 5 / 4 < 32 then 2
  else m.rd E.PLANER_STATE n

/-- The value of an entry that the module computes at the read; none for one that it holds. -/
def Mach.shown (m : Mach) (e : Entry) (k : Nat) : Option Nat :=
  if e = E.LTC then some m.ltc.toNat
  else if e = E.TW64_NOW then some m.now.toNat
  else if e = E.OFS then some m.timeSet.1
  else if e = E.RATE then some m.timeSet.2.1
  else if e = E.LTC_ANCHOR then some m.timeSet.2.2
  else if e = E.LEVELS_NOW then some ((List.range 64).foldl (fun r n => r + bn (m.level n) * 2 ^ n) 0)
  else if e = E.SCHED_STATE then some (m.schedState k)
  else if e = E.PLANER_STATE then some (m.planerState k)
  else if e = E.SLOTS_USED then some (m.strm k).slots.length
  else if e = E.LIMIT_NOW then some (m.share k)
  else if e = E.SLOT_BYTES then some (m.slotBytes k)
  else if e = E.ROOT_INFO ∧ m.tree.sent.isNone then some (m.rd E.FAB_EUI)
  else if e = E.EXTRA_USED then some (m.extraOthers 128)
  else if e = E.BANDS_MISSING then some (m.profile k).missingMask
  else if e = E.CONFIG_CRC then some m.configCrc
  else if e = E.PAIR_FLAGS then some (putBit (m.rd e) 1 m.auth)
  else if e = E.ERROR_REGISTER then some (errorBits m.causesNow)
  else none

/-- The bytes of an entry's value in force (R15, R424): a WO entry reads 0. A WO DOMAIN reads as no bytes, for R15 gives no length
(DESIGN CHOICE, notes/assumptions/11.md). -/
def Mach.valueBytes (m : Mach) (e : Entry) (k : Nat) : Bytes :=
  if e.acc = .wo then zeros (if e.ty.numeric then e.ty.bytes else 0)
  else if e = E.IN_FORCE then m.inForce k
  else match m.shown e k with
    | some n => leBytes e.ty.bytes n
    | none => match m.val e k with
      | .num n => leBytes e.ty.bytes n
      | .bytes b => b

/-- The type code of R424. -/
def Ty.code : Ty → Nat
  | .bool => 0x01
  | .i 1 => 0x02
  | .i 2 => 0x03
  | .i 4 => 0x04
  | .i _ => 0x15
  | .u 1 => 0x05
  | .u 2 => 0x06
  | .u 4 => 0x07
  | .u _ => 0x1B
  | .real32 => 0x08
  | .str _ => 0x09
  | .dom _ => 0x0F
  | .domVar _ _ _ => 0x0F
  | .tw64 => 0x20
  | .q _ _ => 0x21
  | .s _ _ => 0x22

/-- n of a Qm.n or sm.n type. -/
def Ty.frac : Ty → Nat
  | .q _ n => n
  | .s _ n => n
  | _ => 0

/-- The greatest size of an entry in bytes. -/
def Ty.room : Ty → Nat
  | .domVar _ hi _ => hi
  | t => t.bytes

/-- The access byte of MB_INFO [15:8] (R439). -/
def Entry.access (e : Entry) : Nat :=
  (match e.acc with | .ro => 1 | .rw => 2 | .wo => 3 | .rwq => 4 | .const => 5) + 16 * bn e.persist

/-- What a path is told of an entry: type code, access byte, n, width in bits, and size in force. -/
structure Info where
  ty : Nat := 0
  access : Nat := 0
  frac : Nat := 0
  width : Nat := 0
  size : Nat := 0
  deriving DecidableEq, Repr

/-- The description of an entry by index and subindex, with its value's bytes; none when there is no such entry. Subindex 0 of an
index whose entries begin at 1 is an RO U8 (R423). -/
def Mach.look (m : Mach) (index sub : Nat) : Option (Info × Bytes) :=
  match findEntry index sub with
  | some (e, k) =>
    let b := m.valueBytes e k
    some ({ ty := e.ty.code, access := e.access, frac := e.ty.frac, width := if e.ty.numeric then 8 * e.ty.bytes else 0, size := b.length }, b)
  | none => if sub = 0 then (highestSub index).map fun h => ({ ty := 0x05, access := 1, width := 8, size := 1 }, leBytes 1 h) else none

/-- The other half of the pair of COUNT and SAMPLE_TIME of a position channel (R246). -/
def otherHalf (index sub : Nat) : Option Nat :=
  if 0x4400 ≤ index ∧ index < 0x4408 then (if sub = 0x20 then some 0x23 else if sub = 0x23 then some 0x20 else none) else none

/-- The half of a pair that `who` has still to read. -/
def Mach.keptHalf (m : Mach) (who index sub : Nat) : Option ReadPair :=
  m.readPairs.find? fun (x : ReadPair) => x.who == who && x.index == index && x.sub == sub

/-- After a read of `who`: one half of a pair keeps the other as it was at that instant for the reader's read of it, so that COUNT
and SAMPLE_TIME are read as one pair (R246, notes/assumptions/53.md). -/
def Mach.afterRead (m : Mach) (who index sub : Nat) : Mach :=
  match otherHalf index sub with
  | none => m
  | some o =>
    let rest := m.readPairs.filter fun (x : ReadPair) => !(x.who == who && x.index == index)
    if (m.keptHalf who index sub).isSome then { m with readPairs := rest }
    else { m with readPairs := rest ++ [{ who := who, index := index, sub := o, data := ((m.look index o).map Prod.snd).getD [] }] }

/-- A read of `who` (R437): its result, the description and up to `length` bytes from `offset`. The offset counts in a DOMAIN or
STRING only. -/
def Mach.dictRead (m : Mach) (who index sub offset length : Nat) : Nat × Info × Bytes :=
  match m.look index sub with
  | none => (1, {}, [])
  | some (i, b) =>
    let b := match m.keptHalf who index sub with | some x => x.data | none => b
    if i.width ≠ 0 then (0, i, b.take length)
    else if b.length < offset then (2, i, [])
    else (0, i, (b.drop offset).take length)

/-! ### Writes with an effect of their own -/

/-- The state that a command answers; the present one where it has no meaning. -/
def State.ran (s : State) (o : Host.Outcome State Fault Refusal) : State :=
  match o with
  | .next t => t
  | _ => s

/-- The number of a written command, brought into the interval from `lo` to `hi`, and the machine with that clamp counted where the
command then acts (R427, notes/assumptions/11.md). One that goes to slot A is counted when it comes back to be applied (R403). -/
def Mach.clampCmd (m : Mach) (path index sub lo hi : Nat) (data : Bytes) (okState : Nat → Bool) : Nat × Mach :=
  let v := leNat (data.take 8)
  let k := if v < lo then lo else if hi < v then hi else v
  let acts := m.serves path && okState k && m.permitted path index sub v
  (k, if k ≠ v ∧ acts ∧ (m.isWide path index sub = false ∨ m.slotA) then m.tally path index sub 1 data else m)

/-- A write of REF_POLICY (R24): the input in use is chosen again. -/
def Mach.refPolicy (m : Mach) (sel : Nat) : Mach :=
  match refChoice (m.rd E.REF_POLICY) (bitOf (m.rd E.REF_VALID) 0) (bitOf (m.rd E.REF_VALID) 1) with
  | none => (m.wr E.REF_SELECTED 0 2).wr E.REF_HOLDOVER 0 1
  | some n =>
    let m := (m.wr E.REF_SELECTED 0 n).wr E.REF_HOLDOVER 0 0
    if sel < 2 ∧ sel ≠ n then m.inc E.REF_SWITCHES 0 else m

/-- PAIR_ENABLE has changed (R390, R395, R467): a module in READY takes up its role, and one that leaves its pair drops OWN. -/
def Mach.pairEnabled (old m : Mach) : Mach :=
  let m := if m.paired then m
    else
      let m := { m with pair.want := false }
      let m := if m.flagOn 2 then (m.flag 2 false).emit (.own false) else m
      (m.flag 0 false).flag 9 false
  let m := if old.auth ∧ m.auth = false then m.authLost else if old.auth = false ∧ m.auth then m.authGained else m
  if m.paired then (if m.rd E.MODULE_STATE = 4 then m.joinPair else m)
  else if m.role = 4 then m else m.setRole 0

/-- A write of TWI_FLAG_CLEAR (R462). -/
def Mach.twiFlagClear (m : Mach) (path : Nat) (data : Bytes) : Mach :=
  m.command path 0x6800 0x04 data true fun m =>
    let c := m.convert E.TWI_FLAG_CLEAR 0 data
    let m := m.tallyIf path 0x6800 0x04 c.kind data
    let v := c.val.toNat
    m.wr E.TWI_FLAGS 0 ((List.range 3).foldl (fun r b => if bitOf v b then putBit r b false else r) (m.rd E.TWI_FLAGS))

/-- TWI_FLAG_CLEAR (R462). -/
def execTwiFlagClear (path : Nat) (data : Bytes) (s : State) : Host.Outcome State Fault Refusal :=
  s.onMach (path < 5) fun m => m.twiFlagClear path data

/-- CAN_ENABLE (R445): the path reinitialises. -/
def Mach.writeCanEnable (m : Mach) (path : Nat) (data : Bytes) : Mach := m.writeEntry path E.CAN_ENABLE 0 data fun _ m => m.canInit

/-- CAN_ENABLE (R445). -/
def execCanEnable (path : Nat) (data : Bytes) (s : State) : Host.Outcome State Fault Refusal :=
  s.onMach (path < 5) fun m => m.writeCanEnable path data

/-- Writes of lanes, ports and the reference that do more than store. -/
def Mach.writeLanes (m : Mach) (path : Nat) (e : Entry) (k : Nat) (data : Bytes) : Mach :=
  let a := e.at k
  if e = E.SLIP then m.writeSlip path k data
  else if e = E.SEARCH_MODE then m.writeSearchMode path k data
  else if e = E.REF_POLICY then m.writeEntry path e k data fun _ m => m.refPolicy (m.rd E.REF_SELECTED)
  else if e = E.SPREAD_DEPTH then m.writeEntry path e k data fun old m => Mach.ratesMoved old m.netRates
  else if e = E.REG_CMD then
    let r := m.clampCmd path a.1 a.2 1 3 data fun _ => m.rd E.REG_STATUS k != 1
    if m.rd E.REG_STATUS k = 1 then m.command path a.1 a.2 data false id else r.2.regCmd path k r.1
  else if [E.QUAD_ROLE, E.QUAD_PORTS, E.TX_FIR, E.RX_EQ, E.RX_DFE, E.LANE_FLAGS, E.LOOP_MODE].contains e then m.laneReconfigure path a.1 a.2 data
  else m.writePlain path e k data

/-- Writes of streams, profiles and tables. -/
def State.writeStreams (s : State) (path : Nat) (e : Entry) (k : Nat) (data : Bytes) : State :=
  let a := e.at k
  if e = E.CONTRACT_CMD then
    let r := s.m.clampCmd path a.1 a.2 1 5 data fun c => s.m.cmdAllowed k c
    { s with m := r.2.contractCmd path k r.1 data }
  else if e = E.PARAMS_APPLY then s.ran (execParamsApply path k data s)
  else if e = E.BG_CMD then s.ran (execBgCmd path k data s)
  else if e = E.TBL_SIZE then { s with m := s.m.tblSize path data }
  else if e = E.TBL_DATA then { s with m := s.m.tblData path data }
  else if e = E.TBL_CMD then
    match writtenInt e.ty data with
    | 1 => { s with m := s.m.tblSwap path }
    | 2 => { s with m := s.m.tblAbandon path }
    | _ => { s with m := s.m.noEffect path a.1 a.2 2 data }
  else { s with m := s.m.writePlain path e k data }

/-- Writes of position, sequencers, the Mallet, time and the hub. -/
def State.writeIo (s : State) (path : Nat) (e : Entry) (k : Nat) (data : Bytes) : State :=
  let a := e.at k
  if e = E.POS_MODE then { s with m := s.m.writePosMode path k data }
  else if e = E.POS_CMD then s.ran (execPosCmd path k data s)
  else if e = E.MG_CMD then
    match writtenInt e.ty data with
    | 1 => s.ran (execMgCmdArm path k s)
    | 2 => s.ran (execMgCmdDisarm path k s)
    | _ => { s with m := s.m.noEffect path a.1 a.2 2 data }
  else if e = E.MG_TARGET_POS ∨ e = E.MG_TARGET_TIME then s.ran (execMgTargetWrite path k e.sub data s)
  else if e = E.MG_COUNT then s.ran (execMgCountWrite path k data s)
  else if e = E.VP_ENABLE then { s with m := s.m.writeVpEnable path k data }
  else if e = E.TIME_CMD then
    let ok := fun c => s.m.isGm && s.m.pendingChange.isNone && (c == 2 || s.m.rd E.TIME_SOURCE == 0)
    let r := s.m.clampCmd path a.1 a.2 1 2 data ok
    if ok r.1 = false then { s with m := s.m.command path a.1 a.2 data false id } else
    if r.1 = 1 then s.ran (execTimeCmdInstall path { s with m := r.2 }) else s.ran (execTimeCmdSet path { s with m := r.2 })
  else if e = E.PTM_ENABLE then { s with m := s.m.writeEntry path e k data fun _ m => m.ptmEnabled }
  else if e = E.TIME_SOURCE ∨ e = E.TIME_PRIORITY then { s with m := s.m.writeEntry path e k data fun _ m => m.chooseGm }
  else if e = E.MG_PIN ∨ e = E.MG_POLARITY then
    { s with m := s.m.writeEntry path e k data fun old m => m.pinsNamed [old.rd E.MG_PIN k, m.rd E.MG_PIN k] }
  else if e = E.SW_PUBLISH then
    s.ran (execSwPublish path data s)
  else if loopEntries.contains e then { s with m := s.m.writeTask path e k data }
  else { s with m := s.m.writePlain path e k data }

/-- Writes of the engine, the fabric, the pair and the two-wire buses. -/
def State.writeLinks (s : State) (path : Nat) (e : Entry) (k : Nat) (data : Bytes) : State :=
  let a := e.at k
  if e = E.CH_CMD then
    match writtenInt e.ty data with
    | 1 => { s with m := s.m.chCmd path k 1 }
    | 2 => { s with m := s.m.chCmd path k 2 }
    | 3 => { s with m := s.m.chCmd path k 3 }
    | _ => { s with m := s.m.noEffect path a.1 a.2 2 data }
  else if e = E.SHARE_EXTRA ∨ e = E.HOST_SHARE_LIMIT then { s with m := s.m.refillAll.writePlain path e k data }
  else if e = E.FAB_MEMBERS ∨ e = E.MEMBERS_ENABLE then { s with m := s.m.writeEntry path e k data fun _ m => m.checkMembers }
  else if e = E.FAB_PRIORITY ∨ e = E.FAB_ADDR_PIN ∨ e = E.XLINK_PORTS then { s with m := s.m.writeEntry path e k data fun _ m => m.elect }
  else if e = E.PAIR_ENABLE then
    { s with m := s.m.writeEntry path e k data fun old m => if old.paired = m.paired then m else Mach.pairEnabled old m }
  else if e = E.PAIR_CMD then
    match writtenInt e.ty data with
    | 1 => s.ran (execPairCmdSwitch path s)
    | 2 => s.ran (execPairCmdClearBar path s)
    | 3 => s.ran (execPairCmdForceAlone path s)
    | _ => { s with m := s.m.noEffect path a.1 a.2 2 data }
  else if e = E.TWI_FLAG_CLEAR then { s with m := s.m.twiFlagClear path data }
  else { s with m := s.m.writePlain path e k data }

/-- Writes of the Bench's own subjects: store, life, firmware, fuse, calendar, CAN FD. -/
def Mach.writeBench (m : Mach) (path : Nat) (e : Entry) (k : Nat) (data : Bytes) : Mach :=
  let a := e.at k
  let v := writtenInt e.ty data
  if e = E.RESTORE_DEFAULTS then m.restoreDefaults path data
  else if e = E.CAN_ENABLE then m.writeCanEnable path data
  else if e = E.MODULE_CMD then (if 1 ≤ v ∧ v ≤ 3 then m.moduleCmd path v.toNat else m.noEffect path a.1 a.2 2 data)
  else if e = E.BOOT_POLICY then m.writeBootPolicy path data
  else if e = E.FW_SIZE then m.writeFwSize path data
  else if e = E.FW_DATA then m.writeFwData path data
  else if e = E.FW_CMD then (if 1 ≤ v ∧ v ≤ 4 then m.fwCmd path v.toNat else m.noEffect path a.1 a.2 2 data)
  else if e = E.FUSE_CMD then m.writeFuse path data
  else if e = E.CAL_CMD then m.calCmd path data
  else if e = E.ADVICE_DAYS ∨ e = E.HBM_CE_LIMIT then m.writeEntry path e k data fun _ m => m.each (List.range 65) fun k m => m.advise k
  else m.writePlain path e k data

/-- A write by index and subindex on a path (R426, R427, R437). -/
def State.write (s : State) (path index sub : Nat) (data : Bytes) : State :=
  if s.m.serves path = false then s
  else match findEntry index sub with
    | none =>
      let known := decide (sub = 0) && (highestSub index).isSome
      { s with m := s.m.tally path index sub (if known then 6 else 7) data }
    | some (e, k) =>
      if e.acc = .ro ∨ e.acc = .const then { s with m := s.m.tally path index sub 6 data }
      else if index < 0x2000 ∨ 0x6C00 ≤ index then { s with m := s.m.writeBench path e k data }
      else if index < 0x3000 then { s with m := s.m.writeLanes path e k data }
      else if index < 0x4400 then s.writeStreams path e k data
      else if index < 0x5800 then s.writeIo path e k data
      else s.writeLinks path e k data

/-- DICT_WRITE (R426, R427). -/
def execDictWrite (path index sub : Nat) (data : Bytes) (s : State) : Host.Outcome State Fault Refusal :=
  if path < 5 then .next (s.write path index sub data) else .fault .noSuchResource

/-! ### Long values (R440) -/

/-- `n` bytes that nothing has written: free values. -/
def Mach.freeBytes : Nat → Mach → Bytes × Mach
  | 0, m => ([], m)
  | n + 1, m =>
    let r := m.take 8
    let t := Mach.freeBytes n r.2
    (BitVec.ofNat 8 r.1 :: t.1, t.2)

/-- A buffer that belongs to another entry is discarded and counted with kind 5. -/
def State.keepBuffer (s : State) (path : Nat) (a : Option Accum) (index sub : Nat) : State × Option Accum :=
  match a with
  | none => (s, none)
  | some b =>
    if b.index = index ∧ b.sub = sub then (s, a) else ({ s with m := s.m.tally path b.index b.sub 5 b.bytes }, none)

/-- A write request of a path with its accumulation buffer: whole values are applied, parts are kept (R437, R440). -/
def State.writePart (s : State) (path : Nat) (acc : Option Accum) (index sub offset : Nat) (last : Bool) (data : Bytes) :
    State × Option Accum :=
  let whole : Bool := match findEntry index sub with
    | none => true
    | some (e, _) => e.ty.numeric || e.acc == .ro || e.acc == .const || (last && offset == 0 && acc.isNone)
  if whole then (s.write path index sub data, acc)
  else
    let room := match findEntry index sub with | some (e, _) => e.ty.room | none => 0
    if room < offset ∧ (last = false ∨ acc.isNone) then ({ s with m := s.m.noEffect path index sub 5 data }, acc)
    else
      -- Bytes from 65,536 on count once: here, or with the value that the last write applies.
      let cut := decide (last = false ∧ 65536 < offset + data.length)
      let s := if cut then { s with m := s.m.tally path index sub 5 data } else s
      let data := if cut then data.take (65536 - offset) else data
      let offset := Nat.min offset 65536
      let old := match acc with | some b => b.bytes | none => []
      let gap := Mach.freeBytes (offset - old.length) s.m
      let s := { s with m := gap.2 }
      let buf := old ++ gap.1
      let buf := buf.take offset ++ data ++ buf.drop (offset + data.length)
      if last then (s.write path index sub (buf.take (offset + data.length)), none)
      else (s, some { index := index, sub := sub, bytes := buf })

/-! ### Pair-wide writes that the partner orders (R403, R428) -/

/-- The clamp tally's entries. -/
def tallyEntries : List Entry :=
  [E.CLAMP_TALLY, E.LAST_CLAMPED, E.LAST_CLAMP_KIND, E.LAST_CLAMP_TIME, E.LAST_WRITTEN, E.TALLY_BY_PATH]

/-- A pair-wide write received by the partner counts there alone (R428). -/
def Mach.tallyAsBefore (m old : Mach) : Mach := tallyEntries.foldl (fun (m : Mach) e => m.setVal e 0 (old.val e 0)) m

/-- A pair-wide write that this module received is applied at last: its count is charged to the path that made it (R428). -/
def Mach.tallyToPath (m old : Mach) (path : Nat) : Mach :=
  let n := (m.rd E.CLAMP_TALLY + 2 ^ 32 - old.rd E.CLAMP_TALLY) % 2 ^ 32
  if n = 0 then m
  else
    let t := m.rdB E.TALLY_BY_PATH
    let t := putBytes t 16 (leBytes 4 (leAt t 16 4 + 2 ^ 32 - n))
    let t := putBytes t (4 * path) (leBytes 4 (leAt t (4 * path) 4 + n))
    (m.wrB E.TALLY_BY_PATH 0 t).wr E.LAST_CLAMPED 0 (path * 2 ^ 24 + m.rd E.LAST_CLAMPED % 2 ^ 24)

/-- The writes that the loss of the cross-link left to this module alone are applied (R403, notes/assumptions/34.md). -/
def State.applyOrphans (s : State) : State :=
  let t := s.m.pair.orphans.foldl (fun (s : State) w =>
    let t := s.write 4 w.index w.sub w.data
    { t with m := t.m.tallyToPath s.m w.path }) s
  { t with m := { t.m with pair.orphans := [] } }

/-- Count a request served on a path (R445). -/
def Mach.countRequest (m : Mach) (path : Nat) : Mach := m.inc E.DICT_REQUESTS path

end Sys2Proof.Machine
end

