-- ==== Sys2Proof/Machine/Requests.lean ====
section
/-! DEFINITION. Dictionary requests on the PCIe mailbox (R439, R440), the fabric (R441) and CAN FD with its NMT, heartbeat and
emergency services (R442, R443), and the end of WAKING (R466, R470). -/

namespace Sys2Proof.Machine

/-! ### The mailbox (R439) -/

/-- End the mailbox transaction with a result, where it still runs. -/
def Mach.mbEnd (m : Mach) (tag result : Nat) : Mach :=
  match m.mb.run with
  | some r => if r.tag = tag then { m with mb.run := none, mb.status := 2 + result * 2 ^ 8 + tag * 2 ^ 16 }.cause 5 else m
  | none => m

/-- MB_INFO of a description. -/
def Info.word (i : Info) : Nat := i.ty + i.access * 2 ^ 8 + i.frac * 2 ^ 16 + i.width * 2 ^ 24

/-- MB_INFO and MB_SIZE show an entry; for one that does not exist they are free values (notes/assumptions/2.md). -/
def Mach.mbShow (m : Mach) (i : Option Info) : Mach :=
  match i with
  | some i => { m with mb.info := i.word, mb.size := i.size }
  | none =>
    let a := m.take 32
    let b := a.2.take 24
    { b.2 with mb.info := a.1, mb.size := b.1 }

/-- A read's bytes in MB_DATA. -/
def Mach.mbData (m : Mach) (b : Bytes) : Mach := { m with mb.data := b ++ m.mb.data.drop b.length, mb.returned := b.length }

/-- What the module shows of the entry of a request: none when there is no such entry. -/
def Mach.infoOf (m : Mach) (index sub : Nat) : Option Info := (m.look index sub).map Prod.fst

/-- A mailbox write is done: MB_INFO and MB_SIZE show the entry as it is now in force (R439). -/
def Mach.mbWritten (m : Mach) (r : DictReq) : Mach := (m.mbShow (m.infoOf r.index r.sub)).mbEnd r.tag 0

/-- The Bench serves a mailbox transaction on this module (R436, R437, R440). A pair-wide write stays busy until both modules have
applied it (R403). -/
def State.mbServe (s : State) (r : DictReq) : State :=
  let s := { s with m := s.m.countRequest 0 }
  let k := s.keepBuffer 0 s.m.mb.accum r.index r.sub
  let s := { k.1 with m := { k.1.m with mb.accum := k.2 } }
  if r.op = 1 then
    let m := s.m.mbShow (s.m.infoOf r.index r.sub)
    let a := m.dictRead 0 r.index r.sub r.offset r.length
    { s with m := ((m.afterRead 0 r.index r.sub).mbData a.2.2).mbEnd r.tag a.1 }
  else
    let t := s.writePart 0 k.2 r.index r.sub r.offset r.last r.data
    let m := t.1.m
    if m.mb.run.isNone then t.1
    else
      let m := { m with mb.accum := t.2 }
      match m.wideSince s.m with
      | some n => { t.1 with m := { m with mb.run := some { r with wait := some n } } }
      | none => { t.1 with m := m.mbWritten r }

/-- The payload of a DICT_REQUEST (R441). -/
def DictReq.payload (r : DictReq) (id : Nat) : Bytes :=
  leBytes 4 (id + r.op * 2 ^ 16 + bn r.last * 2 ^ 18) ++ leBytes 4 (r.index + r.sub * 2 ^ 16) ++ leBytes 4 r.offset ++ leBytes 4 r.length ++ r.data

/-- The mailbox transaction goes to another node (R440, R441). The fabric path's limit is 2,048 bytes (notes/assumptions/43.md). -/
def Mach.mbRemote (m : Mach) (r : DictReq) : Mach :=
  let m := match m.mb.accum with
    | some b => { m with mb.accum := none }.tally 0 b.index b.sub 5 b.bytes
    | none => m
  if 2048 < r.length then m.mbEnd r.tag 3
  else
    let id := m.server.nextId
    let b := r.payload id
    let q := m.sendTo r.node 3 0x48 0 0 b
    if q.1 then { q.2 with server.own := some { id := id, node := r.node, payload := b }, server.nextId := (id + 1) % 65536 }
    else q.2.mbEnd r.tag 4

/-- A waiting mailbox transaction is taken up, where the Bench serves the mailbox (R435, R466). -/
def State.mbTake (s : State) : State :=
  match s.m.mb.run with
  | none => s
  | some r =>
    if s.m.serves 0 = false ∨ s.m.server.own.isSome ∨ r.wait.isSome then s
    else if 3840 < r.length then { s with m := s.m.mbEnd r.tag 3 }
    else if r.node = 0xFFFF ∨ r.node = s.m.fabAddr then s.mbServe r
    else { s with m := s.m.mbRemote r }

/-- MB_GO (R439): ignored while a transaction runs. -/
def State.mbGo (s : State) (op tag : Nat) : State :=
  let b := s.m.mb
  if s.m.bar0 = false then { s with m := s.m.unsupported }
  else if b.status % 4 = 1 then s
  else
    let r : DictReq := { op := op, index := b.entry % 65536, sub := b.entry / 65536 % 256, offset := b.offset, length := b.length,
                         last := bitOf b.ctrl 2, data := (b.data ++ zeros b.length).take b.length, tag := tag, node := b.node }
    let s := { s with m := { s.m with mb.run := some r, mb.status := 1 + tag * 2 ^ 16, server.own := none } }
    if op = 1 ∨ op = 2 then s.mbTake else { s with m := s.m.mbEnd tag 0 }

/-- MB_GO_READ (R439), with MB_CTRL [1:0] at 1. -/
def execMbGoRead (tag : Nat) (s : State) : Host.Outcome State Fault Refusal :=
  .next (if s.m.mb.ctrl % 4 = 1 then s.mbGo 1 (tag % 65536) else s)

/-- MB_GO_WRITE (R440), with MB_CTRL [1:0] at 2. -/
def execMbGoWrite (tag : Nat) (s : State) : Host.Outcome State Fault Refusal :=
  .next (if s.m.mb.ctrl % 4 = 2 then s.mbGo 2 (tag % 65536) else s)

/-- MB_GO_NONE (R439), with MB_CTRL [1:0] at 0 or 3. -/
def execMbGoNone (tag : Nat) (s : State) : Host.Outcome State Fault Refusal :=
  .next (if s.m.mb.ctrl % 4 = 0 ∨ s.m.mb.ctrl % 4 = 3 then s.mbGo 0 (tag % 65536) else s)

/-- WAKING_COMPLETE (R466, R470): bit i of `failed` names a stack that failed twice, and `present` is what DVT_PRES of the partner
reads. HBM comes up cleared, and a mailbox transaction started in DORMANT is served. -/
def execWakingComplete (failed : Nat) (present : Bool) (s : State) : Host.Outcome State Fault Refusal :=
  .next (if s.m.rd E.MODULE_STATE = 3 then ({ s with hbm := [], m := s.m.wakingDone failed present } : State).mbTake else s)

/-! ### The fabric (R441) -/

/-- A response's payload. -/
def responsePayload (id result : Nat) (i : Info) (b : Bytes) : Bytes :=
  leBytes 4 (id + result * 2 ^ 16 + i.ty * 2 ^ 24) ++ leBytes 4 (i.size + i.access * 2 ^ 24) ++ leBytes 4 b.length ++ b

/-- Keep the accumulation buffers of at most 4 requesters, the one used least recently going first and counting with kind 5. -/
def Mach.putServerAccum (m : Mach) (node : Nat) (a : Option Accum) : Mach :=
  let rest := m.server.accums.filter fun x => x.1 != node
  match a with
  | none => { m with server.accums := rest }
  | some b =>
    let m := match rest with
      | x :: _ => if 4 ≤ rest.length then m.tally 2 x.2.index x.2.sub 5 x.2.bytes else m
      | [] => m
    { m with server.accums := (if 4 ≤ rest.length then rest.drop 1 else rest) ++ [(node, b)] }

/-- Keep a response for a repeated REQ_ID, the last 16 of each requester, and send it. -/
def Mach.respond (m : Mach) (node id : Nat) (b : Bytes) : Mach :=
  let mine := m.server.kept.filter fun x => x.1 == node
  let kept := if 16 ≤ mine.length then m.server.kept.erase (mine.headD (0, 0, [])) else m.server.kept
  ({ m with server.kept := kept ++ [(node, id, b)] }.sendTo node 3 0x49 0 0 b).2

/-- Serve a DICT_REQUEST: its result and the bytes read. -/
def State.serveFabric (s : State) (src : Nat) (b : Bytes) : Nat × Bytes × State :=
  let w0 := leAt b 0 4
  let op := bitsOf w0 17 16
  let index := leAt b 4 2
  let sub := leAt b 6 1
  let offset := leAt b 8 3
  let length := leAt b 12 4 % 4096
  let s := { s with m := s.m.countRequest 2 }
  let old := (s.m.server.accums.find? fun x => x.1 == src).map Prod.snd
  let k := s.keepBuffer 2 old index sub
  let s := { k.1 with m := k.1.m.putServerAccum src k.2 }
  if (op = 1 ∨ op = 2) ∧ 2048 < length then (3, [], s)
  else if op = 1 then
    let a := s.m.dictRead (16 + src) index sub offset length
    (a.1, a.2.2, { s with m := s.m.afterRead (16 + src) index sub })
  else if op = 2 then
    let t := s.writePart 2 k.2 index sub offset (bitOf w0 18) ((b.drop 16).take length)
    (0, [], { t.1 with m := t.1.m.putServerAccum src t.2 })
  else (0, [], s)

/-- A DICT_REQUEST frame (R441): a repeated REQ_ID is answered with the stored response. The response to a pair-wide write waits until
both modules have applied it (R403). -/
def State.onDictRequest (s : State) (f : FabMsg) : State :=
  if f.payload.length < 16 ∨ s.m.serves 2 = false then s
  else
    let id := leAt f.payload 0 2
    let index := leAt f.payload 4 2
    let sub := leAt f.payload 6 1
    if s.m.server.waiting.any fun w => w.node == f.src && w.id == id then s
    else match s.m.server.kept.find? fun x => x.1 == f.src && x.2.1 == id with
    | some x => { s with m := (s.m.sendTo f.src 3 0x49 0 0 x.2.2).2 }
    | none =>
      let r := s.serveFabric f.src f.payload
      let t := r.2.2
      match t.m.wideSince s.m with
      | some n => { t with m := { t.m with server.waiting := t.m.server.waiting ++ [{ node := f.src, id := id, index := index, sub := sub, num := n : WaitReq }] } }
      | none => { t with m := t.m.respond f.src id (responsePayload id r.1 ((t.m.infoOf index sub).getD {}) r.2.1) }

/-- A DICT_RESPONSE frame (R440, R441): it fills the mailbox. n and the width of the type are those of the module's own dictionary. -/
def Mach.onDictResponse (m : Mach) (f : FabMsg) : Mach :=
  let b := f.payload
  match m.server.own, m.mb.run with
  | some q, some r =>
    if b.length < 12 ∨ q.id ≠ leAt b 0 2 ∨ q.node ≠ f.src then m
    else
      let result := leAt b 2 1
      let mine := ((m.look r.index r.sub).map Prod.fst).getD {}
      let i : Info := { mine with ty := leAt b 3 1, size := leAt b 4 3, access := leAt b 7 1 }
      let m := { m with server.own := none, mb.info := i.word, mb.size := i.size }
      let m := if r.op = 1 then m.mbData ((b.drop 12).take (leAt b 8 4 % 4096)) else m
      m.mbEnd r.tag result
  | some _, none => { m with server.own := none }
  | _, _ => m

/-- DICT_REQUEST_TIMEOUT (R441): up to 2 resends, then result 4. -/
def execDictRequestTimeout (s : State) : Host.Outcome State Fault Refusal :=
  s.onMach true fun m =>
    match m.server.own, m.mb.run with
    | some q, some r =>
      if q.resends < 2 then
        let m := { m with server.own := some { q with resends := q.resends + 1 } }
        (m.sendTo q.node 3 0x48 0 0 q.payload).2
      else { m with server.own := none }.mbEnd r.tag 4
    | _, _ => { m with server.own := none }

/-! ### CAN FD (R442, R443) -/

/-- The node takes part in the network. -/
def Mach.canLive (m : Mach) : Bool := m.can.on && m.rd E.CAN_STATE != 2

/-- A USDO answer on 0x580 + node ID, in the layout of notes/assumptions/17.md: 1 a download is done, 2 a value, 3 an abort, 4 the
length of a segmented upload, 5 its next segment. -/
def Mach.usdoAnswer (m : Mach) (what index sub : Nat) (b : Bytes) : Mach :=
  m.emit (.can (0x580 + m.rd E.CAN_NODE_ID) (leBytes 1 what ++ leBytes 2 index ++ leBytes 1 sub ++ b))

/-- Abort codes of CiA 1301 (PRESUMED, notes/assumptions/40.md): no such object, a timed-out protocol, and an unsupported command. -/
def abortNoObject : Nat := 0x06020000
/-- See `abortNoObject`. -/
def abortTimeout : Nat := 0x05040000
/-- See `abortNoObject`. -/
def abortCommand : Nat := 0x05040001
/-- Data bytes of one USDO frame (PRESUMED, notes/assumptions/40.md). -/
def usdoPiece : Nat := 56

/-- Apply a USDO download as one value; a pair-wide one is answered when both modules have applied it (R403). -/
def State.usdoWrite (s : State) (index sub : Nat) (data : Bytes) : State :=
  let t := ({ s with m := s.m.countRequest 1 } : State).write 1 index sub data
  let m := { t.m with can.usdo := none }
  match m.wideSince s.m with
  | some n => { t with m := { m with can.waits := m.can.waits ++ [(index, sub, n)] } }
  | none => { t with m := m.usdoAnswer 1 index sub [] }

/-- USDO_DOWNLOAD (R443). A request of a service that the node lacks is aborted. -/
def execUsdoDownload (index sub : Nat) (data : Bytes) (size : Nat) (expedited unsupported : Bool) (s : State) : Host.Outcome State Fault Refusal :=
  .next (if s.m.canLive = false ∨ s.m.serves 1 = false then s
    else if unsupported then { s with m := s.m.usdoAnswer 3 index sub (leBytes 4 abortCommand) }
    else if expedited then s.usdoWrite index sub (data.take size)
    else { s with m := { s.m with can.usdo := some { index := index, sub := sub, size := size, data := data } } })

/-- The next segment of an upload leaves; with the last the transfer ends. -/
def Mach.usdoNext (m : Mach) (u : Usdo) : Mach :=
  let rest := u.data.drop usdoPiece
  { m with can.usdo := if rest.isEmpty then none else some { u with data := rest } }.usdoAnswer 5 u.index u.sub (u.data.take usdoPiece)

/-- USDO_SEGMENT (R443): of a download the last one applies the value of the announced size; of an upload it asks for the next segment. -/
def execUsdoSegment (data : Bytes) (last : Bool) (s : State) : Host.Outcome State Fault Refusal :=
  .next (match s.m.can.usdo with
    | none => s
    | some u =>
      if s.m.canLive = false ∨ s.m.serves 1 = false ∨ u.lost then s
      else if u.upload then { s with m := s.m.usdoNext u }
      else
        let b := u.data ++ data
        if last then s.usdoWrite u.index u.sub (b.take u.size) else { s with m := { s.m with can.usdo := some { u with data := b } } })

/-- USDO_UPLOAD (R443): a value that one frame holds goes at once, a longer one in segments, as it is now in force (R436). -/
def execUsdoUpload (index sub : Nat) (unsupported : Bool) (s : State) : Host.Outcome State Fault Refusal :=
  s.onMach true fun m =>
    m.when (m.canLive && m.serves 1) fun m =>
      if unsupported then m.usdoAnswer 3 index sub (leBytes 4 abortCommand)
      else
        let m := m.countRequest 1
        let r := m.dictRead 1 index sub 0 65536
        let m := { m.afterRead 1 index sub with can.usdo := none }
        if r.1 = 1 then m.usdoAnswer 3 index sub (leBytes 4 abortNoObject)
        else if r.2.2.length ≤ usdoPiece then m.usdoAnswer 2 index sub r.2.2
        else { m with can.usdo := some { index := index, sub := sub, size := r.2.2.length, data := r.2.2, upload := true } }.usdoAnswer 4 index sub
          (leBytes 4 r.2.2.length)

/-- USDO_TIMEOUT (R443). -/
def execUsdoTimeout (s : State) : Host.Outcome State Fault Refusal :=
  s.onMach true fun m =>
    match m.can.usdo with
    | none => m
    | some u => { m with can.usdo := none }.when m.canLive fun m => m.usdoAnswer 3 u.index u.sub (leBytes 4 abortTimeout)

/-- An NMT command addressed to the node or to all nodes. -/
def Mach.nmt (m : Mach) (node : Nat) (f : Mach → Mach) : Mach := m.when (m.canLive && (node == 0 || node == m.rd E.CAN_NODE_ID)) f

/-- NMT_START (R443). -/
def execNmtStart (node : Nat) (s : State) : Host.Outcome State Fault Refusal := s.onMach true fun m => m.nmt node fun m => m.wr E.NMT_STATE 0 0x05
/-- NMT_STOP (R443). -/
def execNmtStop (node : Nat) (s : State) : Host.Outcome State Fault Refusal := s.onMach true fun m => m.nmt node fun m => m.wr E.NMT_STATE 0 0x04
/-- NMT_ENTER_PREOPERATIONAL (R443). -/
def execNmtEnterPreoperational (node : Nat) (s : State) : Host.Outcome State Fault Refusal :=
  s.onMach true fun m => m.nmt node fun m => m.wr E.NMT_STATE 0 0x7F
/-- NMT_RESET_COMMUNICATION (R443). -/
def execNmtResetCommunication (node : Nat) (s : State) : Host.Outcome State Fault Refusal := s.onMach true fun m => m.nmt node Mach.canInit
/-- NMT_RESET_NODE (R443). -/
def execNmtResetNode (node : Nat) (s : State) : Host.Outcome State Fault Refusal := s.onMach true fun m => m.nmt node Mach.canInit

/-- HEARTBEAT (R443). -/
def execHeartbeat (s : State) : Host.Outcome State Fault Refusal :=
  s.onMach true fun m =>
    m.when (m.canLive && m.rd E.HEARTBEAT_TIME != 0) fun m => m.emit (.can (0x700 + m.rd E.CAN_NODE_ID) (leBytes 1 (m.rd E.NMT_STATE)))

/-- Send an emergency message: error code, error register, and the entry named. -/
def Mach.emergency (m : Mach) (code entry : Nat) : Mach :=
  { m with can.emcyAt := some m.ns }.emit (.can (m.rd E.EMCY_COBID % 2048)
    (leBytes 2 code ++ leBytes 1 (errorBits m.causesNow) ++ leBytes 3 entry ++ zeros 2))

/-- EMERGENCY (R443): the first cause not yet reported, or that all have cleared. -/
def execEmergency (s : State) : Host.Outcome State Fault Refusal :=
  s.onMach true fun m =>
    let free : Bool := match m.can.emcyAt with | some t => decide (t + m.rd E.EMCY_INHIBIT * 100000 ≤ m.ns) | none => true
    m.when (m.canLive && free && !bitOf (m.rd E.EMCY_COBID) 31) fun m =>
      let now := m.causesNow
      let told := m.can.causes.filter now.contains
      match now.find? fun c => !told.contains c with
      | some c => { m with can.causes := told ++ [c] }.emergency c.1 c.2
      | none => if now.isEmpty ∧ !m.can.causes.isEmpty then { m with can.causes := [] }.emergency 0 0x100100 else { m with can.causes := told }

/-- CAN_BUS_OFF (R442). -/
def execCanBusOff (s : State) : Host.Outcome State Fault Refusal :=
  s.onMach true fun m => m.when m.canLive fun m => (m.wr E.CAN_STATE 0 2).inc E.CAN_BUS_OFFS 0

/-- CAN_BUS_OFF_RECOVERY (R442). -/
def execCanBusOffRecovery (s : State) : Host.Outcome State Fault Refusal :=
  s.onMach true fun m => m.when (m.can.on && m.rd E.CAN_STATE == 2) fun m => m.wr E.CAN_STATE 0 0

/-- CAN_ERROR_PASSIVE (R442). -/
def execCanErrorPassive (passive : Bool) (s : State) : Host.Outcome State Fault Refusal :=
  s.onMach true fun m => m.when m.canLive fun m => m.wr E.CAN_STATE 0 (bn passive)

end Sys2Proof.Machine
end

