-- ==== Sys2Proof/Machine/TwoWire.lean ====
section
/-! DEFINITION. The two-wire buses (R446 to R463): the target with its pointer space and health summary, the gateway, and the
controller with the carrier's equalisation table (R54 to R57) and its sensors. -/

namespace Sys2Proof.Machine

/-! ### The gateway (R444, R456, R457) -/

/-- A gateway request ends with a result. -/
def Mach.gwEnd (m : Mach) (tag result : Nat) : Mach :=
  { m with gw.run := none, gw.status := 2, gw.result := result, gw.tag := tag, gw.endAt := m.ns }

/-- GW_TYPE, GW_ACCESS and GW_SIZE show an entry; for one that does not exist they are free values (notes/assumptions/2.md). -/
def Mach.gwShow (m : Mach) (i : Option Info) : Mach :=
  match i with
  | some i => { m with gw.ty := i.ty, gw.access := i.access, gw.size := i.size }
  | none =>
    let a := m.take 8
    let b := a.2.take 8
    let c := b.2.take 24
    { c.2 with gw.ty := a.1, gw.access := b.1, gw.size := c.1 }

/-- A gateway write is done: GW_TYPE, GW_ACCESS and GW_SIZE show the entry as it is now in force. -/
def Mach.gwWritten (m : Mach) (r : DictReq) : Mach := (m.gwShow (m.infoOf r.index r.sub)).gwEnd r.tag 0

/-- The Bench serves a gateway request (R436, R437, R440). A pair-wide write stays busy until both modules have applied it (R403). -/
def State.gwServe (s : State) (r : DictReq) : State :=
  let s := { s with m := s.m.countRequest 3 }
  let k := s.keepBuffer 3 s.m.gw.accum r.index r.sub
  let s := { k.1 with m := { k.1.m with gw.accum := k.2 } }
  if r.op = 1 then
    let m := s.m.gwShow (s.m.infoOf r.index r.sub)
    let a := m.dictRead 3 r.index r.sub r.offset r.length
    let m := { m.afterRead 3 r.index r.sub with gw.data := a.2.2 ++ m.gw.data.drop a.2.2.length, gw.returned := a.2.2.length }
    { s with m := m.gwEnd r.tag a.1 }
  else
    let t := s.writePart 3 k.2 r.index r.sub r.offset r.last r.data
    let m := { t.1.m with gw.accum := t.2 }
    match m.wideSince s.m with
    | some n => { t.1 with m := { m with gw.run := some { r with wait := some n }, gw.status := 1, gw.tag := r.tag } }
    | none => { t.1 with m := m.gwWritten r }

/-- The Bench's cores run, so that the target and the gateway are served: from ATTACHED on, and in DORMANT once woken (R444, R452). -/
def Mach.benchRuns (m : Mach) : Bool := m.rd E.MODULE_STATE != 0 && (m.rd E.MODULE_STATE != 2 || m.life.awake)

/-- GW_GO (R456): ignored while a request runs; a length above 32 ends with result 3. -/
def State.gwGo (s : State) (op tag : Nat) : State :=
  let g := s.m.gw
  if s.m.benchRuns = false ∨ g.status = 1 then s
  else
    let r : DictReq := { op := op, index := g.index, sub := g.sub, offset := g.offset, length := g.length, last := bitOf g.flags 2,
                         data := (g.data ++ zeros g.length).take g.length, tag := tag }
    if op ≠ 1 ∧ op ≠ 2 then { s with m := s.m.gwEnd tag 0 }
    else if 32 < g.length then { s with m := s.m.gwEnd tag 3 }
    else s.gwServe r

/-- GW_GO_READ (R457), with GW_FLAGS [1:0] at 1. -/
def execGwGoRead (tag : Nat) (s : State) : Host.Outcome State Fault Refusal :=
  .next (if s.m.gw.flags % 4 = 1 then s.gwGo 1 (tag % 256) else s)

/-- GW_GO_WRITE (R457), with GW_FLAGS [1:0] at 2. -/
def execGwGoWrite (tag : Nat) (s : State) : Host.Outcome State Fault Refusal :=
  .next (if s.m.gw.flags % 4 = 2 then s.gwGo 2 (tag % 256) else s)

/-- GW_GO_NONE (R456), with GW_FLAGS [1:0] at 0 or 3. -/
def execGwGoNone (tag : Nat) (s : State) : Host.Outcome State Fault Refusal :=
  .next (if s.m.gw.flags % 4 = 0 ∨ s.m.gw.flags % 4 = 3 then s.gwGo 0 (tag % 256) else s)

/-! ### The end of pair-wide writes (R403, R436) -/

/-- The requests whose write both modules have applied are answered on their paths. -/
def Mach.answerWides (m : Mach) : Mach :=
  let ended := fun (m : Mach) (w : Option Nat) => w.any m.wideOver
  let m := match m.mb.run with | some r => if ended m r.wait then m.mbWritten r else m | none => m
  let m := match m.gw.run with | some r => if ended m r.wait then m.gwWritten r else m | none => m
  let done := m.can.waits.filter fun w => m.wideOver w.2.2
  let m := done.foldl (fun (m : Mach) w => m.usdoAnswer 1 w.1 w.2.1 []) { m with can.waits := m.can.waits.filter fun w => !m.wideOver w.2.2 }
  let done := m.server.waiting.filter fun w => m.wideOver w.num
  done.foldl (fun (m : Mach) w => m.respond w.node w.id (responsePayload w.id 0 ((m.infoOf w.index w.sub).getD {}) []))
    { m with server.waiting := m.server.waiting.filter fun w => !m.wideOver w.num }

/-- Pair-wide writes that nothing holds up any more: those left to this module alone are applied, and requests are answered. -/
def State.settleWides (s : State) : State :=
  let s := if s.m.pair.orphans.isEmpty then s else s.applyOrphans
  { s with m := s.m.answerWides }

/-! ### The pointer space (R454 to R456) -/

/-- The gateway control bytes from pointer 0x40. -/
def Gateway.control (g : Gateway) : Bytes :=
  leBytes 2 g.index ++ leBytes 1 g.sub ++ leBytes 1 g.flags ++ leBytes 3 g.offset ++ leBytes 1 g.length ++ [0] ++ leBytes 1 g.status ++
  leBytes 1 g.result ++ leBytes 1 g.tag ++ leBytes 1 g.ty ++ leBytes 1 g.access ++ leBytes 1 g.returned ++ [0] ++ leBytes 3 g.size

/-- The byte that a read sends from a pointer (R451, R454). -/
def Mach.pointerByte (m : Mach) (p : Nat) : Byte :=
  if p < 0x40 then m.twi.snapshot.getD p 0
  else if p < 0x60 then m.gw.control.getD (p - 0x40) 0
  else if 0x80 ≤ p ∧ p < 0xA0 then m.gw.data.getD (p - 0x80) 0
  else 0

/-- Byte `i` of a number of `k` bytes replaced. -/
def setByte (k n i : Nat) (b : Byte) : Nat := leNat ((leBytes k n).set i b)

/-- Store a byte at a pointer (R454, R456): read-only and reserved locations ignore it, and 0x48 is GW_GO. Reserved bits of
GW_FLAGS read 0 (notes/assumptions/44.md). -/
def State.pointerStore (s : State) (p : Nat) (b : Byte) : State :=
  let g := s.m.gw
  let put (g : Gateway) : State := { s with m := { s.m with gw := g } }
  if p = 0x40 ∨ p = 0x41 then put { g with index := setByte 2 g.index (p - 0x40) b }
  else if p = 0x42 then put { g with sub := b.toNat }
  else if p = 0x43 then put { g with flags := b.toNat % 8 }
  else if 0x44 ≤ p ∧ p ≤ 0x46 then put { g with offset := setByte 3 g.offset (p - 0x44) b }
  else if p = 0x47 then put { g with length := b.toNat }
  else if p = 0x48 then s.gwGo (g.flags % 4) b.toNat
  else if 0x80 ≤ p ∧ p < 0xA0 then put { g with data := (g.data ++ zeros 32).take 32 |>.set (p - 0x80) b }
  else s

/-- The health summary of this instant (R455). TIME_STATE 2 is LOCKED, lane state 3 ALIGNED, port state 7 FAULTED. -/
def Mach.health (m : Mach) : Bytes :=
  let advised := (List.range 65).any fun k => m.rd E.PART_ADVICE k != 0
  let status := bn m.auth + 2 * bn (m.rd E.TIME_STATE == 2) + 4 * bn m.ep.up + 8 * bn advised + 16 * m.rd E.STORE_PENDING
  let days := (List.range 65).foldl (fun r k => Nat.min r (m.rd E.PART_DAYS k)) 0xFFFF
  let lanes := ((List.range 96).filter fun l => m.rd E.LANE_STATE l == 3).length
  let faulted := ((List.range 96).filter fun p => m.rd E.PORT_STATE p == 7).length
  leBytes 2 0x9601 ++ leBytes 1 1 ++ leBytes 1 0xA2 ++ leBytes 1 (m.rd E.MODULE_STATE) ++ leBytes 1 m.role ++
  leBytes 1 (errorBits m.causesNow) ++ leBytes 1 status ++ leBytes 2 (m.rd E.SUPPLY_V) ++ leBytes 2 (m.rd E.INPUT_POWER) ++
  leBytes 2 (m.rd E.TJ_MAX) ++ leBytes 2 (m.rd E.PLATE_TEMP) ++ leBytes 4 (m.rd E.POWERED_HOURS) ++ leBytes 4 (m.rd E.CLAMP_TALLY) ++
  leBytes 8 Config.eui ++ leBytes 4 (m.rd E.REVISION) ++ leBytes 2 days ++ leBytes 1 lanes ++ leBytes 1 faulted ++ zeros 24

/-- HEALTH_SUMMARY_REFRESH (R455). -/
def execHealthSummaryRefresh (s : State) : Host.Outcome State Fault Refusal :=
  s.onMach true fun m => m.when m.benchRuns fun m => { m with twi.summary := m.health }

/-! ### The target (R446 to R453) -/

/-- TWI_ADDRESS (R446, R447, R449, R451): an address other than its own is not acknowledged, and ends a transfer. -/
def execTwiAddress (address : Nat) (read : Bool) (s : State) : Host.Outcome State Fault Refusal :=
  s.onMach true fun m =>
    m.when (m.rd E.MODULE_STATE != 0 && !m.twi.waking) fun m =>
      let idle : TwiTarget := { m.twi with mode := 0, released := false, refusing := false }
      if address = m.rd E.TWI_ADDRESS then
        ({ m with twi := { idle with mode := if read then 3 else 1, snapshot := if read then m.twi.summary else m.twi.snapshot } }.inc
          E.TWI_TRANSFERS 0).emit (.twiAck true)
      else { m with twi := idle }

/-- TWI_POINTER rises by 1 and wraps (R449). -/
def Mach.pointerUp (m : Mach) : Mach := m.wr E.TWI_POINTER 0 ((m.rd E.TWI_POINTER + 1) % 256)

/-- A counted byte written to the target (R449, R452). -/
def State.twiWrite (s : State) (v : Nat) : State :=
  let t := s.m.twi
  let ack (s : State) : State := { s with m := s.m.emit (.twiAck true) }
  if t.waking ∨ (t.mode ≠ 1 ∧ t.mode ≠ 2) then s
  else if t.refusing then { s with m := s.m.emit (.twiAck false) }
  else if s.m.benchRuns = false then s
  else if t.mode = 1 then ack { s with m := { s.m.wr E.TWI_POINTER 0 (v % 256) with twi.mode := 2 } }
  else
    let s := s.pointerStore (s.m.rd E.TWI_POINTER) (BitVec.ofNat 8 v)
    ack { s with m := s.m.pointerUp }

/-- TWI_WRITE_BYTE (R449). -/
def execTwiWriteByte (v : Nat) (s : State) : Host.Outcome State Fault Refusal := .next (s.twiWrite v)

/-- TWI_READ_BYTE (R449, R451, R452): a byte of a refused transfer reads 0xFF and leaves the pointer (notes/assumptions/44.md). -/
def execTwiReadByte (acked : Bool) (s : State) : Host.Outcome State Fault Refusal :=
  s.onMach true fun m =>
    let t := m.twi
    if t.waking ∨ t.mode ≠ 3 ∨ t.released then m
    else if t.refusing then { m.emit (.twiByte 0xFF) with twi.released := !acked }
    else m.when m.benchRuns fun m =>
      let m := (m.emit (.twiByte (m.pointerByte (m.rd E.TWI_POINTER)))).pointerUp
      { m with twi.released := !acked }

/-- Set a bit of TWI_FLAGS. -/
def Mach.twiFlag (m : Mach) (b : Nat) : Mach := m.wr E.TWI_FLAGS 0 (putBit (m.rd E.TWI_FLAGS) b true)

/-- The target lets go of both lines and waits for a START. -/
def Mach.twiIdle (m : Mach) : Mach :=
  let m := if m.twi.waking then m.emit (.twiHold false) else m
  { m with twi := { m.twi with mode := 0, released := false, waking := false, refusing := false } }

/-- TWI_START_ABORT (R450): `ackSlot` is a START or repeated START where an acknowledge was due; only this is counted
(notes/assumptions/44.md). -/
def execTwiStartAbort (ackSlot : Bool) (s : State) : Host.Outcome State Fault Refusal :=
  s.onMach true fun m =>
    m.when (m.rd E.MODULE_STATE != 0 && m.twi.mode != 0 && !m.twi.waking) fun m =>
      let m := m.twiIdle
      if ackSlot then (m.inc E.ACK_ABORTS 0).twiFlag 2 else m

/-- TWI_LINE_TIMEOUT (R453). -/
def execTwiLineTimeout (sda : Bool) (s : State) : Host.Outcome State Fault Refusal :=
  s.onMach true fun m =>
    m.when (m.rd E.MODULE_STATE != 0) fun m =>
      let m := m.twiIdle
      if sda then (m.inc E.SDA_TIMEOUTS 0).twiFlag 1 else (m.inc E.SCL_TIMEOUTS 0).twiFlag 0

/-- TWI_WAKE (R452). -/
def execTwiWake (s : State) : Host.Outcome State Fault Refusal :=
  s.onMach true fun m =>
    m.when (m.rd E.MODULE_STATE == 2 && !m.life.awake && m.twi.mode != 0 && !m.twi.waking && !m.twi.refusing) fun m =>
      ({ m with twi.waking := true, twi.starting := true }.inc E.WAKES 0).emit (.twiHold true)

/-- TWI_WAKE_DONE (R452): the Bench's clocks run, after a hold of so many ns. -/
def execTwiWakeDone (ns : Nat) (s : State) : Host.Outcome State Fault Refusal :=
  s.onMach true fun m =>
    m.when m.twi.starting fun m =>
      let held := m.twi.waking
      let m := { m with twi.starting := false, twi.waking := false, life.awake := true, gw.endAt := m.ns }
      if held then (m.peak E.WAKE_STRETCH_MAX 0 (Nat.min ns 400000)).emit (.twiHold false) else m

/-- TWI_WAKE_TIMEOUT (R452): SCL is released after 400 µs and the transfer is refused. -/
def execTwiWakeTimeout (s : State) : Host.Outcome State Fault Refusal :=
  s.onMach true fun m =>
    m.when m.twi.waking fun m =>
      let m := { m with twi.waking := false, twi.refusing := true }
      ((m.inc E.WAKE_FAILS 0).peak E.WAKE_STRETCH_MAX 0 400000).emit (.twiHold false)

/-! ### The equalisation table (R54 to R57) -/

/-- A lane takes a record's words, or the default record; where an equalisation entry changes, bring-up starts again (R53). -/
def Mach.equalise (m : Mach) (l src : Nat) (fir eq dfe flags : Nat) : Mach :=
  let new := ((((m.wr E.TX_FIR l fir).wr E.RX_EQ l eq).wr E.RX_DFE l dfe).wr E.LANE_FLAGS l flags).wr E.EQ_SOURCE l src
  if [E.TX_FIR, E.RX_EQ, E.RX_DFE, E.LANE_FLAGS].all fun e => m.rd e l == new.rd e l then new else new.laneChanged l

/-- The default record of R56. -/
def Mach.equaliseDefault (m : Mach) (l : Nat) : Mach := m.equalise l 1 eqDefault.1 eqDefault.2.1 eqDefault.2.2 0

/-- The table's status (R54, R56): a COUNT outside 1 to 96 is a CRC error (notes/assumptions/44.md). -/
def eqStatus (slot : Nat) (b : Bytes) : Nat :=
  let n := leAt b 5 1
  if b.length < 16 ∨ leAt b 0 4 ≠ 0x4C514554 ∨ leAt b 4 1 ≠ 1 then 2
  else if n < 1 ∨ 96 < n ∨ crc32c ((b.drop 16).take (16 * n)) ≠ leAt b 8 4 then 3
  else if leAt b 6 1 ≠ 0xFF ∧ leAt b 6 1 ≠ slot then 4
  else 0

/-- The table is absent or wrong: every lane takes the default record. -/
def Mach.eqAbsent (m : Mach) (status : Nat) : Mach :=
  ((m.wr E.EQ_TABLE_STATUS 0 status).wr E.EQ_TABLE_REV 0 0).each (List.range 96) fun l m => m.equaliseDefault l

/-- The table as read: the first record of a lane governs, and one that breaks a range gives the default record. -/
def Mach.eqTable (m : Mach) (b : Bytes) : Mach :=
  let st := eqStatus m.slotId b
  if st ≠ 0 then m.eqAbsent st
  else
    let recs := (List.range (leAt b 5 1)).map fun i => (b.drop (16 + 16 * i)).take 16
    let m := (m.wr E.EQ_TABLE_STATUS 0 0).wr E.EQ_TABLE_REV 0 (leAt b 12 2)
    m.each (List.range 96) fun l m =>
      match recs.find? fun r => leAt r 0 1 % 128 == l with
      | none => m.equaliseDefault l
      | some r =>
        let m := { m with almanac.loss := SMap.put l (leAt r 2 1) m.almanac.loss }
        if txFirOk (leAt r 4 4) then m.equalise l 0 (leAt r 4 4) (leAt r 8 4) (leAt r 12 4) (leAt r 1 1 % 16) else m.equaliseDefault l

/-! ### The controller (R458 to R461) -/

/-- Set a bit of TWC_FLAGS. -/
def Mach.twcFlag (m : Mach) (b : Nat) : Mach := m.wr E.TWC_FLAGS 0 (putBit (m.rd E.TWC_FLAGS) b true)

/-- A waiting transfer takes the free controller, the EEPROM before the sensors; TWC_FLAGS then tells of this transfer. -/
def Mach.twcTake (m : Mach) : Mach :=
  match m.twc.now with
  | some _ => m
  | none =>
    let pick := if m.twc.queue.contains 0 then some 0 else m.twc.queue.head?
    match pick with
    | none => m
    | some t => { m with twc := { now := some t, queue := m.twc.queue.erase t } }.wr E.TWC_FLAGS 0 0

/-- The transfer is over; the next one takes the controller. -/
def Mach.twcEnd (m : Mach) : Mach := { m with twc := { m.twc with now := none } }.twcTake

/-- The transfer fails (R461): a sensor keeps its value, and the EEPROM's table counts as absent (R458). -/
def Mach.twcFail (m : Mach) : Mach :=
  let m := m.inc E.TWC_FAILS 0
  (if m.twc.now = some 0 then m.eqAbsent 1 else m).twcEnd

/-- Repeat the transfer in a phase, at most 3 times whatever the causes (R461, notes/assumptions/44.md). -/
def Mach.twcAgain (m : Mach) (phase : Nat) : Mach :=
  if m.twc.tries < 3 then { m with twc := { m.twc with tries := m.twc.tries + 1, phase := phase } } else m.twcFail

/-- The target address of the transfer. -/
def Mach.twcAddr (m : Mach) : Nat :=
  match m.twc.now with
  | some (k + 1) => m.rd E.SENSOR_ADDR k
  | _ => 0x50

/-- The bytes the transfer writes before it reads: the table's byte address 0x0100, most significant byte first, or a sensor's register
(R54, R458). -/
def Mach.twcPointer (m : Mach) : Bytes :=
  match m.twc.now with
  | some (k + 1) => leBytes 1 (m.rd E.SENSOR_REG k)
  | _ => [0x01, 0x00]

/-- TWC_POLL (R458): a sensor that has no address is not polled. -/
def execTwcPoll (k : Nat) (s : State) : Host.Outcome State Fault Refusal :=
  s.onMach (k < 8) fun m =>
    m.when (m.benchRuns && m.rd E.SENSOR_ADDR k != 0xFF && m.twc.now != some (k + 1) && !m.twc.queue.contains (k + 1)) fun m =>
      { m with twc.queue := m.twc.queue ++ [k + 1] }.twcTake

/-- TWC_TRANSFER_DONE (R54, R458): the equalisation table, or a sensor's two bytes, the first in [15:8]. -/
def execTwcTransferDone (data : Bytes) (s : State) : Host.Outcome State Fault Refusal :=
  s.onMach true fun m =>
    m.when (m.benchRuns && m.twc.phase == 1) fun m =>
      match m.twc.now with
      | none => m
      | some 0 => (m.eqTable data).twcEnd
      | some (k + 1) =>
        ((m.wr E.SENSOR_VALUE k (leAt data 0 1 * 256 + leAt data 1 1)).wr E.SENSOR_TIME k m.now.toNat).twcEnd

/-- The clocks of R459 on a line that reads high after `lows` of them: one after the other while SDA is low, `left` at most. -/
def clockLoop : Nat → Nat → Nat
  | 0, _ => 0
  | _ + 1, 0 => 0
  | lows + 1, left + 1 => clockLoop lows left + 1

/-- SDA was low while SCL was high: the recovery of R459 and its outcome. Answers whether the bus is free. -/
def Mach.twcRecover (m : Mach) (lows : Nat) : Mach :=
  let n := clockLoop lows 9
  let m := m.emit (.twc 3 n)
  if lows ≤ n then (m.emit (.twc 2 0)).inc E.BUS_RECOVERIES 0 else (m.twcFlag 1).inc E.BUS_STUCK 0

/-- TWC_BUS_CHECK (R459): SCL has been low for 25 ms; or SDA is low and reads high after `lows` clocks; or the bus is free and START is
sent. -/
def execTwcBusCheck (sclLow sdaLow : Bool) (lows : Nat) (s : State) : Host.Outcome State Fault Refusal :=
  s.onMach true fun m =>
    m.when m.benchRuns fun m =>
      let m := m.twcTake
      m.when (m.twc.now.isSome && (m.twc.phase == 0 || m.twc.phase == 4)) fun m =>
        if sclLow then { (m.twcFlag 2).inc E.BUS_STUCK 0 with twc.phase := 4 }
        else
          let m := if sdaLow then m.twcRecover lows else m
          if sdaLow ∧ 9 < lows then m.twcAgain 4
          else { (m.emit (.twc 1 m.twcAddr)).emit (.twcWrite m.twcPointer) with twc.phase := 1 }

/-- TWC_SDA_LOW_TIMEOUT (R459): the recovery within a transfer, which is then repeated. -/
def execTwcSdaLowTimeout (lows : Nat) (s : State) : Host.Outcome State Fault Refusal :=
  s.onMach true fun m =>
    m.when (m.benchRuns && m.twc.now.isSome && m.twc.phase == 1) fun m => (m.twcRecover lows).twcAgain (if 9 < lows then 4 else 0)

/-- TWC_ARB_LOSS (R460): a loss during the address byte is not counted. -/
def execTwcArbLoss (address : Bool) (s : State) : Host.Outcome State Fault Refusal :=
  s.onMach true fun m =>
    m.when (m.benchRuns && m.twc.now.isSome && m.twc.phase == 1) fun m =>
      let m := m.twcFlag 0
      { (if address then m else m.inc E.ARB_LOSSES 0) with twc.phase := 2 }

/-- TWC_BUS_FREE (R460). -/
def execTwcBusFree (s : State) : Host.Outcome State Fault Refusal :=
  s.onMach true fun m => m.when (m.benchRuns && m.twc.now.isSome && m.twc.phase == 2) fun m => m.twcAgain 0

/-- TWC_NACK (R461). -/
def execTwcNack (s : State) : Host.Outcome State Fault Refusal :=
  s.onMach true fun m =>
    m.when (m.benchRuns && m.twc.now.isSome && m.twc.phase == 1) fun m =>
      { ((m.emit (.twc 2 0)).twcFlag 3).inc E.TWC_NACKS 0 with twc.phase := 3 }

/-- TWC_RETRY (R461). -/
def execTwcRetry (s : State) : Host.Outcome State Fault Refusal :=
  s.onMach true fun m => m.when (m.benchRuns && m.twc.now.isSome && m.twc.phase == 3) fun m => m.twcAgain 0

end Sys2Proof.Machine
end

