-- ==== Sys2Proof/Machine/HostBar.lean ====
section
/-! DEFINITION. Reads and writes of BAR0 and of the configuration space by the host (R17, R316 to R325, R335, R439). -/

namespace Sys2Proof.Machine

/-- A write of word `w` of entry `k` of the MSI-X table (R322, R323): a message that may now go is sent. -/
def Mach.writeMsix (m : Mach) (k w v : Nat) : Mach :=
  let e := m.msixEntry k
  let e : MsixEntry := match w with
    | 0 => { e with addrLo := v / 4 * 4 }
    | 1 => { e with addrHi := v }
    | 2 => { e with data := v }
    | _ => { e with mask := bitOf v 0 }
  { m with ep.msix := SMap.set ({} : MsixEntry) m.ep.msix k e }.flushMsix

/-- A write of 4 bytes of MB_DATA (R439). -/
def Mach.writeMbData (m : Mach) (at_ v : Nat) : Mach :=
  let b := m.mb.data ++ zeros (at_ + 4 - m.mb.data.length)
  { m with mb.data := putBytes b at_ (leBytes 4 v) }

/-- A write of 4 bytes at an aligned offset of BAR0: read-only and reserved bits ignore it (R17). -/
def State.writeWord (s : State) (o v : Nat) : State :=
  let m := s.m
  let on (m : Mach) : State := { s with m := m }
  if o = 0x10 then s.ran (execIntCause v s)
  else if o = 0x14 then on { m with ep.intEnable := v % 256 }
  else if o = 0x18 then on { m with ep.intVector := v % 2048 }
  else if o = 0x1000 then on { m with mb.entry := v % 2 ^ 24 }
  else if o = 0x1004 then on { m with mb.ctrl := v % 8 }
  else if o = 0x1008 then on { m with mb.offset := v % 2 ^ 24 }
  else if o = 0x100C then on { m with mb.length := v % 2 ^ 13 }
  else if o = 0x1010 then on { m with mb.node := v % 2 ^ 16 }
  else if o = 0x1014 then s.mbGo (m.mb.ctrl % 4) (v % 2 ^ 16)
  else if 0x1100 ≤ o ∧ o < 0x2000 then on (m.writeMbData (o - 0x1100) v)
  else if o = 0x2000 then on { m with ep.apLo := v / 2 ^ 21 * 2 ^ 21 }
  else if o = 0x2004 then s.ran (execApertureHi v s)
  else if 0x10000 ≤ o ∧ o < 0x12000 ∧ o % 64 = 0 then s.ran (execDoorbell ((o - 0x10000) / 64) v s)
  else if 0x10000 ≤ o ∧ o < 0x12000 ∧ o % 64 = 12 then s.ran (execSwIndex ((o - 0x10000) / 64) v s)
  else if 0x100000 ≤ o ∧ o < 0x108000 then on (m.writeMsix ((o - 0x100000) / 16) (o % 16 / 4) v)
  else s

/-- A write of BAR0 that is received (R319): one of another size or alignment is discarded; the words of an 8-byte write take effect in
rising order. -/
def State.barStore (s : State) (offset : Nat) (data : Bytes) : State :=
  if barAccessOk offset data.length = false then s
  else
    let s := s.writeWord offset (leAt data 0 4)
    if data.length = 8 then s.writeWord (offset + 4) (leAt data 4 4) else s

/-- The link has trained and the module is not yet ATTACHED: configuration requests are answered with Configuration Request Retry Status (R472). -/
def Mach.starting (m : Mach) : Bool := m.ep.up && m.life.supply && m.rd E.MODULE_STATE == 0

/-- BAR0_REGISTER_WRITE (R17, R319, R335, R472): a write of BAR0, poisoned or not, or of 4 bytes of the configuration space, which has no
row of its own (notes/assumptions/54.md). -/
def execBar0RegisterWrite (cfg poisoned : Bool) (offset : Nat) (data : Bytes) (s : State) : Host.Outcome State Fault Refusal :=
  if cfg then
    s.onMach true fun m =>
      if m.starting then m.emit (.readErr 3)
      else m.when (m.configured && data.length == 4 && offset % 4 == 0 && !poisoned) fun m => m.cfgWrite offset (leAt data 0 4)
  else .next (if s.m.bar0 = false then { s with m := s.m.unsupported }
    else if poisoned then { s with m := s.m.poisoned }
    else s.barStore offset data)

/-! ### Reads -/

/-- The endpoint registers (R320). -/
def Mach.epWord (m : Mach) (o : Nat) : Nat :=
  let ep := m.ep
  match o with
  | 0x00 => 0x9601 + 0xA2 * 2 ^ 16 + 0x01 * 2 ^ 24
  | 0x04 => m.rd E.MODULE_STATE % 16 + 16 * bn m.auth + 32 * bn m.mayMaster
  | 0x08 => m.now.toNat % 2 ^ 32
  | 0x0C => ep.tw64Hi
  | 0x10 => ep.intCause
  | 0x14 => ep.intEnable
  | 0x18 => ep.intVector
  | 0x20 => ep.bmeDiscards
  | 0x24 => ep.complTimeouts
  | 0x28 => ep.lateCompletions
  | 0x2C => ep.quarantine.length % 2 ^ 16 + ep.reads.length % 2 ^ 16 * 2 ^ 16
  | 0x30 => m.rd E.LINK_RATE + m.rd E.LINK_WIDTH * 2 ^ 4 + m.rd E.LINK_FLIT * 2 ^ 9 + ep.e * 2 ^ 16
  | 0x34 => bn ep.drain + 2 * bn (ep.queuedBme || ep.queuedD0 || !ep.queuedCfg.isEmpty)
  | 0x38 => ep.msixDropped
  | 0x3C => ep.msixMerged
  | _ => 0

/-- The mailbox (R439). -/
def Mach.mbWord (m : Mach) (o : Nat) : Nat :=
  let b := m.mb
  match o with
  | 0x1000 => b.entry
  | 0x1004 => b.ctrl
  | 0x1008 => b.offset
  | 0x100C => b.length
  | 0x1010 => b.node
  | 0x1018 => b.status
  | 0x101C => b.info
  | 0x1020 => b.size
  | 0x1024 => b.returned
  | _ => if 0x1100 ≤ o then leAt b.data (o - 0x1100) 4 else 0

/-- Word `w` of entry `k` of the retention-ring table (R325). -/
def Mach.ringWord (m : Mach) (k w : Nat) : Nat :=
  let x := m.strm k
  if x.ringSize = 0 then 0
  else match w with
    | 0 => x.ringBase + x.ringSize * 2 ^ 16
    | 1 => Terms.slotQ x.cur
    | 2 => m.headCount k % 2 ^ 32
    | _ => m.ep.headHi.get 0 k

/-- A channel's block at 0x10000 + 64c (R321): DOORBELL is WO. -/
def Mach.chanWord (m : Mach) (c w : Nat) : Nat :=
  let x := m.chan c
  match w with
  | 0x04 => x.state
  | 0x08 => x.hw
  | 0x0C => x.sw
  | 0x10 => x.error
  | _ => 0

/-- Word `w` of entry `k` of the MSI-X table (R322). -/
def Mach.msixWord (m : Mach) (k w : Nat) : Nat :=
  let e := m.msixEntry k
  match w with
  | 0 => e.addrLo
  | 1 => e.addrHi
  | 2 => e.data
  | _ => bn e.mask

/-- The 4 bytes at an aligned offset of BAR0 (R17, R319): write-only and reserved bits read 0. -/
def Mach.barWord (m : Mach) (o : Nat) : Nat :=
  if o < 0x1000 then m.epWord o
  else if o < 0x2000 then m.mbWord o
  else if o = 0x2000 then m.ep.apLo
  else if o = 0x2004 then m.ep.apHi
  else if o = 0x2008 then m.ep.apReads
  else if o = 0x200C then m.ep.apDrops
  else if 0x3000 ≤ o ∧ o < 0x4000 then m.ringWord ((o - 0x3000) / 16) (o % 16 / 4)
  else if 0x10000 ≤ o ∧ o < 0x12000 then m.chanWord ((o - 0x10000) / 64) (o % 64)
  else if 0x100000 ≤ o ∧ o < 0x108000 then m.msixWord ((o - 0x100000) / 16) (o % 16 / 4)
  else if 0x108000 ≤ o ∧ o < 0x108100 then
    (List.range 32).foldl (fun r i => r + bn (m.ep.pba.contains ((o - 0x108000) * 8 + i)) * 2 ^ i) 0
  else 0

/-- What a read of 4 bytes latches (R320, R325). -/
def Mach.barLatch (m : Mach) (o : Nat) : Mach :=
  if o = 8 then m.latchTime
  else if 0x3000 ≤ o ∧ o < 0x4000 ∧ o % 16 = 8 then m.latchHead ((o - 0x3000) / 16)
  else m

/-- A read of BAR0 of an allowed size and alignment (R319): the words of an 8-byte read are read in rising order, so that the halves of
a pair that latches are coherent (R320). -/
def Mach.barLoad (m : Mach) (offset length : Nat) : Mach :=
  let n := m.barLatch offset
  if length = 8 then
    (n.barLatch (offset + 4)).emit (.readDone (leBytes 4 (m.barWord offset) ++ leBytes 4 (n.barWord (offset + 4))))
  else n.emit (.readDone (leBytes 4 (m.barWord offset)))

/-- BAR0_INVALID_ACCESS (R17, R319, R335): an access of BAR0 of a wrong size or alignment is completed with Completer Abort, or
discarded where it is a write; a read of an allowed one returns what the registers hold, and a read of 4 bytes of the configuration
space what it holds, for which the table has no rows of their own (notes/assumptions/54.md). -/
def execBar0InvalidAccess (cfg write : Bool) (offset length : Nat) (s : State) : Host.Outcome State Fault Refusal :=
  s.onMach true fun m =>
    if cfg then
      if m.starting then m.emit (.readErr 3)
      else m.when (m.configured && !write && length == 4 && offset % 4 == 0) fun m => m.emit (.readDone (leBytes 4 (m.cfgRead offset)))
    else if write then m.when (!m.bar0) Mach.unsupported
    else m.barRead fun m => if barAccessOk offset length then m.barLoad offset length else (m.emit (.readErr 2)).aer 4

end Sys2Proof.Machine
end

