-- ==== Sys2Proof/Machine/Frames.lean ====
section
/-! DEFINITION. Reception of Pyrik frames: each frame passes the checks of R387 and then has the effect of its kind (R369), pair
frames that of R401 to R403, bulk transfers that of R482. -/

namespace Sys2Proof.Machine

/-! ### Bulk transfers (R482) -/

/-- An Almanac record as it is exported (notes/assumptions/17.md). -/
def LogRec.bytes (r : LogRec) : Bytes :=
  leBytes 1 r.kind ++ leBytes 1 r.args.length ++ leBytes 2 r.era ++ zeros 4 ++ leBytes 8 r.time.toNat ++ r.args.flatMap fun a => leBytes 4 a

/-- The Almanac log from its oldest retained record. -/
def Mach.logBytes (m : Mach) : Bytes := m.almanac.log.flatMap LogRec.bytes

/-- Send data until 65,536 bytes are unacknowledged or nothing is left. -/
def Mach.bulkFill : Nat → Bulk → Mach → Bulk × Mach
  | 0, b, m => (b, m)
  | fuel + 1, b, m =>
    let n := Nat.min 2048 (Nat.min (b.total - b.next) (65536 - (b.next - b.acked)))
    if n = 0 then (b, m)
    else
      let m := (m.sendTo b.node 4 0x51 b.next b.num ((b.data.drop b.next).take n)).2
      Mach.bulkFill fuel { b with next := b.next + n } m

/-- The sender goes on: more data, or the close once everything is acknowledged. -/
def Mach.bulkGo (m : Mach) (b : Bulk) : Mach :=
  let b := { b with at_ := m.ns }
  if b.acked = b.total then
    { (m.sendTo b.node 4 0x53 b.total (crc32c b.data) []).2 with life.send := none }
  else
    let r := Mach.bulkFill 40 b m
    { r.2 with life.send := some r.1 }

/-- BULK_OPEN (R438, R480, R482): object 1 is received like writes of FW_SIZE and FW_DATA on the fabric path; object 2 with
length 0 asks for the Almanac log. A new transfer of a direction takes the place of one under way (notes/assumptions/45.md). -/
def Mach.onBulkOpen (m : Mach) (f : FabMsg) : Mach :=
  if m.serves 2 = false then m
  else if f.argA = 1 then
    let m := m.writeFwSize 2 (leBytes 4 f.argB)
    if m.rd E.REMOTE_WRITE = 2 then { m with life.recv := some { object := 1, node := f.src, num := f.fseq, total := f.argB } } else m
  else if f.argA = 2 ∧ f.argB = 0 then
    let data := m.logBytes
    let num := m.fseq
    let q := m.sendTo f.src 4 0x50 2 data.length []
    if q.1 then q.2.bulkGo { object := 2, node := f.src, num := num, total := data.length, data := data } else q.2
  else m

/-- The transfer under way in one direction that a frame belongs to. -/
def Bulk.matches (b : Bulk) (f : FabMsg) (num : Nat) : Bool := b.node == f.src && b.num == num

/-- BULK_DATA (R482): the next bytes are stored; others only bring the acknowledgement again. -/
def Mach.onBulkData (m : Mach) (f : FabMsg) : Mach :=
  match m.life.recv with
  | none => m
  | some b =>
    if b.matches f f.argB = false then m
    else
      let fresh := decide (f.argA = b.acked) && !f.payload.isEmpty
      let b := if fresh then { b with data := b.data ++ f.payload, acked := b.acked + f.payload.length } else b
      let m := if fresh then m.writeFwData 2 f.payload else m
      ({ m with life.recv := some b }.sendTo f.src 4 0x52 b.acked b.num []).2

/-- BULK_ACK (R482). -/
def Mach.onBulkAck (m : Mach) (f : FabMsg) : Mach :=
  match m.life.send with
  | none => m
  | some b =>
    if b.matches f f.argB = false ∨ f.argA < b.acked ∨ b.next < f.argA then m
    else m.bulkGo { b with acked := f.argA }

/-- BULK_CLOSE (R480, R482): a wrong CRC sets FW_STATE [1:0] to 3. -/
def Mach.onBulkClose (m : Mach) (f : FabMsg) : Mach :=
  match m.life.recv with
  | none => m
  | some b =>
    if b.node ≠ f.src then m
    else
      let m := { m with life.recv := none }
      if f.argA = b.total ∧ b.acked = b.total ∧ crc32c b.data = f.argB then m else m.fwState 3

/-- BULK_ACK_TIMEOUT (R482): 2 ms without a BULK_ACK, the data goes again from the acknowledged offset, at most 5 times. -/
def execBulkAckTimeout (s : State) : Host.Outcome State Fault Refusal :=
  s.onMach true fun m =>
    match m.life.send with
    | none => m
    | some b =>
      m.when (decide (b.at_ + 2000000 ≤ m.ns)) fun m =>
        if 5 ≤ b.resends then { m with life.send := none } else m.bulkGo { b with resends := b.resends + 1, next := b.acked }

/-! ### CONFIG (R403) -/

/-- A whole pair-wide write has come (R403): in slot A one that slot B received, which is applied and passed on with 256 added to its
path; in slot B one to apply, which has then been applied on both: slot A is told, or it was slot B's own. -/
def State.onWide (s : State) (a path num key : Nat) (data : Bytes) : State :=
  let m := s.m
  let t := s.write 4 (key / 256 % 65536) (key % 256) data
  if a = 1 then { t with m := (t.m.tallyAsBefore m).sendConfig 2 (path + 256) num key data }
  else if 256 ≤ path ∧ path < 260 then { t with m := (t.m.tallyToPath m (path - 256)).wideEnds num }
  else { t with m := (t.m.tallyAsBefore m).pairSend 0x68 3 4 key (configPayload path num 0 0 []) }

/-- A CONFIG frame (R132, R403; notes/assumptions/17.md): ARG_A 1 or 2 a piece of a write to slot A or to slot B; 3 the partner's answer
to a verdict; 4 slot B has applied a write. A piece that does not follow the one before is dropped with its write. -/
def State.onConfig (s : State) (f : FabMsg) : State :=
  let m := s.m
  let b := f.payload
  let num := leAt b 4 4
  if b.length < 12 then s
  else if f.argA = 1 ∨ f.argA = 2 then
    let have_ := if leAt b 8 4 = 0 then [] else m.pair.wideIn
    if (f.argA == 1) != m.slotA ∨ b.length < 16 then s
    else if have_.length ≠ leAt b 8 4 then { s with m := { m with pair.wideIn := [] } }
    else
      let got := have_ ++ b.drop 16
      if got.length < leAt b 12 4 then { s with m := { m with pair.wideIn := got } }
      else ({ s with m := { m with pair.wideIn := [] } }.onWide f.argA (leAt b 0 4) num f.argB got).settleWides
  else if f.argA = 4 then ({ s with m := m.wideEnds num } : State).settleWides
  else if f.argA = 3 ∧ f.argB < 256 then
    s.ran (execPartnerVerdictAnswer f.argB (leAt f.payload 0 4 == 0) (leAt f.payload 0 4) (leAt f.payload 4 4) (leAt f.payload 8 4) s)
  else s

/-! ### Pair frames (R401) -/

/-- The effect of a pair frame that arrives on cross-link port `p` for the first time. -/
def State.pairKind (s : State) (p : Nat) (f : FabMsg) : State :=
  let on (g : Mach → Mach) : State := { s with m := g s.m }
  if f.kind = 0x60 then on fun m => m.onPairState p f
  else if f.kind = 0x61 then on fun m => m.onMark f
  else if f.kind = 0x62 then on fun m => m.onLog f
  else if f.kind = 0x63 then on fun m => m.onDigest f
  else if f.kind = 0x64 then on fun m => m.onDecision f
  else if f.kind = 0x65 then
    let r := onPosStamp f s.hbm s.m
    { s with hbm := r.1, m := r.2 }
  else if f.kind = 0x66 then on fun m => m.onHostWrite f
  else if f.kind = 0x67 then on fun m => m.onReplay f
  else if f.kind = 0x68 then s.onConfig f
  else if f.kind = 0x69 then on fun m => m.onSyncData f
  else if f.kind = 0x6A then on fun m => m.onPairAck f
  else s

/-- A pair frame from the partner: a TC2 frame is acknowledged, and one that has come before has no other effect. -/
def State.onPairFrame (s : State) (p : Nat) (f : FabMsg) : State :=
  if s.m.paired = false ∨ s.m.rd E.MODULE_STATE < 4 ∨ s.m.xlinkPorts.contains p = false then s
  else
    let s := { s with m := s.m.heardPair }
    -- Two modules in the same slot are no pair: only the next PAIR_STATE is looked at (R393).
    if f.kind ≠ 0x60 ∧ s.m.flagOn 8 then s
    else if f.tc = 2 ∧ f.kind ≠ 0x6A then
      let r := s.m.pairSeen f.fseq
      let s := { s with m := r.2 }
      let s := if r.1 then s else s.pairKind p f
      { s with m := s.m.sendAck }
    else s.pairKind p f

/-! ### Every frame -/

/-- The effect of a frame that has passed the checks and is for this node; `t` is its stamp at the reference symbol, or of the
answer that it calls for (R292). -/
def State.deliver (s : State) (p : Nat) (t : TW64) (f : FabMsg) : State :=
  let on (g : Mach → Mach) : State := { s with m := g s.m }
  if f.kind = 0x01 then on fun m => m.onHello p f
  else if f.kind = 0x02 then on fun m => m.onCredit p f
  else if f.kind = 0x03 then on fun m => m.onReport p f
  else if f.kind = 0x04 then on fun m => m.onMap p f
  else if f.kind = 0x10 then on fun m => m.onTime p f t
  else if f.kind = 0x20 then on fun m => m.onEvent f
  else if f.kind = 0x30 then
    let r := onLine f s.hbm s.m
    { s with hbm := r.1, m := r.2 }
  else if f.kind = 0x31 then on fun m => m.onSetNotice f
  else if f.kind = 0x40 then on fun m => m.onReserve f
  else if f.kind = 0x41 then on fun m => m.onReserveHop p f
  else if f.kind = 0x42 then on fun m => m.onReserveAnswer f
  else if f.kind = 0x43 then on fun m => m.onRelease f
  else if f.kind = 0x48 then s.onDictRequest f
  else if f.kind = 0x49 then on fun m => m.onDictResponse f
  else if f.kind = 0x50 then on fun m => m.onBulkOpen f
  else if f.kind = 0x51 then on fun m => m.onBulkData f
  else if f.kind = 0x52 then on fun m => m.onBulkAck f
  else if f.kind = 0x53 then on fun m => m.onBulkClose f
  else if 0x60 ≤ f.kind then s.onPairFrame p f
  else s

/-- A frame arrives on a port (R387). -/
def State.frameIn (s : State) (p : Nat) (b : Bytes) (damaged : Bool) (t : TW64) : State :=
  let r := s.m.receiveFrame p b damaged
  let s := { s with m := r.2 }
  match r.1 with
  | some f => s.deliver p t f
  | none => s

/-- KIND of a frame. -/
def frameKind (b : Bytes) : Nat := leAt b 1 1

/-- A frame of a kind arrives on a port; a frame of another kind is not this command's (notes/assumptions/5.md). -/
def State.kindIn (s : State) (kind p : Nat) (b : Bytes) (t : TW64) : Host.Outcome State Fault Refusal :=
  if p < 96 then .next (if frameKind b = kind then s.frameIn p b false t else s) else .fault .noSuchResource

/-- A TIME frame of a message kind arrives on a port (R292). -/
def State.timeIn (s : State) (msg p : Nat) (b : Bytes) (t : TW64) : Host.Outcome State Fault Refusal :=
  if p < 96 then .next (if frameKind b = 0x10 ∧ leAt b 28 1 = msg then s.frameIn p b false t else s) else .fault .noSuchResource

/-- A pair frame arrives on the cross-link port in use (R391). -/
def State.pairIn (s : State) (kind : Nat) (b : Bytes) (t : TW64) : Host.Outcome State Fault Refusal :=
  match s.m.xlinkPort with
  | some p => .next (if frameKind b = kind then s.frameIn p b false t else s)
  | none => .next s

/-- FABRIC_FRAME (R387): a frame of any kind. -/
def execFabricFrame (p : Nat) (b : Bytes) (damaged : Bool) (t : TW64) (s : State) : Host.Outcome State Fault Refusal :=
  if p < 96 then .next (s.frameIn p b damaged t) else .fault .noSuchResource

/-- HELLO (R371). -/
def execHello (p : Nat) (b : Bytes) (t : TW64) (s : State) : Host.Outcome State Fault Refusal := s.kindIn 0x01 p b t
/-- CREDIT (R377). -/
def execCredit (p : Nat) (b : Bytes) (s : State) : Host.Outcome State Fault Refusal := s.kindIn 0x02 p b 0
/-- LINK_REPORT (R372). -/
def execLinkReport (p : Nat) (b : Bytes) (s : State) : Host.Outcome State Fault Refusal := s.kindIn 0x03 p b 0
/-- MAP (R372). -/
def execMap (p : Nat) (b : Bytes) (s : State) : Host.Outcome State Fault Refusal := s.kindIn 0x04 p b 0
/-- ANNOUNCE (R294). -/
def execAnnounce (p : Nat) (b : Bytes) (t : TW64) (s : State) : Host.Outcome State Fault Refusal := s.timeIn 1 p b t
/-- SYNC (R292). -/
def execSync (p : Nat) (b : Bytes) (t2 : TW64) (s : State) : Host.Outcome State Fault Refusal := s.timeIn 2 p b t2
/-- FOLLOW_UP (R292): the DELAY_REQ that it calls for departs at t3. -/
def execFollowUp (p : Nat) (b : Bytes) (t3 : TW64) (s : State) : Host.Outcome State Fault Refusal := s.timeIn 3 p b t3
/-- DELAY_REQ (R292). -/
def execDelayReq (p : Nat) (b : Bytes) (t4 : TW64) (s : State) : Host.Outcome State Fault Refusal := s.timeIn 4 p b t4
/-- DELAY_RESP (R292). -/
def execDelayResp (p : Nat) (b : Bytes) (s : State) : Host.Outcome State Fault Refusal := s.timeIn 5 p b 0
/-- EVENT (R384). -/
def execEvent (p : Nat) (b : Bytes) (t : TW64) (s : State) : Host.Outcome State Fault Refusal := s.kindIn 0x20 p b t
/-- LINE (R382). -/
def execLine (p : Nat) (b : Bytes) (tLast : TW64) (s : State) : Host.Outcome State Fault Refusal := s.kindIn 0x30 p b tLast
/-- SET_NOTICE (R383). -/
def execSetNotice (p : Nat) (b : Bytes) (s : State) : Host.Outcome State Fault Refusal := s.kindIn 0x31 p b 0
/-- RESERVE (R380). -/
def execReserve (p : Nat) (b : Bytes) (s : State) : Host.Outcome State Fault Refusal := s.kindIn 0x40 p b 0
/-- RESERVE_HOP (R380). -/
def execReserveHop (p : Nat) (b : Bytes) (s : State) : Host.Outcome State Fault Refusal := s.kindIn 0x41 p b 0
/-- RESERVE_ANSWER (R380). -/
def execReserveAnswer (p : Nat) (b : Bytes) (s : State) : Host.Outcome State Fault Refusal := s.kindIn 0x42 p b 0
/-- RELEASE on the fabric (R380). -/
def execReleaseFrame (p : Nat) (b : Bytes) (s : State) : Host.Outcome State Fault Refusal := s.kindIn 0x43 p b 0
/-- DICT_REQUEST (R441). -/
def execDictRequest (p : Nat) (b : Bytes) (s : State) : Host.Outcome State Fault Refusal := s.kindIn 0x48 p b 0
/-- DICT_RESPONSE (R441). -/
def execDictResponse (p : Nat) (b : Bytes) (s : State) : Host.Outcome State Fault Refusal := s.kindIn 0x49 p b 0
/-- BULK_OPEN (R482). -/
def execBulkOpen (p : Nat) (b : Bytes) (s : State) : Host.Outcome State Fault Refusal := s.kindIn 0x50 p b 0
/-- BULK_DATA (R482). -/
def execBulkData (p : Nat) (b : Bytes) (s : State) : Host.Outcome State Fault Refusal := s.kindIn 0x51 p b 0
/-- BULK_ACK (R482). -/
def execBulkAck (p : Nat) (b : Bytes) (s : State) : Host.Outcome State Fault Refusal := s.kindIn 0x52 p b 0
/-- BULK_CLOSE (R482). -/
def execBulkClose (p : Nat) (b : Bytes) (s : State) : Host.Outcome State Fault Refusal := s.kindIn 0x53 p b 0
/-- PAIR_STATE (R402). -/
def execPairState (b : Bytes) (t : TW64) (s : State) : Host.Outcome State Fault Refusal := s.pairIn 0x60 b t
/-- COMMIT_MARK (R405). -/
def execCommitMark (b : Bytes) (s : State) : Host.Outcome State Fault Refusal := s.pairIn 0x61 b 0
/-- DELIVERY_LOG (R404). -/
def execDeliveryLog (b : Bytes) (s : State) : Host.Outcome State Fault Refusal := s.pairIn 0x62 b 0
/-- STRIPE_DIGEST (R407). -/
def execStripeDigest (b : Bytes) (s : State) : Host.Outcome State Fault Refusal := s.pairIn 0x63 b 0
/-- DECISION frame (R279). -/
def execDecisionFrame (b : Bytes) (s : State) : Host.Outcome State Fault Refusal := s.pairIn 0x64 b 0
/-- POS_STAMP (R248, R406). -/
def execPosStamp (b : Bytes) (s : State) : Host.Outcome State Fault Refusal := s.pairIn 0x65 b 0
/-- HOST_WRITE (R403). -/
def execHostWrite (b : Bytes) (s : State) : Host.Outcome State Fault Refusal := s.pairIn 0x66 b 0
/-- REPLAY (R410). -/
def execReplay (b : Bytes) (s : State) : Host.Outcome State Fault Refusal := s.pairIn 0x67 b 0
/-- CONFIG (R403). -/
def execConfig (b : Bytes) (s : State) : Host.Outcome State Fault Refusal := s.pairIn 0x68 b 0
/-- SYNC_DATA (R418). -/
def execSyncData (b : Bytes) (s : State) : Host.Outcome State Fault Refusal := s.pairIn 0x69 b 0
/-- PAIR_ACK (R401). -/
def execPairAck (b : Bytes) (s : State) : Host.Outcome State Fault Refusal := s.pairIn 0x6A b 0

end Sys2Proof.Machine
end

