-- ==== Sys2Proof/Machine/Dispatch.lean ====
section
/-! DEFINITION. The meaning of every command: one arm per constructor of Instr. -/

namespace Sys2Proof.Machine

/-- The effect of a command on everything but the queue. -/
def exec (i : Instr) (s : State) : Host.Outcome State Fault Refusal :=
  match i with
  | .laneReconfigure path index sub data => Sys2Proof.Machine.execLaneReconfigure path index sub data s
  | .refSwitchover => Sys2Proof.Machine.execRefSwitchover s
  | .refHoldover => Sys2Proof.Machine.execRefHoldover s
  | .refValidReturn a b => Sys2Proof.Machine.execRefValidReturn a b s
  | .quadPllLock q => Sys2Proof.Machine.execQuadPllLock q s
  | .signalAcquired lane => Sys2Proof.Machine.execSignalAcquired lane s
  | .lossOfSignal lane => Sys2Proof.Machine.execLossOfSignal lane s
  | .searchDwell lane => Sys2Proof.Machine.execSearchDwell lane s
  | .searchPassWait lane => Sys2Proof.Machine.execSearchPassWait lane s
  | .slip path lane data => Sys2Proof.Machine.execSlip path lane data s
  | .searchMode path lane data => Sys2Proof.Machine.execSearchMode path lane data s
  | .blockReceive lane header payload => Sys2Proof.Machine.execBlockReceive lane header payload s
  | .blkLockSet lane => Sys2Proof.Machine.execBlkLockSet lane s
  | .lockLostTimeout lane => Sys2Proof.Machine.execLockLostTimeout lane s
  | .alignLoss lane => Sys2Proof.Machine.execAlignLoss lane s
  | .codewordReceive lane levels => Sys2Proof.Machine.execCodewordReceive lane levels s
  | .alignmentMarker lane header payload => Sys2Proof.Machine.execAlignmentMarker lane header payload s
  | .eyeMeasure lane => Sys2Proof.Machine.execEyeMeasure lane s
  | .eyeMeasureDone lane up mid low width => Sys2Proof.Machine.execEyeMeasureDone lane up mid low width s
  | .loopFifoRecentre lane => Sys2Proof.Machine.execLoopFifoRecentre lane s
  | .linkSettle port => Sys2Proof.Machine.execLinkSettle port s
  | .linkOfferSend port => Sys2Proof.Machine.execLinkOfferSend port s
  | .identity port bytes hdrDamaged payDamaged t => Sys2Proof.Machine.execIdentity port bytes hdrDamaged payDamaged t s
  | .identityTimeout port => Sys2Proof.Machine.execIdentityTimeout port s
  | .pixelPacket port bytes hdrDamaged payDamaged tFirst tLast => Sys2Proof.Machine.execPixelPacket port bytes hdrDamaged payDamaged tFirst tLast s
  | .squallCalm stream => Sys2Proof.Machine.execSquallCalm stream s
  | .streamAbsent stream => Sys2Proof.Machine.execStreamAbsent stream s
  | .regCmdRead path port => Sys2Proof.Machine.execRegCmdRead path port s
  | .regCmdWrite path port => Sys2Proof.Machine.execRegCmdWrite path port s
  | .regCmdSettingsWrite path port => Sys2Proof.Machine.execRegCmdSettingsWrite path port s
  | .regBucketReady port => Sys2Proof.Machine.execRegBucketReady port s
  | .regResponse port bytes hdrDamaged payDamaged t => Sys2Proof.Machine.execRegResponse port bytes hdrDamaged payDamaged t s
  | .regTimeout port => Sys2Proof.Machine.execRegTimeout port s
  | .downstreamPacketSend port t => Sys2Proof.Machine.execDownstreamPacketSend port t s
  | .ack port bytes hdrDamaged payDamaged t => Sys2Proof.Machine.execAck port bytes hdrDamaged payDamaged t s
  | .triggerAckTimeout port tid => Sys2Proof.Machine.execTriggerAckTimeout port tid s
  | .beaconSend port => Sys2Proof.Machine.execBeaconSend port s
  | .beaconAckTimeout port bid => Sys2Proof.Machine.execBeaconAckTimeout port bid s
  | .camEvent port bytes hdrDamaged payDamaged t => Sys2Proof.Machine.execCamEvent port bytes hdrDamaged payDamaged t s
  | .commit path stream => Sys2Proof.Machine.execCommit path stream s
  | .start path stream => Sys2Proof.Machine.execStart path stream s
  | .stop path stream => Sys2Proof.Machine.execStop path stream s
  | .release path stream => Sys2Proof.Machine.execRelease path stream s
  | .discard path stream => Sys2Proof.Machine.execDiscard path stream s
  | .forecastVerdict stream => Sys2Proof.Machine.execForecastVerdict stream s
  | .partnerVerdictAnswer stream answer reason detail bound => Sys2Proof.Machine.execPartnerVerdictAnswer stream answer reason detail bound s
  | .partnerVerdictTimeout stream => Sys2Proof.Machine.execPartnerVerdictTimeout stream s
  | .autoResume stream => Sys2Proof.Machine.execAutoResume stream s
  | .reforecast => Sys2Proof.Machine.execReforecast s
  | .lookaheadTimeout stream => Sys2Proof.Machine.execLookaheadTimeout stream s
  | .stripeStart planer => Sys2Proof.Machine.execStripeStart planer s
  | .stripeFinish planer => Sys2Proof.Machine.execStripeFinish planer s
  | .replayWindow planer => Sys2Proof.Machine.execReplayWindow planer s
  | .replaySliceEnd planer => Sys2Proof.Machine.execReplaySliceEnd planer s
  | .stripeWatchdog planer => Sys2Proof.Machine.execStripeWatchdog planer s
  | .planerClockGate planer => Sys2Proof.Machine.execPlanerClockGate planer s
  | .paramsApply path stream data => Sys2Proof.Machine.execParamsApply path stream data s
  | .setSlotWaitEnd stream => Sys2Proof.Machine.execSetSlotWaitEnd stream s
  | .tblSize path data => Sys2Proof.Machine.execTblSize path data s
  | .tblData path data => Sys2Proof.Machine.execTblData path data s
  | .tblCmdSwap path => Sys2Proof.Machine.execTblCmdSwap path s
  | .tblCmdAbandon path => Sys2Proof.Machine.execTblCmdAbandon path s
  | .tableActivate profile kind => Sys2Proof.Machine.execTableActivate profile kind s
  | .bgCmd path stream data => Sys2Proof.Machine.execBgCmd path stream data s
  | .posMode path channel data => Sys2Proof.Machine.execPosMode path channel data s
  | .posSample channel rawSin rawCos t => Sys2Proof.Machine.execPosSample channel rawSin rawCos t s
  | .ampDwellExpiry channel => Sys2Proof.Machine.execAmpDwellExpiry channel s
  | .ssiPoll channel t => Sys2Proof.Machine.execSsiPoll channel t s
  | .ssiFrame channel word t => Sys2Proof.Machine.execSsiFrame channel word t s
  | .ssiJumpResync channel word t => Sys2Proof.Machine.execSsiJumpResync channel word t s
  | .ssiLost channel => Sys2Proof.Machine.execSsiLost channel s
  | .posCmd path channel data => Sys2Proof.Machine.execPosCmd path channel data s
  | .gateEnd channel => Sys2Proof.Machine.execGateEnd channel s
  | .standstill channel => Sys2Proof.Machine.execStandstill channel s
  | .divOutputStep channel => Sys2Proof.Machine.execDivOutputStep channel s
  | .mgCmdArm path sequencer => Sys2Proof.Machine.execMgCmdArm path sequencer s
  | .mgCmdDisarm path sequencer => Sys2Proof.Machine.execMgCmdDisarm path sequencer s
  | .mgTimeTarget sequencer => Sys2Proof.Machine.execMgTimeTarget sequencer s
  | .mgPulseEnd sequencer => Sys2Proof.Machine.execMgPulseEnd sequencer s
  | .mgTargetWrite path sequencer sub data => Sys2Proof.Machine.execMgTargetWrite path sequencer sub data s
  | .mgCountWrite path sequencer data => Sys2Proof.Machine.execMgCountWrite path sequencer data s
  | .decision ring bytes ta => Sys2Proof.Machine.execDecision ring bytes ta s
  | .valveUpdate valvePort returned => Sys2Proof.Machine.execValveUpdate valvePort returned s
  | .vpEnable path valvePort data => Sys2Proof.Machine.execVpEnable path valvePort data s
  | .timeChangeApply => Sys2Proof.Machine.execTimeChangeApply s
  | .timeCmdInstall path => Sys2Proof.Machine.execTimeCmdInstall path s
  | .timeCmdSet path => Sys2Proof.Machine.execTimeCmdSet path s
  | .eraIncrement => Sys2Proof.Machine.execEraIncrement s
  | .syncPeriod => Sys2Proof.Machine.execSyncPeriod s
  | .announce port bytes t => Sys2Proof.Machine.execAnnounce port bytes t s
  | .announceAgeout eui => Sys2Proof.Machine.execAnnounceAgeout eui s
  | .sync port bytes t2 => Sys2Proof.Machine.execSync port bytes t2 s
  | .followUp port bytes t3 => Sys2Proof.Machine.execFollowUp port bytes t3 s
  | .delayReq port bytes t4 => Sys2Proof.Machine.execDelayReq port bytes t4 s
  | .delayResp port bytes => Sys2Proof.Machine.execDelayResp port bytes s
  | .syncExchangeTimeout port => Sys2Proof.Machine.execSyncExchangeTimeout port s
  | .parentTimeout => Sys2Proof.Machine.execParentTimeout s
  | .ppsInEdge rising t => Sys2Proof.Machine.execPpsInEdge rising t s
  | .ppsInGap => Sys2Proof.Machine.execPpsInGap s
  | .ppsOutRise => Sys2Proof.Machine.execPpsOutRise s
  | .ppsOutFall => Sys2Proof.Machine.execPpsOutFall s
  | .ptmDialog => Sys2Proof.Machine.execPtmDialog s
  | .ptmDialogDone ok hostTime t => Sys2Proof.Machine.execPtmDialogDone ok hostTime t s
  | .swPublish path data => Sys2Proof.Machine.execSwPublish path data s
  | .dinEdge pin rising t => Sys2Proof.Machine.execDinEdge pin rising t s
  | .relayPublish task => Sys2Proof.Machine.execRelayPublish task s
  | .taskPulseEnd task => Sys2Proof.Machine.execTaskPulseEnd task s
  | .holdoffEnd task => Sys2Proof.Machine.execHoldoffEnd task s
  | .pinGenWindowEnd pin => Sys2Proof.Machine.execPinGenWindowEnd pin s
  | .taskConfigWrite path task sub data => Sys2Proof.Machine.execTaskConfigWrite path task sub data s
  | .linkChange rate width flit mps errors => Sys2Proof.Machine.execLinkChange rate width flit mps errors s
  | .dataLinkDown => Sys2Proof.Machine.execDataLinkDown s
  | .bmeClear => Sys2Proof.Machine.execBmeClear s
  | .bmeSet => Sys2Proof.Machine.execBmeSet s
  | .drainEnd => Sys2Proof.Machine.execDrainEnd s
  | .functionLevelReset => Sys2Proof.Machine.execFunctionLevelReset s
  | .flrComplete => Sys2Proof.Machine.execFlrComplete s
  | .d3hotEntry => Sys2Proof.Machine.execD3hotEntry s
  | .d0Return => Sys2Proof.Machine.execD0Return s
  | .msixEnableWrite enable functionMask => Sys2Proof.Machine.execMsixEnableWrite enable functionMask s
  | .msixPendingSend vector => Sys2Proof.Machine.execMsixPendingSend vector s
  | .intCause value => Sys2Proof.Machine.execIntCause value s
  | .tw64Lo => Sys2Proof.Machine.execTw64Lo s
  | .headLo stream => Sys2Proof.Machine.execHeadLo stream s
  | .apertureHi value => Sys2Proof.Machine.execApertureHi value s
  | .apertureRead offset length => Sys2Proof.Machine.execApertureRead offset length s
  | .apertureWrite poisoned offset length => Sys2Proof.Machine.execApertureWrite poisoned offset length s
  | .bar0InvalidAccess cfg write offset length => Sys2Proof.Machine.execBar0InvalidAccess cfg write offset length s
  | .bar0RegisterWrite cfg poisoned offset data => Sys2Proof.Machine.execBar0RegisterWrite cfg poisoned offset data s
  | .completion tag status data => Sys2Proof.Machine.execCompletion tag status data s
  | .completionTimeout tag => Sys2Proof.Machine.execCompletionTimeout tag s
  | .tagQuarantineEnd tag => Sys2Proof.Machine.execTagQuarantineEnd tag s
  | .doorbell channel value => Sys2Proof.Machine.execDoorbell channel value s
  | .swIndex channel value => Sys2Proof.Machine.execSwIndex channel value s
  | .chCmdStart path channel => Sys2Proof.Machine.execChCmdStart path channel s
  | .chCmdStop path channel => Sys2Proof.Machine.execChCmdStop path channel s
  | .chCmdRelease path channel => Sys2Proof.Machine.execChCmdRelease path channel s
  | .ringEntryFetch channel => Sys2Proof.Machine.execRingEntryFetch channel s
  | .unitIssue channel => Sys2Proof.Machine.execUnitIssue channel s
  | .spaceWait channel => Sys2Proof.Machine.execSpaceWait channel s
  | .veneerPost stream t stall => Sys2Proof.Machine.execVeneerPost stream t stall s
  | .trailerVeneer stream t => Sys2Proof.Machine.execTrailerVeneer stream t s
  | .probeComplete status data => Sys2Proof.Machine.execProbeComplete status data s
  | .probeTimeout => Sys2Proof.Machine.execProbeTimeout s
  | .drainTimeout => Sys2Proof.Machine.execDrainTimeout s
  | .helloSend port => Sys2Proof.Machine.execHelloSend port s
  | .hello port bytes t => Sys2Proof.Machine.execHello port bytes t s
  | .helloTimeout port => Sys2Proof.Machine.execHelloTimeout port s
  | .helloFaultTimeout port => Sys2Proof.Machine.execHelloFaultTimeout port s
  | .credit port bytes => Sys2Proof.Machine.execCredit port bytes s
  | .creditSend port => Sys2Proof.Machine.execCreditSend port s
  | .creditStarved port tc => Sys2Proof.Machine.execCreditStarved port tc s
  | .creditStarveFault port tc => Sys2Proof.Machine.execCreditStarveFault port tc s
  | .fabricFrameSend port => Sys2Proof.Machine.execFabricFrameSend port s
  | .fabricFrame port bytes damaged t => Sys2Proof.Machine.execFabricFrame port bytes damaged t s
  | .linkReport port bytes => Sys2Proof.Machine.execLinkReport port bytes s
  | .mapWalk => Sys2Proof.Machine.execMapWalk s
  | .map port bytes => Sys2Proof.Machine.execMap port bytes s
  | .event port bytes t => Sys2Proof.Machine.execEvent port bytes t s
  | .line port bytes tLast => Sys2Proof.Machine.execLine port bytes tLast s
  | .setNotice port bytes => Sys2Proof.Machine.execSetNotice port bytes s
  | .reserve port bytes => Sys2Proof.Machine.execReserve port bytes s
  | .reserveHop port bytes => Sys2Proof.Machine.execReserveHop port bytes s
  | .reserveAnswer port bytes => Sys2Proof.Machine.execReserveAnswer port bytes s
  | .reserveAnswerTimeout stream => Sys2Proof.Machine.execReserveAnswerTimeout stream s
  | .releaseFrame port bytes => Sys2Proof.Machine.execReleaseFrame port bytes s
  | .holdExpiry port flow node => Sys2Proof.Machine.execHoldExpiry port flow node s
  | .dictRequest port bytes => Sys2Proof.Machine.execDictRequest port bytes s
  | .dictResponse port bytes => Sys2Proof.Machine.execDictResponse port bytes s
  | .dictRequestTimeout => Sys2Proof.Machine.execDictRequestTimeout s
  | .bulkOpen port bytes => Sys2Proof.Machine.execBulkOpen port bytes s
  | .bulkData port bytes => Sys2Proof.Machine.execBulkData port bytes s
  | .bulkAck port bytes => Sys2Proof.Machine.execBulkAck port bytes s
  | .bulkClose port bytes => Sys2Proof.Machine.execBulkClose port bytes s
  | .bulkAckTimeout => Sys2Proof.Machine.execBulkAckTimeout s
  | .pairStateSend present ownRead => Sys2Proof.Machine.execPairStateSend present ownRead s
  | .pairState bytes t => Sys2Proof.Machine.execPairState bytes t s
  | .commitMarkSend => Sys2Proof.Machine.execCommitMarkSend s
  | .commitMark bytes => Sys2Proof.Machine.execCommitMark bytes s
  | .deliveryLog bytes => Sys2Proof.Machine.execDeliveryLog bytes s
  | .stripeDigest bytes => Sys2Proof.Machine.execStripeDigest bytes s
  | .digestWaitTimeout stream frame line => Sys2Proof.Machine.execDigestWaitTimeout stream frame line s
  | .decisionFrame bytes => Sys2Proof.Machine.execDecisionFrame bytes s
  | .posStamp bytes => Sys2Proof.Machine.execPosStamp bytes s
  | .posStampTimeout stream frame line => Sys2Proof.Machine.execPosStampTimeout stream frame line s
  | .hostWrite bytes => Sys2Proof.Machine.execHostWrite bytes s
  | .replay bytes => Sys2Proof.Machine.execReplay bytes s
  | .replayDone planer => Sys2Proof.Machine.execReplayDone planer s
  | .config bytes => Sys2Proof.Machine.execConfig bytes s
  | .syncData bytes => Sys2Proof.Machine.execSyncData bytes s
  | .pairAck bytes => Sys2Proof.Machine.execPairAck bytes s
  | .pairResend => Sys2Proof.Machine.execPairResend s
  | .unitExpiry => Sys2Proof.Machine.execUnitExpiry s
  | .partnerOwnFall t => Sys2Proof.Machine.execPartnerOwnFall t s
  | .ownGuardExpiry t => Sys2Proof.Machine.execOwnGuardExpiry t s
  | .partnerOwnRise => Sys2Proof.Machine.execPartnerOwnRise s
  | .ownRetry => Sys2Proof.Machine.execOwnRetry s
  | .keepaliveExpiry => Sys2Proof.Machine.execKeepaliveExpiry s
  | .ownDropFault cause => Sys2Proof.Machine.execOwnDropFault cause s
  | .hostGraceExpiry => Sys2Proof.Machine.execHostGraceExpiry s
  | .uplinkGraceExpiry position => Sys2Proof.Machine.execUplinkGraceExpiry position s
  | .pairCmdSwitch path => Sys2Proof.Machine.execPairCmdSwitch path s
  | .pairCmdClearBar path => Sys2Proof.Machine.execPairCmdClearBar path s
  | .pairCmdForceAlone path => Sys2Proof.Machine.execPairCmdForceAlone path s
  | .xlinkTimeout => Sys2Proof.Machine.execXlinkTimeout s
  | .syncingTimeout => Sys2Proof.Machine.execSyncingTimeout s
  | .dictWrite path index sub data => Sys2Proof.Machine.execDictWrite path index sub data s
  | .mbGoRead tag => Sys2Proof.Machine.execMbGoRead tag s
  | .mbGoWrite tag => Sys2Proof.Machine.execMbGoWrite tag s
  | .mbGoNone tag => Sys2Proof.Machine.execMbGoNone tag s
  | .restoreDefaults path data => Sys2Proof.Machine.execRestoreDefaults path data s
  | .storeWrite => Sys2Proof.Machine.execStoreWrite s
  | .usdoDownload index sub data size expedited unsupported => Sys2Proof.Machine.execUsdoDownload index sub data size expedited unsupported s
  | .usdoUpload index sub unsupported => Sys2Proof.Machine.execUsdoUpload index sub unsupported s
  | .usdoSegment data last => Sys2Proof.Machine.execUsdoSegment data last s
  | .usdoTimeout => Sys2Proof.Machine.execUsdoTimeout s
  | .nmtStart node => Sys2Proof.Machine.execNmtStart node s
  | .nmtStop node => Sys2Proof.Machine.execNmtStop node s
  | .nmtEnterPreoperational node => Sys2Proof.Machine.execNmtEnterPreoperational node s
  | .nmtResetCommunication node => Sys2Proof.Machine.execNmtResetCommunication node s
  | .nmtResetNode node => Sys2Proof.Machine.execNmtResetNode node s
  | .heartbeat => Sys2Proof.Machine.execHeartbeat s
  | .emergency => Sys2Proof.Machine.execEmergency s
  | .canBusOff => Sys2Proof.Machine.execCanBusOff s
  | .canEnable path data => Sys2Proof.Machine.execCanEnable path data s
  | .twiAddress address read => Sys2Proof.Machine.execTwiAddress address read s
  | .twiWriteByte value => Sys2Proof.Machine.execTwiWriteByte value s
  | .twiReadByte acked => Sys2Proof.Machine.execTwiReadByte acked s
  | .twiStartAbort ackSlot => Sys2Proof.Machine.execTwiStartAbort ackSlot s
  | .twiLineTimeout sda => Sys2Proof.Machine.execTwiLineTimeout sda s
  | .twiWake => Sys2Proof.Machine.execTwiWake s
  | .twiWakeDone stretchNs => Sys2Proof.Machine.execTwiWakeDone stretchNs s
  | .twiWakeTimeout => Sys2Proof.Machine.execTwiWakeTimeout s
  | .twiFlagClear path data => Sys2Proof.Machine.execTwiFlagClear path data s
  | .gwGoRead tag => Sys2Proof.Machine.execGwGoRead tag s
  | .gwGoWrite tag => Sys2Proof.Machine.execGwGoWrite tag s
  | .gwGoNone tag => Sys2Proof.Machine.execGwGoNone tag s
  | .twcPoll sensor => Sys2Proof.Machine.execTwcPoll sensor s
  | .twcTransferDone data => Sys2Proof.Machine.execTwcTransferDone data s
  | .twcBusCheck sclLow sdaLow lows => Sys2Proof.Machine.execTwcBusCheck sclLow sdaLow lows s
  | .twcArbLoss address => Sys2Proof.Machine.execTwcArbLoss address s
  | .twcBusFree => Sys2Proof.Machine.execTwcBusFree s
  | .twcNack => Sys2Proof.Machine.execTwcNack s
  | .twcRetry => Sys2Proof.Machine.execTwcRetry s
  | .powerOn slot => Sys2Proof.Machine.execPowerOn slot s
  | .senseLoopClosed => Sys2Proof.Machine.execSenseLoopClosed s
  | .senseLoopBreak => Sys2Proof.Machine.execSenseLoopBreak s
  | .senseLoopRestore => Sys2Proof.Machine.execSenseLoopRestore s
  | .wakeN => Sys2Proof.Machine.execWakeN s
  | .moduleCmdWake path => Sys2Proof.Machine.execModuleCmdWake path s
  | .moduleCmdDormant path => Sys2Proof.Machine.execModuleCmdDormant path s
  | .moduleCmdWarmRestart path => Sys2Proof.Machine.execModuleCmdWarmRestart path s
  | .bootPolicy path data => Sys2Proof.Machine.execBootPolicy path data s
  | .wakingComplete failed present => Sys2Proof.Machine.execWakingComplete failed present s
  | .drainComplete => Sys2Proof.Machine.execDrainComplete s
  | .benchIdleStop => Sys2Proof.Machine.execBenchIdleStop s
  | .supplyOutOfRange => Sys2Proof.Machine.execSupplyOutOfRange s
  | .supplyInRange => Sys2Proof.Machine.execSupplyInRange s
  | .supplyLoss => Sys2Proof.Machine.execSupplyLoss s
  | .junctionOvertemp => Sys2Proof.Machine.execJunctionOvertemp s
  | .heartbeatMiss island => Sys2Proof.Machine.execHeartbeatMiss island s
  | .islandFault island storage => Sys2Proof.Machine.execIslandFault island storage s
  | .islandRecovered island => Sys2Proof.Machine.execIslandRecovered island s
  | .benchWatchdog => Sys2Proof.Machine.execBenchWatchdog s
  | .fwSize path data => Sys2Proof.Machine.execFwSize path data s
  | .fwData path data => Sys2Proof.Machine.execFwData path data s
  | .fwCmdVerify path => Sys2Proof.Machine.execFwCmdVerify path s
  | .fwCmdActivate path => Sys2Proof.Machine.execFwCmdActivate path s
  | .fwCmdRestart path => Sys2Proof.Machine.execFwCmdRestart path s
  | .fwCmdAbandon path => Sys2Proof.Machine.execFwCmdAbandon path s
  | .trialDeadline => Sys2Proof.Machine.execTrialDeadline s
  | .trialEnd => Sys2Proof.Machine.execTrialEnd s
  | .fuseCmd path data => Sys2Proof.Machine.execFuseCmd path data s
  | .fuseBlown => Sys2Proof.Machine.execFuseBlown s
  | .calCmd path data => Sys2Proof.Machine.execCalCmd path data s
  | .almanacSample temps => Sys2Proof.Machine.execAlmanacSample temps s
  | .almanacHour => Sys2Proof.Machine.execAlmanacHour s
  | .junctionOperatingLimit above => Sys2Proof.Machine.execJunctionOperatingLimit above s
  | .hbmCorrectedError stack channel => Sys2Proof.Machine.execHbmCorrectedError stack channel s
  | .canBusOffRecovery => Sys2Proof.Machine.execCanBusOffRecovery s
  | .canErrorPassive passive => Sys2Proof.Machine.execCanErrorPassive passive s
  | .twcSdaLowTimeout lows => Sys2Proof.Machine.execTwcSdaLowTimeout lows s
  | .healthSummaryRefresh => Sys2Proof.Machine.execHealthSummaryRefresh s

end Sys2Proof.Machine
end

