-- ==== Sys2Proof/Machine/Idle.lean ====
section
/-! DEFINITION. What happens at a tick of the local tick counter while no command waits (notes/assumptions/6.md). -/

namespace Sys2Proof.Machine

/-- The module has seen bit 63 of TW64 set (R287). -/
def Mach.followMsb (m : Mach) : Mach := if m.now.msb then { m with time.high := true } else m

/-- LTC counts (R286): the Bench takes up the verdicts of the tick behind (R112), the records of cut-off frames go to their channels (R204), forwarded
flows leave squall (R379), the keepalive timer is armed again (R396), and a hub cycle, which is two ticks, ends where LTC becomes even (R306, notes/assumptions/9.md). -/
def Mach.countTick (m : Mach) : Mach :=
  let m := ({ m with ltc := m.ltc + 1 }).followMsb.beginVerdict.offerFrameEnds.calmFwds.rearm
  if m.ltc.toNat % 2 = 0 then m.hubCycle else m

/-- One tick of a powered module: the oldest posted write leaves where requests may (R318), the lanes send what is due by the tick
(R41, notes/assumptions/49.md), and LTC counts. -/
def Mach.tick (m : Mach) : Mach := m.sendOldest.transmit.countTick

/-- A tick, at which the requests whose pair-wide write is applied are answered (R403); a module without power stands still. -/
def State.idle (s : State) : State := if s.m.life.supply then ({ s with m := s.m.tick } : State).settleWides else s

end Sys2Proof.Machine
end

