-- ==== Sys2Proof/WellFormed.lean ====
section
/-! DEFINITION. Which commands the hardware can be given: every operand names a resource of R13 or fits its field. -/

namespace Sys2Proof

/-- An access path: 0 mailbox, 1 CAN FD, 2 fabric, 3 two-wire gateway, 4 the module itself (R435). -/
def pathOk (n : Nat) : Bool := decide (n < 5)
/-- A lane (R13). -/
def laneOk (n : Nat) : Bool := decide (n < 96)
/-- A lane quad (R13). -/
def quadOk (n : Nat) : Bool := decide (n < 24)
/-- A port (R13). -/
def portOk (n : Nat) : Bool := decide (n < 96)
/-- A stream (R13). -/
def streamOk (n : Nat) : Bool := decide (n < 256)
/-- A planer (R13). -/
def planerOk (n : Nat) : Bool := decide (n < 16)
/-- A profile (R13). -/
def profileOk (n : Nat) : Bool := decide (n < 64)
/-- A profile table kind (R186). -/
def tableKindOk (n : Nat) : Bool := decide (1 ≤ n ∧ n ≤ 3)
/-- A subindex of a sequencer's target, by position or by time (R259). -/
def targetSubOk (n : Nat) : Bool := decide (n = 4 ∨ n = 6)
/-- A subindex of a task's kind, parameter, enable or slots (R310). -/
def taskSubOk (n : Nat) : Bool := decide (n = 1 ∨ n = 2 ∨ n = 3 ∨ n = 4 ∨ n = 6)
/-- An MSI-X vector (R322). -/
def vectorOk (n : Nat) : Bool := decide (n < 2048)
/-- A position channel (R13). -/
def posOk (n : Nat) : Bool := decide (n < 8)
/-- A sequencer (R13). -/
def mgOk (n : Nat) : Bool := decide (n < 32)
/-- A decision ring (R265). -/
def ringOk (n : Nat) : Bool := decide (n < 8)
/-- A valve port (R13). -/
def valvePortOk (n : Nat) : Bool := decide (n < 8)
/-- A discrete pin (R13). -/
def pinOk (n : Nat) : Bool := decide (n < 32)
/-- A hub task (R13). -/
def taskOk (n : Nat) : Bool := decide (n < 256)
/-- A DMA channel (R13). -/
def channelOk (n : Nat) : Bool := decide (n < 128)
/-- An island (R464). -/
def islandOk (n : Nat) : Bool := decide (n < 54)
/-- A sensor of the two-wire controller (R463). -/
def sensorOk (n : Nat) : Bool := decide (n < 8)
/-- Unsigned fields of their widths. -/
def u2Ok (n : Nat) : Bool := decide (n < 2 ^ 2)
/-- See `u2Ok`. -/
def u3Ok (n : Nat) : Bool := decide (n < 2 ^ 3)
/-- See `u2Ok`. -/
def u4Ok (n : Nat) : Bool := decide (n < 2 ^ 4)
/-- See `u2Ok`. -/
def u8Ok (n : Nat) : Bool := decide (n < 2 ^ 8)
/-- See `u2Ok`. -/
def u10Ok (n : Nat) : Bool := decide (n < 2 ^ 10)
/-- See `u2Ok`. -/
def u16Ok (n : Nat) : Bool := decide (n < 2 ^ 16)
/-- See `u2Ok`. -/
def u32Ok (n : Nat) : Bool := decide (n < 2 ^ 32)
/-- See `u2Ok`. -/
def u64Ok (n : Nat) : Bool := decide (n < 2 ^ 64)
/-- A signed converter code (R241). -/
def codeOk (i : Int) : Bool := decide (-2048 ≤ i ∧ i ≤ 2047)
/-- Bytes of one dictionary write: at most the 64 KiB of the mailbox buffer (R439). -/
def dataOk (b : Bytes) : Bool := decide (b.length ≤ 65536)
/-- Bytes of a Tasin packet between START and the end of its last block (R63). -/
def packetOk (b : Bytes) : Bool := decide (b.length ≤ 65568)
/-- Bytes of a Pyrik frame (R367). -/
def frameOk (b : Bytes) : Bool := decide (b.length ≤ 65568)
/-- The 32 bytes of a block (R31, R36). -/
def blockOk (b : Bytes) : Bool := decide (b.length = 32)
/-- The 2,650 levels of a codeword (R27, R39), each 0 to 3. -/
def levelsOk (l : List Nat) : Bool := decide (l.length = 2650) && l.all fun x => decide (x < 4)
/-- Bits that valve drivers return, at most 4,096 (R275). -/
def bitsOk (l : List Bool) : Bool := decide (l.length ≤ 4096)
/-- Temperatures of an Almanac sample (R485). -/
def wordsOk (l : List Nat) : Bool := l.all fun x => decide (x < 65536)

/-- The operands of a command lie in the ranges that the spec gives them. -/
def Instr.wellFormed : Instr → Bool
  | .laneReconfigure path index sub data => pathOk path && u16Ok index && u8Ok sub && dataOk data
  | .refSwitchover => true
  | .refHoldover => true
  | .refValidReturn _ _ => true
  | .quadPllLock q => quadOk q
  | .signalAcquired lane => laneOk lane
  | .lossOfSignal lane => laneOk lane
  | .searchDwell lane => laneOk lane
  | .searchPassWait lane => laneOk lane
  | .slip path lane data => pathOk path && laneOk lane && dataOk data
  | .searchMode path lane data => pathOk path && laneOk lane && dataOk data
  | .blockReceive lane _ payload => laneOk lane && blockOk payload
  | .blkLockSet lane => laneOk lane
  | .lockLostTimeout lane => laneOk lane
  | .alignLoss lane => laneOk lane
  | .codewordReceive lane levels => laneOk lane && levelsOk levels
  | .alignmentMarker lane _ payload => laneOk lane && blockOk payload
  | .eyeMeasure lane => laneOk lane
  | .eyeMeasureDone lane up mid low width => laneOk lane && u10Ok up && u10Ok mid && u10Ok low && u8Ok width
  | .loopFifoRecentre lane => laneOk lane
  | .linkSettle port => portOk port
  | .linkOfferSend port => portOk port
  | .identity port bytes _ _ _ => portOk port && packetOk bytes
  | .identityTimeout port => portOk port
  | .pixelPacket port bytes _ _ _ _ => portOk port && packetOk bytes
  | .squallCalm stream => streamOk stream
  | .streamAbsent stream => streamOk stream
  | .regCmdRead path port => pathOk path && portOk port
  | .regCmdWrite path port => pathOk path && portOk port
  | .regCmdSettingsWrite path port => pathOk path && portOk port
  | .regBucketReady port => portOk port
  | .regResponse port bytes _ _ _ => portOk port && packetOk bytes
  | .regTimeout port => portOk port
  | .downstreamPacketSend port _ => portOk port
  | .ack port bytes _ _ _ => portOk port && packetOk bytes
  | .triggerAckTimeout port tid => portOk port && u16Ok tid
  | .beaconSend port => portOk port
  | .beaconAckTimeout port bid => portOk port && u16Ok bid
  | .camEvent port bytes _ _ _ => portOk port && packetOk bytes
  | .commit path stream => pathOk path && streamOk stream
  | .start path stream => pathOk path && streamOk stream
  | .stop path stream => pathOk path && streamOk stream
  | .release path stream => pathOk path && streamOk stream
  | .discard path stream => pathOk path && streamOk stream
  | .forecastVerdict stream => streamOk stream
  | .partnerVerdictAnswer stream _ reason detail bound => streamOk stream && u8Ok reason && u32Ok detail && u32Ok bound
  | .partnerVerdictTimeout stream => streamOk stream
  | .autoResume stream => streamOk stream
  | .reforecast => true
  | .lookaheadTimeout stream => streamOk stream
  | .stripeStart planer => planerOk planer
  | .stripeFinish planer => planerOk planer
  | .replayWindow planer => planerOk planer
  | .replaySliceEnd planer => planerOk planer
  | .stripeWatchdog planer => planerOk planer
  | .planerClockGate planer => planerOk planer
  | .paramsApply path stream data => pathOk path && streamOk stream && dataOk data
  | .setSlotWaitEnd stream => streamOk stream
  | .tblSize path data => pathOk path && dataOk data
  | .tblData path data => pathOk path && dataOk data
  | .tblCmdSwap path => pathOk path
  | .tblCmdAbandon path => pathOk path
  | .tableActivate profile kind => profileOk profile && tableKindOk kind
  | .bgCmd path stream data => pathOk path && streamOk stream && dataOk data
  | .posMode path channel data => pathOk path && posOk channel && dataOk data
  | .posSample channel rawSin rawCos _ => posOk channel && codeOk rawSin && codeOk rawCos
  | .ampDwellExpiry channel => posOk channel
  | .ssiPoll channel _ => posOk channel
  | .ssiFrame channel word _ => posOk channel && u64Ok word
  | .ssiJumpResync channel word _ => posOk channel && u64Ok word
  | .ssiLost channel => posOk channel
  | .posCmd path channel data => pathOk path && posOk channel && dataOk data
  | .gateEnd channel => posOk channel
  | .standstill channel => posOk channel
  | .divOutputStep channel => posOk channel
  | .mgCmdArm path sequencer => pathOk path && mgOk sequencer
  | .mgCmdDisarm path sequencer => pathOk path && mgOk sequencer
  | .mgTimeTarget sequencer => mgOk sequencer
  | .mgPulseEnd sequencer => mgOk sequencer
  | .mgTargetWrite path sequencer sub data => pathOk path && mgOk sequencer && targetSubOk sub && dataOk data
  | .mgCountWrite path sequencer data => pathOk path && mgOk sequencer && dataOk data
  | .decision ring bytes _ => ringOk ring && dataOk bytes
  | .valveUpdate valvePort returned => valvePortOk valvePort && bitsOk returned
  | .vpEnable path valvePort data => pathOk path && valvePortOk valvePort && dataOk data
  | .timeChangeApply => true
  | .timeCmdInstall path => pathOk path
  | .timeCmdSet path => pathOk path
  | .eraIncrement => true
  | .syncPeriod => true
  | .announce port bytes _ => portOk port && frameOk bytes
  | .announceAgeout eui => u64Ok eui
  | .sync port bytes _ => portOk port && frameOk bytes
  | .followUp port bytes _ => portOk port && frameOk bytes
  | .delayReq port bytes _ => portOk port && frameOk bytes
  | .delayResp port bytes => portOk port && frameOk bytes
  | .syncExchangeTimeout port => portOk port
  | .parentTimeout => true
  | .ppsInEdge _ _ => true
  | .ppsInGap => true
  | .ppsOutRise => true
  | .ppsOutFall => true
  | .ptmDialog => true
  | .ptmDialogDone _ hostTime _ => u64Ok hostTime
  | .swPublish path data => pathOk path && dataOk data
  | .dinEdge pin _ _ => pinOk pin
  | .relayPublish task => taskOk task
  | .taskPulseEnd task => taskOk task
  | .holdoffEnd task => taskOk task
  | .pinGenWindowEnd pin => pinOk pin
  | .taskConfigWrite path task sub data => pathOk path && taskOk task && taskSubOk sub && dataOk data
  | .linkChange rate width _ mps errors => u3Ok rate && u8Ok width && u16Ok mps && u16Ok errors
  | .dataLinkDown => true
  | .bmeClear => true
  | .bmeSet => true
  | .drainEnd => true
  | .functionLevelReset => true
  | .flrComplete => true
  | .d3hotEntry => true
  | .d0Return => true
  | .msixEnableWrite _ _ => true
  | .msixPendingSend vector => vectorOk vector
  | .intCause value => u32Ok value
  | .tw64Lo => true
  | .headLo stream => streamOk stream
  | .apertureHi value => u32Ok value
  | .apertureRead offset length => u32Ok offset && u16Ok length
  | .apertureWrite _ offset length => u32Ok offset && u16Ok length
  | .bar0InvalidAccess _ _ offset length => u32Ok offset && u16Ok length
  | .bar0RegisterWrite _ _ offset data => u32Ok offset && dataOk data
  | .completion tag status data => u16Ok tag && u3Ok status && dataOk data
  | .completionTimeout tag => u16Ok tag
  | .tagQuarantineEnd tag => u16Ok tag
  | .doorbell channel value => channelOk channel && u32Ok value
  | .swIndex channel value => channelOk channel && u32Ok value
  | .chCmdStart path channel => pathOk path && channelOk channel
  | .chCmdStop path channel => pathOk path && channelOk channel
  | .chCmdRelease path channel => pathOk path && channelOk channel
  | .ringEntryFetch channel => channelOk channel
  | .unitIssue channel => channelOk channel
  | .spaceWait channel => channelOk channel
  | .veneerPost stream _ _ => streamOk stream
  | .trailerVeneer stream _ => streamOk stream
  | .probeComplete status data => u3Ok status && dataOk data
  | .probeTimeout => true
  | .drainTimeout => true
  | .helloSend port => portOk port
  | .hello port bytes _ => portOk port && frameOk bytes
  | .helloTimeout port => portOk port
  | .helloFaultTimeout port => portOk port
  | .credit port bytes => portOk port && frameOk bytes
  | .creditSend port => portOk port
  | .creditStarved port tc => portOk port && u3Ok tc
  | .creditStarveFault port tc => portOk port && u3Ok tc
  | .fabricFrameSend port => portOk port
  | .fabricFrame port bytes _ _ => portOk port && frameOk bytes
  | .linkReport port bytes => portOk port && frameOk bytes
  | .mapWalk => true
  | .map port bytes => portOk port && frameOk bytes
  | .event port bytes _ => portOk port && frameOk bytes
  | .line port bytes _ => portOk port && frameOk bytes
  | .setNotice port bytes => portOk port && frameOk bytes
  | .reserve port bytes => portOk port && frameOk bytes
  | .reserveHop port bytes => portOk port && frameOk bytes
  | .reserveAnswer port bytes => portOk port && frameOk bytes
  | .reserveAnswerTimeout stream => streamOk stream
  | .releaseFrame port bytes => portOk port && frameOk bytes
  | .holdExpiry port flow node => portOk port && u16Ok flow && u16Ok node
  | .dictRequest port bytes => portOk port && frameOk bytes
  | .dictResponse port bytes => portOk port && frameOk bytes
  | .dictRequestTimeout => true
  | .bulkOpen port bytes => portOk port && frameOk bytes
  | .bulkData port bytes => portOk port && frameOk bytes
  | .bulkAck port bytes => portOk port && frameOk bytes
  | .bulkClose port bytes => portOk port && frameOk bytes
  | .bulkAckTimeout => true
  | .pairStateSend _ _ => true
  | .pairState bytes _ => frameOk bytes
  | .commitMarkSend => true
  | .commitMark bytes => frameOk bytes
  | .deliveryLog bytes => frameOk bytes
  | .stripeDigest bytes => frameOk bytes
  | .digestWaitTimeout stream frame lineNo => streamOk stream && u32Ok frame && u32Ok lineNo
  | .decisionFrame bytes => frameOk bytes
  | .posStamp bytes => frameOk bytes
  | .posStampTimeout stream frame lineNo => streamOk stream && u32Ok frame && u32Ok lineNo
  | .hostWrite bytes => frameOk bytes
  | .replay bytes => frameOk bytes
  | .replayDone planer => planerOk planer
  | .config bytes => frameOk bytes
  | .syncData bytes => frameOk bytes
  | .pairAck bytes => frameOk bytes
  | .pairResend => true
  | .unitExpiry => true
  | .partnerOwnFall _ => true
  | .ownGuardExpiry _ => true
  | .partnerOwnRise => true
  | .ownRetry => true
  | .keepaliveExpiry => true
  | .ownDropFault cause => u2Ok cause
  | .hostGraceExpiry => true
  | .uplinkGraceExpiry _ => true
  | .pairCmdSwitch path => pathOk path
  | .pairCmdClearBar path => pathOk path
  | .pairCmdForceAlone path => pathOk path
  | .xlinkTimeout => true
  | .syncingTimeout => true
  | .dictWrite path index sub data => pathOk path && u16Ok index && u8Ok sub && dataOk data
  | .mbGoRead tag => u16Ok tag
  | .mbGoWrite tag => u16Ok tag
  | .mbGoNone tag => u16Ok tag
  | .restoreDefaults path data => pathOk path && dataOk data
  | .storeWrite => true
  | .usdoDownload index sub data size _ _ => u16Ok index && u8Ok sub && dataOk data && u32Ok size
  | .usdoUpload index sub _ => u16Ok index && u8Ok sub
  | .usdoSegment data _ => dataOk data
  | .usdoTimeout => true
  | .nmtStart node => u8Ok node
  | .nmtStop node => u8Ok node
  | .nmtEnterPreoperational node => u8Ok node
  | .nmtResetCommunication node => u8Ok node
  | .nmtResetNode node => u8Ok node
  | .heartbeat => true
  | .emergency => true
  | .canBusOff => true
  | .canEnable path data => pathOk path && dataOk data
  | .twiAddress address _ => u8Ok address
  | .twiWriteByte value => u8Ok value
  | .twiReadByte _ => true
  | .twiStartAbort _ => true
  | .twiLineTimeout _ => true
  | .twiWake => true
  | .twiWakeDone stretchNs => u32Ok stretchNs
  | .twiWakeTimeout => true
  | .twiFlagClear path data => pathOk path && dataOk data
  | .gwGoRead tag => u8Ok tag
  | .gwGoWrite tag => u8Ok tag
  | .gwGoNone tag => u8Ok tag
  | .twcPoll sensor => sensorOk sensor
  | .twcTransferDone data => dataOk data
  | .twcBusCheck _ _ lows => u8Ok lows
  | .twcArbLoss _ => true
  | .twcBusFree => true
  | .twcNack => true
  | .twcRetry => true
  | .powerOn slot => u3Ok slot
  | .senseLoopClosed => true
  | .senseLoopBreak => true
  | .senseLoopRestore => true
  | .wakeN => true
  | .moduleCmdWake path => pathOk path
  | .moduleCmdDormant path => pathOk path
  | .moduleCmdWarmRestart path => pathOk path
  | .bootPolicy path data => pathOk path && dataOk data
  | .wakingComplete failed _ => u8Ok failed
  | .drainComplete => true
  | .benchIdleStop => true
  | .supplyOutOfRange => true
  | .supplyInRange => true
  | .supplyLoss => true
  | .junctionOvertemp => true
  | .heartbeatMiss island => islandOk island
  | .islandFault island _ => islandOk island
  | .islandRecovered island => islandOk island
  | .benchWatchdog => true
  | .fwSize path data => pathOk path && dataOk data
  | .fwData path data => pathOk path && dataOk data
  | .fwCmdVerify path => pathOk path
  | .fwCmdActivate path => pathOk path
  | .fwCmdRestart path => pathOk path
  | .fwCmdAbandon path => pathOk path
  | .trialDeadline => true
  | .trialEnd => true
  | .fuseCmd path data => pathOk path && dataOk data
  | .fuseBlown => true
  | .calCmd path data => pathOk path && dataOk data
  | .almanacSample temps => wordsOk temps
  | .almanacHour => true
  | .junctionOperatingLimit _ => true
  | .hbmCorrectedError stack channel => u3Ok stack && u4Ok channel
  | .canBusOffRecovery => true
  | .canErrorPassive _ => true
  | .twcSdaLowTimeout lows => u8Ok lows
  | .healthSummaryRefresh => true

end Sys2Proof
end

