-- ==== Sys2Proof/Safety.lean ====
section
/-! DEFINITION. What counts as a safe state and a safe run, in the terms that claims use. -/

namespace Sys2Proof.Machine

/-- An outcome goes on: neither a fault nor a refusal. -/
def completes : Host.Outcome State Fault Refusal → Prop
  | .next _ => True
  | .fault _ => False
  | .refused _ => False

/-- The next state of an outcome meets a condition, if there is one. -/
def whenNext (p : State → Prop) : Host.Outcome State Fault Refusal → Prop
  | .next s => p s
  | .fault _ => True
  | .refused _ => True

/-- Every waiting command names resources that exist and operands that fit their fields. -/
def State.commandsOk (s : State) : Bool := s.pending.all Instr.wellFormed

/-- HBM is in its canonical form. -/
def State.hbmOk (s : State) : Bool := s.hbm.wf

/-- Two states that agree on everything but the module: on the queue and on HBM. -/
def State.sameRest (s t : State) : Prop := t.pending = s.pending ∧ t.hbm = s.hbm

/-- A command completes in `s` and leaves the module as `m`: exec answers a next state that is `s` with that module, so
that the queue and HBM are as before. -/
def completesWith (c : Instr) (s : State) (m : Mach) : Prop := exec c s = .next { s with m := m }

/-- A path may write an entry with this value now: the path exists, the Bench serves it, and it is not read-only on it
(R435, R438). -/
def State.mayWrite (s : State) (path index sub value : Nat) : Bool :=
  decide (path < 5) && s.m.serves path && s.m.permitted path index sub value

/-- The commands that bring pixels, a position stamp, cleared memory or the loss of power: all others leave HBM alone. -/
def touchesHbm : Instr → Bool
  | .identity .. => true
  | .pixelPacket .. => true
  | .regResponse .. => true
  | .ack .. => true
  | .camEvent .. => true
  | .fabricFrame .. => true
  | .line .. => true
  | .posStamp .. => true
  | .wakingComplete .. => true
  | .supplyLoss => true
  | .junctionOvertemp => true
  | _ => false

/-- Every entry of the dictionary but those listed stands in `n` as in `m`. -/
def Mach.entriesKept (m n : Mach) (l : List (Entry × Nat)) : Prop :=
  ∀ (d : Val) (j : Nat), j ∉ l.map (fun x => x.1.key x.2) → SMap.get d n.dict j = SMap.get d m.dict j

/-- The states reachable by steps. -/
inductive Reachable : State → State → Prop
  | refl (s : State) : Reachable s s
  | step {s t u : State} : Reachable s t → step t = .next u → Reachable s u

/-- A run of `k` steps from `s` meets no fault and no refusal. -/
def safeRun : Nat → State → Prop
  | 0, _ => True
  | k + 1, s => match step s with
    | .next t => safeRun k t
    | .fault _ => False
    | .refused _ => False

end Sys2Proof.Machine
end

