-- ==== Sys2Proof/Certificates/Slice0/Obligations.lean ====
section
/-! DEFINITION. What is claimed of the model. Each statement's docstring names the rules it follows; a statement of what commands do
says, for every command it names, in which states and on which operands it completes, and with which next state. The rules
that a docstring names in parentheses are those that its clauses come from; they are stated as far as the clauses go. -/

open Sys2Proof Sys2Proof.Machine

/-! ### The block -/

/-- A step takes the command at the front of the queue and runs it with the queue's rest. The queue is the model's own (log entry 15). -/
def Obligations.StepRunsTheFrontCommand : Prop :=
  ∀ (c : Instr) (q : List Instr) (s : State), step (s.withPending (c :: q)) = exec c (s.withPending q)

/-- With nothing waiting, a step is one tick of a powered module, and nothing at all without power (the model's choice, log entry 6): the
oldest posted write leaves where requests may, the lanes send what is due, the local tick counter rises by 1 (R286), where it becomes
even a hub cycle ends (R306), and requests whose pair-wide write is applied are answered (R403); with nothing that waits for the tick,
entries, lanes, streams, planers, pins, pair and life stay. -/
def Obligations.EmptyQueueIsATick : Prop :=
  ∀ s : State, s.pending = [] →
    (s.m.life.supply = false → step s = .next s) ∧
    (s.m.life.supply = true → s.m.pair.orphans = [] →
      ∃ m, step s = .next { s with m := m } ∧ m = s.m.sendOldest.transmit.countTick.answerWides ∧ m.ltc = s.m.ltc + 1 ∧
        (s.m.hub = [] → s.m.verdicts = [] → (∀ x ∈ s.m.streams, x.2.cutFrames = []) → (∀ x ∈ s.m.fwds, x.2.rx.squall = false) →
          s.m.pair.expired = false → s.m.mb.run = none → s.m.gw.run = none → s.m.can.waits = [] → s.m.server.waiting = [] →
          m.dict = s.m.dict ∧ m.lanes = s.m.lanes ∧ m.streams = s.m.streams ∧ m.planers = s.m.planers ∧ m.pins = s.m.pins ∧
          m.pair = s.m.pair ∧ m.life = s.m.life))

/-- Right after reset nothing waits, HBM lists nothing, and the module is OFF, without power
and without a host link (R463, R467): it has emitted nothing, no channel and no verdict stands, TIME_STATE is 0 and RATE its nominal value. That
the tick counter starts at 0 is the model's choice (log entry 1). -/
def Obligations.ResetIsOff : Prop :=
  State.reset.pending = [] ∧ State.reset.hbm = [] ∧ State.reset.m.rd E.MODULE_STATE = 0 ∧ State.reset.m.ep.up = false ∧
  State.reset.m.life.supply = false ∧ State.reset.m.out = [] ∧ State.reset.m.chans = [] ∧ State.reset.m.verdicts = [] ∧
  State.reset.m.ltc = 0 ∧ State.reset.m.rd E.TIME_STATE = 0 ∧ State.reset.m.rd E.RATE = RATE_NOM

/-- HBM is in its canonical form right after reset. The form is the model's (log entry 4). -/
def Obligations.HbmCanonicalAtReset : Prop := State.reset.hbmOk = true

/-- Every step keeps HBM in its canonical form, from every state that has it. The form is the model's (log entry 4). -/
def Obligations.EveryStepKeepsHbmCanonical : Prop :=
  ∀ s t : State, s.hbmOk = true → step s = .next t → t.hbmOk = true

/-- Every command with operands in the ranges of the spec completes in every state. Which operands are in range is said by
Instr.wellFormed (R13; log entry 48). -/
def Obligations.WellFormedCommandsComplete : Prop :=
  ∀ (c : Instr) (s : State), c.wellFormed = true → ∃ t, exec c s = .next t

/-- From every state in which well-formed commands wait, every run goes on: no fault, no refusal. Which operands are in range is said by
Instr.wellFormed (R13; log entry 48). -/
def Obligations.WellFormedQueuesRunSafely : Prop :=
  ∀ (k : Nat) (s : State), s.commandsOk = true → safeRun k s

/-- A command never touches the queue: what waits behind it runs next, in its order. The queue is the model's own (log entry 15). -/
def Obligations.CommandsLeaveTheQueue : Prop :=
  ∀ (c : Instr) (s t : State), exec c s = .next t → t.pending = s.pending

/-- A command stops the model only by naming a resource that does not exist (R13); it is never refused. The fault is the model's choice
(log entry 48). -/
def Obligations.OnlyMissingResourcesStop : Prop :=
  ∀ (c : Instr) (s : State), (∀ r, exec c s ≠ .refused r) ∧ (∀ f, exec c s = .fault f → f = .noSuchResource ∧ c.wellFormed = false)

/-- HBM changes only by packets of a camera, LINE and POS_STAMP frames, the end of a wake-up and the loss of power (R115, R248, R325,
R468, R470): every other command leaves every byte. That an unwritten byte reads 0 is the model's choice (log entry 4). -/
def Obligations.OnlyReceptionAndPowerTouchHbm : Prop :=
  ∀ (c : Instr) (s t : State), touchesHbm c = false → exec c s = .next t → ∀ a, t.hbm.read a = s.hbm.read a

/-! ### Storage -/

/-- A run of bytes written to HBM reads as written, and every byte outside it reads as before. That an unwritten byte reads 0 is the
model's choice (log entry 4). -/
def Obligations.HbmRunsReadAsWritten : Prop :=
  ∀ (h : Memory) (a x : Nat) (b : Bytes), h.wf = true →
    (h.writeBytes a b).read x = if a ≤ x ∧ x < a + b.length then b.getD (x - a) 0 else h.read x

/-- An entry reads as the number last put into it, at the width of its type, and every other entry reads as before. -/
def Obligations.EntriesReadAsWritten : Prop :=
  ∀ (m : Mach) (e e' : Entry) (k k' n : Nat),
    (m.wr e k n).rd e k = n % 2 ^ (8 * e.ty.bytes) ∧ (e'.key k' ≠ e.key k → (m.wr e k n).rd e' k' = m.rd e' k')

/-! ### Reference, quads, lanes -/

/-- The reference changes over, is lost or returns (R24, R25). The count of a return after a loss of both is the model's reading (log
entry 25). -/
def Obligations.ReferenceCommands : Prop :=
  ∀ s : State,
    (s.m.rd E.REF_SELECTED < 2 → s.m.rd E.REF_POLICY < 2 →
      completesWith .refSwitchover s
        (((s.m.wr E.REF_VALID 0 (2 ^ (1 - s.m.rd E.REF_SELECTED))).wr E.REF_SELECTED 0 (1 - s.m.rd E.REF_SELECTED)).inc E.REF_SWITCHES 0)) ∧
    completesWith .refHoldover s
      (((s.m.wr E.REF_VALID 0 (match s.m.rd E.REF_POLICY with
          | 2 => s.m.rd E.REF_VALID / 2 * 2
          | 3 => s.m.rd E.REF_VALID % 2
          | _ => 0)).wr E.REF_SELECTED 0 2).wr E.REF_HOLDOVER 0 1) ∧
    (∀ a b : Bool, refChoice (s.m.rd E.REF_POLICY) a b = none →
      completesWith (.refValidReturn a b) s (s.m.wr E.REF_VALID 0 (bn a + 2 * bn b))) ∧
    (∀ (a b : Bool) (n : Nat), refChoice (s.m.rd E.REF_POLICY) a b = some n →
      let m := s.m.wr E.REF_VALID 0 (bn a + 2 * bn b)
      completesWith (.refValidReturn a b) s
        (((if s.m.rd E.REF_SELECTED ≠ 2 ∧ s.m.rd E.REF_SELECTED ≠ n then m.inc E.REF_SWITCHES 0 else m).wr E.REF_SELECTED 0 n).wr
          E.REF_HOLDOVER 0 0))

/-- Lane bring-up: PLL lock, signal, the dwell of a search pass in its three outcomes, the wait between passes, block lock and its losses,
and the eye monitor (R44 to R50, R58, R61). That an event without its cause changes nothing is the model's choice (log entries 5, 39), and
so are the symbols of a centred FIFO (log entry 49). -/
def Obligations.LaneEvents : Prop :=
  ∀ (s : State) (l : Nat), l < 96 →
    (s.m.quadOn (l / 4) = true →
      completesWith (.quadPllLock (l / 4)) s ((s.m.setQuad (l / 4) { s.m.quad (l / 4) with pllLocked := true }).startTx (l / 4))) ∧
    (s.m.quadOn (l / 4) = true → s.m.laneState l = 0 →
      completesWith (.signalAcquired l) s ((s.m.setLane l { (s.m.lane l).atPair with signal := true }).seek l)) ∧
    (s.m.laneState l ≠ 0 → completesWith (.lossOfSignal l) s (s.m.restartLanes [l])) ∧
    ((s.m.lane l).passRun = true → s.m.laneState l = 1 → s.m.rd E.BLK_LOCK l = 1 → completesWith (.searchDwell l) s (s.m.blkLock l)) ∧
    ((s.m.lane l).passRun = true → s.m.laneState l = 1 → s.m.rd E.BLK_LOCK l ≠ 1 → 514 ≤ (s.m.lane l).passSlips →
      completesWith (.searchDwell l) s ((s.m.setLane l { s.m.lane l with passRun := false, passWait := true }).inc E.SEARCH_FAILS l)) ∧
    ((s.m.lane l).passRun = true → s.m.laneState l = 1 → s.m.rd E.BLK_LOCK l ≠ 1 → (s.m.lane l).passSlips < 514 →
      completesWith (.searchDwell l) s ((s.m.setLane l { s.m.lane l with passSlips := (s.m.lane l).passSlips + 1 }).slipOnce l)) ∧
    ((s.m.lane l).passWait = true →
      completesWith (.searchPassWait l) s (s.m.setLane l { s.m.lane l with passWait := false, passRun := true, passSlips := 0 })) ∧
    (s.m.laneState l ≠ 0 → completesWith (.blkLockSet l) s (s.m.blkLock l)) ∧
    (s.m.laneState l = 2 → s.m.rd E.BLK_LOCK l = 0 → completesWith (.lockLostTimeout l) s ((s.m.inc E.LOCK_LOSSES l).seek l)) ∧
    (s.m.laneState l = 3 → 106 ≤ (s.m.lane l).badCw → completesWith (.alignLoss l) s ((s.m.inc E.LOCK_LOSSES l).seek l)) ∧
    (s.m.laneState l = 3 → completesWith (.eyeMeasure l) s (s.m.setLane l { s.m.lane l with measuring := true })) ∧
    (∀ up mid low width, up < 1024 → mid < 1024 → low < 1024 → width < 256 → (s.m.lane l).measuring = true → s.m.laneState l = 3 →
      let v := up + mid * 2 ^ 10 + low * 2 ^ 20 + width * 2 ^ 30 + (s.m.lane l).eyeNo * 2 ^ 48
      completesWith (.eyeMeasureDone l up mid low width) s
        (((s.m.setLane l { s.m.lane l with measuring := false, eyeNo := ((s.m.lane l).eyeNo + 1) % 65536 }).wr E.EYE_LAST l v).keepEye l v)) ∧
    (s.m.rd E.LOOP_MODE l = 3 →
      completesWith (.loopFifoRecentre l) s ((s.m.centreFifo l).inc E.LOCK_LOSSES l)) ∧
    ((s.m.centreFifo l).lane l).fifo.length = 16 ∧ ∀ v ∈ ((s.m.centreFifo l).lane l).fifo, v < 4

/-- What a lane's receiver does: precoding, polarity and the scrambler undo what a sender did with them (R28, R30, R33); a codeword's
levels, or those of a near-end loop, reach the decoder, which counts it as corrected or uncorrectable and passes its blocks on damaged or
not (R27 to R33, R40, R60); a valid header pair counts toward block lock and a wrong one clears it (R45); a block away from the markers'
places goes to block lock and to its port (R35, R41, R42), one at a marker's place is a good marker or a bad one (R36, R37, R49, R50).
Which blocks a block command stands for, the start of decoding and the second good marker are the model's reading (log entries 25, 49, 50,
56). -/
def Obligations.LaneReception : Prop :=
  (∀ y g, y < 4 → (∀ v ∈ g, v < 4) → unprecode y (precode y g).1 = g) ∧
  (∀ inv g, (∀ v ∈ g, v < 4) → polarity inv (polarity inv g) = g) ∧
  (∀ r bits, descramble r (scramble r bits).1 = (bits, (scramble r bits).2)) ∧
  ∀ (s : State) (l : Nat), l < 96 →
    (∀ h bits b rest, bits.length = 32 → s.m.laneState l ≠ 0 → (s.m.lane l).rxBlocks = b :: rest → s.m.markerPlace l b = false →
      let m := s.m.setLane l { s.m.lane l with rxBlocks := rest }
      let m := m.setLane l { m.lane l with since := (m.lane l).since.map (· + 1) }
      completesWith (.blockReceive l h bits) s ((m.judgePair l b).portBlock l b)) ∧
    (∀ h bits b n, bits.length = 32 → 2 ≤ s.m.laneState l → s.m.nextBlock l h bits = (some b, n) → s.m.markerPlace l b = true →
      let x := n.lane l
      let due := x.since == some 16383
      let m := (n.setLane l { x with since := if due then some 0 else x.since.map (· + 1) }).judgePair l b
      completesWith (.alignmentMarker l h bits) s
        (if x.kindMarker b && markerOk b.payload then m.goodMarker l b.payload due else m.badMarker l)) ∧
    (∀ (b : RxBlock), (s.m.lane l).half = some true → b.h = false → idleBlock b.payload = true → (s.m.lane l).pairs < 63 →
      s.m.judgePair l b = s.m.setLane l { s.m.lane l with half := none, pairs := (s.m.lane l).pairs + 1 }) ∧
    (∀ (b : RxBlock) (first : Bool), (s.m.lane l).half = some first → (first = false ∨ b.h = true) →
      s.m.judgePair l b = (s.m.setLane l { s.m.lane l with half := none, pairs := 0 }).wr E.BLK_LOCK l 0) ∧
    (∀ levels g, levels.length = 2650 → (∀ v ∈ levels, v < 4) → s.m.laneState l ≠ 0 → s.m.rxIndices l levels = some g →
      (s.m.lane l).decoding = true →
      let m := s.m.farEnd l g
      let c := m.rxCodeword l g
      let m := m.setLane l { m.lane l with rxPrev := g.getLastD 0 }
      (rsDecode c = none →
        completesWith (.codewordReceive l levels) s
          (((m.passBlocks l true c).setLane l
            { (m.passBlocks l true c).lane l with badCw := Nat.min 106 (((m.passBlocks l true c).lane l).badCw + 1) }).inc
              E.CW_UNCORRECTABLE l)) ∧
      (∀ d n, rsDecode c = some (d, n) →
        let q := m.passBlocks l false d
        let q := q.setLane l { q.lane l with badCw := if 106 ≤ (q.lane l).badCw then 106 else 0 }
        completesWith (.codewordReceive l levels) s
          (if n = 0 then q else (q.inc E.CW_CORRECTED l).inc E.SYM_CORRECTED l n)))

/-- SLIP, SEARCH_MODE, the entries whose change restarts bring-up, and REG_CMD, on a path that may write them (R46 to R48, R53, R85, R86):
a slip judges block lock afresh, a lane that was LOCKED seeks again, a changed lane or quad starts over, and a register transaction takes
the values that stand in the port's entries. What a written number outside a range does is the model's reading (log entries 11 to 13). -/
def Obligations.LaneAndRegisterWrites : Prop :=
  (∀ (s : State) (path : Nat),
      (∀ l data, l < 96 → s.mayWrite path (0x2100 + l) 9 (leNat (data.take 8)) = true → s.m.rd E.SEARCH_MODE l = 1 →
        completesWith (.slip path l data) s (s.m.wide path (0x2100 + l) 9 data fun m =>
          let c := m.convert E.SLIP l data
          let m := m.tallyIf path (0x2100 + l) 9 c.kind data
          if c.val.toNat = 0 then m
          else if m.rd E.BLK_LOCK l = 1 ∧ 2 ≤ (m.slipOnce l).laneState l then (m.slipOnce l).seek l else m.slipOnce l)) ∧
      (∀ l data, l < 96 → s.mayWrite path (0x2100 + l) 8 (leNat (data.take 8)) = true →
        completesWith (.searchMode path l data) s (s.m.wide path (0x2100 + l) 8 data fun m =>
          let n := m.putEntry path E.SEARCH_MODE l data
          if m.rd E.SEARCH_MODE l = n.rd E.SEARCH_MODE l ∨ n.laneState l ≠ 1 then n else n.seek l)) ∧
      (∀ index sub e q data, findEntry index sub = some (e, q) → (e = E.QUAD_ROLE ∨ e = E.QUAD_PORTS) →
        s.mayWrite path (e.at q).1 (e.at q).2 (leNat (data.take 8)) = true → s.m.blocked e q = false →
        completesWith (.laneReconfigure path index sub data) s (s.m.wide path (e.at q).1 (e.at q).2 data fun m =>
          let n := m.putEntry path e q data
          if m.rd e q = n.rd e q then n
          else
            let n := if 2 ≤ n.rd E.ISLAND_STATE q ∨ n.rd E.MODULE_STATE < 3 then n else n.setIsland q (bn (n.rd E.QUAD_ROLE q != 0))
            Mach.ratesMoved n (n.quadChanged q))) ∧
      (∀ index sub e l data, findEntry index sub = some (e, l) →
        (e = E.TX_FIR ∨ e = E.RX_EQ ∨ e = E.RX_DFE ∨ e = E.LANE_FLAGS ∨ e = E.LOOP_MODE) →
        s.mayWrite path (e.at l).1 (e.at l).2 (leNat (data.take 8)) = true → s.m.blocked e l = false →
        completesWith (.laneReconfigure path index sub data) s (s.m.wide path (e.at l).1 (e.at l).2 data fun m =>
          let n := m.putEntry path e l data
          let n := if e = E.LOOP_MODE then n else n.wr E.EQ_SOURCE l 2
          if m.rd e l = n.rd e l then n
          else
            let n := (n.setTxLane l { n.txLane l with prev := 0 }).restartLanes [l]
            if e = E.LOOP_MODE then n.startLoop l else n))) ∧
  (∀ (s : State) (path p kind : Nat), p < 96 → (kind = 1 ∨ kind = 2 ∨ kind = 3) →
      s.mayWrite path (0x2800 + p) 4 kind = true → s.m.rd E.REG_STATUS p ≠ 1 →
        completesWith (if kind = 1 then .regCmdRead path p else if kind = 2 then .regCmdWrite path p else .regCmdSettingsWrite path p) s
          (s.m.wide path (0x2800 + p) 4 [BitVec.ofNat 8 kind] fun m =>
            (m.wr E.REG_STATUS p 1).regAsk p
              { kind := kind, addr := (m.wr E.REG_STATUS p 1).rd E.REG_ADDR p, count := m.rd E.REG_COUNT p,
                data := (m.rdB E.REG_DATA p ++ zeros (4 * m.rd E.REG_COUNT p)).take (4 * m.rd E.REG_COUNT p) }))

/-! ### Ports and camera packets -/

/-- What a camera port does in time (R54, R73, R74, R78, R81 to R84, R92 to R95, R103, R104). Each clause asserts that its instant has
come (log entries 5, 39), and the end of a barred transaction and what a FAULTED port is sent are the model's (log entries 51, 58). -/
def Obligations.PortEvents : Prop :=
  ∀ (s : State) (p : Nat), p < 96 →
    (s.m.rd E.PORT_STATE p = 3 → s.m.isFabricPort p = false →
      completesWith (.linkSettle p) s ((s.m.wr E.PORT_STATE p 4).setPort p { s.m.port p with heard := false, ident := false })) ∧
    (s.m.rd E.PORT_STATE p = 3 → s.m.isFabricPort p = true → (s.m.fport p).hello = none →
      completesWith (.linkSettle p) s (s.m.setFport p { s.m.fport p with settled := true })) ∧
    (∀ b, s.m.rd E.PORT_STATE p = 3 → s.m.isFabricPort p = true → (s.m.fport p).hello = some b →
      completesWith (.linkSettle p) s ((s.m.setFport p { s.m.fport p with settled := true }).portJoin p (readHello b).eui).elect) ∧
    (s.m.isFabricPort p = false → (s.m.rd E.PORT_STATE p = 7 ∨ (s.m.linked p = true ∧ (s.m.port p).ident = false)) →
      completesWith (.linkOfferSend p) s (s.m.queueDown p { pri := 5, dt := 0x38, payload := s.m.linkOffer p })) ∧
    (s.m.isFabricPort p = false → s.m.rd E.PORT_STATE p = 4 → (s.m.port p).ident = false →
      completesWith (.identityTimeout p) s (s.m.portFault p 1)) ∧
    ((s.m.port p).reg = none → completesWith (.regBucketReady p) s s.m) ∧
    (∀ t, (s.m.port p).reg = some t →
      completesWith (.regBucketReady p) s
        (if t.kind ≠ 1 ∧ t.phase = 1 ∧ s.m.auth = false then s.m.regBarred p t else s.m.regSend p)) ∧
    (∀ t, (s.m.port p).reg = some t → t.phase = 2 → completesWith (.regTimeout p) s (s.m.regTimeout p t)) ∧
    (∀ k t, pickDown ((s.m.port p).tx.filter fun (x : DownPkt) =>
        ((s.m.port p).heard || x.dt == 0x38) && (s.m.auth || x.dt != 0x3B)) = some k → s.m.talking p = true →
      (k.dt ≠ 0x39 ∨ s.m.auth = true → completesWith (.downstreamPacketSend p t) s (s.m.sendDown p k t)) ∧
      (∀ r, k.dt = 0x39 → s.m.auth = false → (s.m.port p).reg = some r →
        completesWith (.downstreamPacketSend p t) s (s.m.regBarred p r))) ∧
    (∀ tid g, (s.m.port p).trigs.find? (fun x => x.tid == tid && x.sent) = some g → g.resends < 3 → s.m.auth = false →
      completesWith (.triggerAckTimeout p tid) s (s.m.holdTrig p g)) ∧
    (∀ tid g, (s.m.port p).trigs.find? (fun x => x.tid == tid && x.sent) = some g → g.resends < 3 → s.m.auth = true →
      completesWith (.triggerAckTimeout p tid) s
        (((s.m.setPort p { s.m.port p with trigs := (s.m.port p).trigs.map fun (k : TrigPend) =>
            if k.tid = tid then { k with resends := k.resends + 1, sent := false } else k }).inc E.TRIG_RESENDS p).queueDown p
          { pri := if g.immediate then 1 else 2, dt := 0x3B, retry := true, payload := g.payload })) ∧
    (∀ tid g, (s.m.port p).trigs.find? (fun x => x.tid == tid && x.sent) = some g → 3 ≤ g.resends →
      let m := s.m.setPort p { s.m.port p with trigs := (s.m.port p).trigs.filter fun (k : TrigPend) => k.tid != tid }
      completesWith (.triggerAckTimeout p tid) s (if g.mg < 32 then m.inc E.TRIG_LOST g.mg else m)) ∧
    (s.m.isFabricPort p = false → s.m.linked p = true → (s.m.port p).heard = true →
      completesWith (.beaconSend p) s (s.m.newBeacon p 0)) ∧
    (∀ b, (s.m.port p).beacon = some b → b.sent = true → (s.m.port p).beaconTries < 3 →
      completesWith (.beaconAckTimeout p b.bid) s ((s.m.inc E.BEACON_MISSES p).newBeacon p ((s.m.port p).beaconTries + 1))) ∧
    (∀ b, (s.m.port p).beacon = some b → b.sent = true → 3 ≤ (s.m.port p).beaconTries →
      completesWith (.beaconAckTimeout p b.bid) s
        ((s.m.inc E.BEACON_MISSES p).setPort p { s.m.port p with beacon := none }))

/-- A packet that a camera port receives passes the checks of R63, R66, R67 and R78 in their order: one that passes reaches its control or
pixel handling (R77, R88, R90, R101, R106), and one that fails a check is counted by the first that it fails. The operands of the packet
commands are the model's (log entry 17), and so are the corner cases of log entries 51 and 58. -/
def Obligations.CameraPackets : Prop :=
  (∀ (s : State) (p : Nat) (b : Bytes) (pd : Bool) (t1 t2 : TW64), p < 96 → s.m.talking p = true → s.m.isFabricPort p = false →
      24 ≤ b.length → headerOk b = true → lengthFits b = true →
      cameraDt (readHdr b).dt = true → (s.m.rd E.PORT_STATE p = 7 → (readHdr b).dt = 0x30) →
      let m := s.m.setPort p { s.m.port p with rx := (s.m.port p).rx.eraseP fun k => k.bytes == b }
      let bad := pd || !(readHdr b).crcOk
      (0x30 ≤ (readHdr b).dt → bad = true →
        completesWith (.identity p b false pd t1) s (m.inc E.CTRL_CRC_ERRORS p) ∧
        completesWith (.regResponse p b false pd t1) s (m.inc E.CTRL_CRC_ERRORS p) ∧
        completesWith (.ack p b false pd t1) s (m.inc E.CTRL_CRC_ERRORS p) ∧
        completesWith (.camEvent p b false pd t1) s (m.inc E.CTRL_CRC_ERRORS p)) ∧
      let m := (m.setPort p { m.port p with heard := true }).wr E.CAM_UPLINK p (readHdr b).uplink
      (0x30 ≤ (readHdr b).dt → bad = false →
        completesWith (.identity p b false pd t1) s (m.onControl p (readHdr b) t1) ∧
        completesWith (.regResponse p b false pd t1) s (m.onControl p (readHdr b) t1) ∧
        completesWith (.ack p b false pd t1) s (m.onControl p (readHdr b) t1) ∧
        completesWith (.camEvent p b false pd t1) s (m.onControl p (readHdr b) t1)) ∧
      ((readHdr b).dt < 0x30 →
        exec (.pixelPacket p b false pd t1 t2) s =
          .next { s with hbm := (onPixel s.hbm m p (readHdr b) bad t1 t2).1, m := (onPixel s.hbm m p (readHdr b) bad t1 t2).2 })) ∧
  (∀ (s : State) (p : Nat) (b : Bytes) (hd pd : Bool) (t1 t2 : TW64), p < 96 → s.m.talking p = true → s.m.isFabricPort p = false →
      let m := s.m.setPort p { s.m.port p with rx := (s.m.port p).rx.eraseP fun k => k.bytes == b }
      (b.length < 24 → completesWith (.pixelPacket p b hd pd t1 t2) s (m.inc E.FRAMING_ERRORS p)) ∧
      (24 ≤ b.length → (hd = true ∨ headerOk b = false) → completesWith (.pixelPacket p b hd pd t1 t2) s (m.inc E.HCRC_ERRORS p)) ∧
      (24 ≤ b.length → hd = false → headerOk b = true → lengthFits b = false →
        completesWith (.pixelPacket p b hd pd t1 t2) s (m.inc E.FRAMING_ERRORS p)) ∧
      (24 ≤ b.length → hd = false → headerOk b = true → lengthFits b = true → s.m.rd E.PORT_STATE p ≠ 7 → cameraDt (readHdr b).dt = false →
        completesWith (.pixelPacket p b hd pd t1 t2) s (m.inc E.UNKNOWN_DT p)))

/-! ### Contracts -/

/-- CONTRACT_CMD 1 to 5 on a path that may write it, in a state in which it may act, and which contract states those are (R110 to
R113): 1 and 5 but in the Forecast, 2 when ADMITTED or waiting for the port, 3 when RUNNING or waiting, 4 when admitted at all. -/
def Obligations.ContractCommands : Prop :=
  (∀ (s : State) (path k : Nat), k < 256 →
      (s.mayWrite path (0x3200 + k) 2 1 = true → s.m.cmdAllowed k 1 = true →
        completesWith (.commit path k) s (s.m.wide path (0x3200 + k) 2 [1] (Mach.doCommit k))) ∧
      (s.mayWrite path (0x3200 + k) 2 2 = true → s.m.cmdAllowed k 2 = true →
        completesWith (.start path k) s (s.m.wide path (0x3200 + k) 2 [2] fun m => m.tryStart k)) ∧
      (s.mayWrite path (0x3200 + k) 2 3 = true → s.m.cmdAllowed k 3 = true →
        completesWith (.stop path k) s (s.m.wide path (0x3200 + k) 2 [3] (Mach.doStop k))) ∧
      (s.mayWrite path (0x3200 + k) 2 4 = true → s.m.cmdAllowed k 4 = true →
        completesWith (.release path k) s (s.m.wide path (0x3200 + k) 2 [4] (Mach.doRelease k))) ∧
      (s.mayWrite path (0x3200 + k) 2 5 = true → s.m.cmdAllowed k 5 = true →
        completesWith (.discard path k) s (s.m.wide path (0x3200 + k) 2 [5] (Mach.doDiscard k)))) ∧
  (∀ (m : Mach) (k : Nat),
      (m.cmdAllowed k 1 = !m.inForecast k) ∧ (m.cmdAllowed k 5 = !m.inForecast k) ∧
      (m.cmdAllowed k 2 = (m.rd E.CONTRACT_STATE k == 2 || m.waitsPort k)) ∧
      (m.cmdAllowed k 3 = (m.rd E.CONTRACT_STATE k == 3 || m.waitsPort k)) ∧
      (m.cmdAllowed k 4 = (m.rd E.CONTRACT_STATE k == 2 || m.rd E.CONTRACT_STATE k == 3 || m.rd E.CONTRACT_STATE k == 4)))

/-- Verdicts and what follows them (R112, R113, R128, R131, R132, R380): the module's own verdict, the partner's before or after it, its
absence, the missing answer of a route, the resumption of a suspended stream and a re-forecast. The operands, the places of a verdict's
frame fields and the corner cases of log entries 17, 52 and 59 are the model's. -/
def Obligations.VerdictEvents : Prop :=
  ∀ (s : State) (v : Verdict) (vs : List Verdict), v.stream < 256 →
    (s.m.verdicts = v :: vs → v.own = none → v.route ≠ 1 → v.again = false → s.m.wantsRoute v = false →
      completesWith (.forecastVerdict v.stream) s (s.m.ownVerdict v vs)) ∧
    (s.m.verdicts = v :: vs → v.own = none → v.route ≠ 1 → s.m.wantsRoute v = false → v.again = true →
      completesWith (.forecastVerdict v.stream) s (s.m.routeVerdict v)) ∧
    (∀ answer reason detail bound o, s.m.verdicts = v :: vs → s.m.paired = true → v.again = false → v.own = some o →
      completesWith (.partnerVerdictAnswer v.stream answer reason detail bound) s
        (s.m.conclude v (combine (s.m.compute v) (answer, reason, detail, bound)))) ∧
    (∀ answer reason detail bound, s.m.verdicts = v :: vs → s.m.paired = true → v.again = false → v.own = none →
      completesWith (.partnerVerdictAnswer v.stream answer reason detail bound) s
        { s.m with verdicts := { v with partner := some (answer, reason, detail, bound) } :: vs }) ∧
    (s.m.verdicts = v :: vs → v.own ≠ none →
      completesWith (.partnerVerdictTimeout v.stream) s
        (s.m.conclude v (match s.m.compute v with | .inl f => .inl f | .inr _ => .inl ⟨0x51, 0, 0⟩))) ∧
    (s.m.verdicts = v :: vs → v.route = 1 →
      completesWith (.reserveAnswerTimeout v.stream) s
        { s.m with verdicts := { v with route := 3, routeWhy := (0x12, detailOf 5 (Terms.sourceNode v.terms)) } :: vs }) ∧
    (∀ k, k < 256 → s.m.rd E.AUTO_RESUME = 1 → s.m.waitsPort k = true → s.m.portUp (s.m.force k) = true →
      s.m.cameraFits (s.m.force k) = true → completesWith (.autoResume k) s (s.m.enterRunning k)) ∧
    completesWith .reforecast s s.m.reforecast

/-! ### Stripes, set slots, tables -/

/-- What a planer does (R141 to R146, R155, R410): a stripe starts, finishes, is interrupted for a replay slice and goes on, or is aborted
by the watchdog; an unused planer's clock stops; a replay ends. The cycles of a stripe and what it binds are the model's reading (log
entries 26, 53). -/
def Obligations.PlanerEvents : Prop :=
  ∀ (s : State) (n : Nat), n < 16 →
    (∀ c, (s.m.planer n).run = none → (s.m.planer n).slice = false → s.m.rd E.PLANER_STATE n ≠ 4 →
      s.m.rd E.ISLAND_STATE (24 + n) = 1 → s.m.choose n = some c →
      completesWith (.stripeStart n) s (s.m.startStripe n c)) ∧
    (∀ k p, s.m.running n = some (k, p) → (s.m.planer n).slice = false →
      let cycles := (p.rows + 12) * cdiv (Terms.rowPixels p.terms) 16 + 32 * bn (s.m.planer n).kerf
      cycles ≤ (s.m.ltc.toNat - (s.m.planer n).startLtc) * 5 / 4 - (s.m.planer n).sliceCycles →
      completesWith (.stripeFinish n) s (s.m.endStripe n k p (p.run (s.m.runIn s.hbm k p) (p.cutIn.getD {})) cycles false)) ∧
    (∀ k p, s.m.running n = some (k, p) →
      let cycles := (s.m.ltc.toNat - (s.m.planer n).startLtc) * 5 / 4 - (s.m.planer n).sliceCycles
      4 * cdiv (Terms.c p.terms) 1000 * 7 < cycles * 4 →
      completesWith (.stripeWatchdog n) s (s.m.endStripe n k p (p.aborted (s.m.runIn s.hbm k p) (p.cutIn.getD {})) cycles true)) ∧
    (s.m.ltc.toNat % 28000 = 0 → (s.m.planer n).slice = false → (s.m.planer n).replays ≠ [] →
      completesWith (.replayWindow n) s
        (((s.m.setPlaner n { s.m.planer n with
            slice := true
            sliceAt := s.m.ltc.toNat
            sliceCycles := (s.m.planer n).sliceCycles + 1750
            replayCycles := (s.m.planer n).replayCycles - 1686
            gated := false }).wr E.PLANER_STATE n 3).inc E.SLICES_TAKEN n)) ∧
    ((s.m.planer n).slice = true → (s.m.planer n).sliceAt + 1400 ≤ s.m.ltc.toNat →
      completesWith (.replaySliceEnd n) s
        ((s.m.setPlaner n { s.m.planer n with slice := false }).wr E.PLANER_STATE n (if (s.m.planer n).run.isSome then 1 else 0))) ∧
    (s.m.placedOn n = false → completesWith (.planerClockGate n) s (s.m.setPlaner n { s.m.planer n with gated := true })) ∧
    (∀ k f l rest, (s.m.planer n).replays = (k, f, l) :: rest → (s.m.planer n).slice = false → (s.m.planer n).replayCycles = 0 →
      completesWith (.replayDone n) s
        ((s.m.setPlaner n { s.m.planer n with replays := rest, replayCycles := s.m.replayCost rest }).replayed s.hbm k f l))

/-- Stripes wait for rows and streams for slots only so long, squall ends and calls for the port's state again, and an absent stream is
shown (R103, R104, R116, R149). Each clause asserts that its instant has come (log entries 5, 39). -/
def Obligations.StreamEvents : Prop :=
  (∀ (s : State) (k : Nat), k < 256 →
      (∀ p, (s.m.strm k).stripes.find? (fun q => q.closed && !q.released) = some p →
        completesWith (.lookaheadTimeout k) s
          (((s.m.setStrm k ((s.m.strm k).putStripe { p.release s.m.now with
              short := true
              haveRow := if p.sequ = (s.m.strm k).sequ then (s.m.strm k).seqRows else p.behind })).inc
            E.EARLY_RELEASES k).peakAll)) ∧
      ((s.m.strm k).waitSlot = false → (s.m.force k).remote = true → (s.m.strm k).paramsWait = true → (s.m.strm k).slots.length < 8 →
        completesWith (.setSlotWaitEnd k) s (s.m.paramsSlot k)) ∧
      ((s.m.strm k).waitSlot = false → (s.m.force k).remote = false → (s.m.strm k).paramsWait = false →
        completesWith (.setSlotWaitEnd k) s
          (if ((s.m.resumeSettings (Terms.port (s.m.force k))).strm k).paramsWait ∧
              ((s.m.resumeSettings (Terms.port (s.m.force k))).strm k).slots.length < 8
            then (s.m.resumeSettings (Terms.port (s.m.force k))).paramsSlot k else s.m.resumeSettings (Terms.port (s.m.force k)))) ∧
      ((s.m.strm k).waitSlot = true →
        let m := s.m.enterRunning k
        let m := if (m.force k).remote then m else m.resumeSettings (Terms.port (m.force k))
        completesWith (.setSlotWaitEnd k) s (if (m.strm k).paramsWait ∧ (m.strm k).slots.length < 8 then m.paramsSlot k else m))) ∧
  (∀ (s : State) (k : Nat), k < 256 →
      ((s.m.strm k).rx.squall = true →
        completesWith (.squallCalm k) s
          ((((s.m.setStrm k { s.m.strm k with rx := { (s.m.strm k).rx with squall := false } }).showPolice k).squallEvent k 0
              ((s.m.setStrm k { s.m.strm k with rx := { (s.m.strm k).rx with squall := false } }).now)).portFollow
            (Terms.port ((((s.m.setStrm k { s.m.strm k with rx := { (s.m.strm k).rx with squall := false } }).showPolice k).squallEvent k 0
              ((s.m.setStrm k { s.m.strm k with rx := { (s.m.strm k).rx with squall := false } }).now)).force k)))) ∧
      ((s.m.strm k).enabled = true →
        completesWith (.streamAbsent k) s
          ((s.m.setStrm k { s.m.strm k with rx := { (s.m.strm k).rx with absent := true } }).showPolice k)))

/-- PARAMS_APPLY, BG_CMD and the loading of a profile table on a path that may write them (R149, R186, R187, R219). The tally of a wrong
key is the model's reading (log entry 13). -/
def Obligations.StreamAndTableWrites : Prop :=
  ∀ (s : State) (path : Nat),
    (∀ k data, k < 256 → s.mayWrite path (E.PARAMS_APPLY.at k).1 (E.PARAMS_APPLY.at k).2 (leNat (data.take 8)) = true →
      writtenInt E.PARAMS_APPLY.ty data = 1 → (s.m.strm k).paramsWait = false →
      completesWith (.paramsApply path k data) s
        (s.m.wide path (E.PARAMS_APPLY.at k).1 (E.PARAMS_APPLY.at k).2 data fun m => m.when (m.hasContext k) fun m => m.paramsSlot k)) ∧
    (∀ k data, k < 256 → s.mayWrite path (E.BG_CMD.at k).1 (E.BG_CMD.at k).2 (leNat (data.take 8)) = true →
      writtenInt E.BG_CMD.ty data = 1 →
      completesWith (.bgCmd path k data) s
        (s.m.wide path (E.BG_CMD.at k).1 (E.BG_CMD.at k).2 data fun m => m.setStrm k { m.strm k with relearn := true })) ∧
    (∀ data, s.mayWrite path 0x3AF0 3 (leNat (data.take 8)) = true → s.m.rd E.TBL_STATE = 0 →
      completesWith (.tblSize path data) s (s.m.wide path 0x3AF0 3 data fun m =>
        let c := m.clampNum E.TBL_SIZE 0 (writtenInt E.TBL_SIZE.ty data)
        let up := cdiv c.val.toNat 8 * 8
        let n := Nat.min up (m.poolFree / 8 * 8)
        let m := (m.wr E.TBL_SIZE 0 n).tallyIf path 0x3AF0 3
          (if c.kind ≠ 0 then c.kind else if up ≠ c.val.toNat then 5 else if n ≠ up then 4 else 0) data
        (({ m with tabs.loading := zeros n }.wr E.TBL_OFFSET 0 0).wr E.TBL_STATE 0 1).showPool)) ∧
    (∀ data, s.mayWrite path 0x3AF0 5 (leNat (data.take 8)) = true → s.m.rd E.TBL_STATE = 1 →
      completesWith (.tblData path data) s (s.m.wide path 0x3AF0 5 data fun m =>
        let c := m.convert E.TBL_DATA 0 data
        let n := m.tallyIf path 0x3AF0 5 c.kind data
        let n := { n with tabs.loading := putBytes n.tabs.loading (m.rd E.TBL_OFFSET) c.val.toBytes }
        n.wr E.TBL_OFFSET 0 (Nat.min (n.rd E.TBL_SIZE) (m.rd E.TBL_OFFSET + c.val.toBytes.length)))) ∧
    (s.mayWrite path 0x3AF0 6 1 = true → s.m.rd E.TBL_STATE = 1 →
      completesWith (.tblCmdSwap path) s (s.m.wide path 0x3AF0 6 [1] fun m =>
        let n := { m with tabs.pending := some (m.rd E.TBL_PROFILE, m.rd E.TBL_KIND, m.tabs.loading), tabs.loading := [] }.wr E.TBL_STATE 0 2
        if n.profileUsed (m.rd E.TBL_PROFILE) then n else n.activateTable)) ∧
    (s.mayWrite path 0x3AF0 6 2 = true → s.m.rd E.TBL_STATE = 1 →
      completesWith (.tblCmdAbandon path) s (s.m.wide path 0x3AF0 6 [2] fun m =>
        ({ m with tabs.loading := [] }.wr E.TBL_STATE 0 0).showPool)) ∧
    (∀ prof kind b, prof < 64 → 1 ≤ kind → kind ≤ 3 → s.m.tabs.pending = some (prof, kind, b) → s.m.profileUsed prof = false →
      completesWith (.tableActivate prof kind) s s.m.activateTable) ∧
    (∀ prof kind, prof < 64 → 1 ≤ kind → kind ≤ 3 → s.m.tabs.pending = none → completesWith (.tableActivate prof kind) s s.m.freeTables)

/-! ### Position channels and sequencers -/

/-- What a position channel does with samples, frames and writes, and when dwells, gates, losses and standstill take effect (R239 to R246,
R249 to R253). A module that does not drive its SSI clock pair takes the partner's frames, and a poll without a frame was a rejected one
(R501). The corner cases of log entries 2, 27 and 53 are the model's. -/
def Obligations.PositionCommands : Prop :=
  (∀ (s : State) (n : Nat), n < 8 → s.m.ioOn = true →
      (∀ rs rc t, -32768 ≤ rs → rs < 32768 → -32768 ≤ rc → rc < 32768 → s.m.rd E.POS_MODE n = 1 →
        completesWith (.posSample n rs rc t) s (s.m.sinCos n rs rc t)) ∧
      (s.m.rd E.POS_MODE n = 1 → (s.m.posc n).inside < s.m.rd E.AMP_DWELL n → s.m.rd E.AMP_DWELL n ≤ (s.m.posc n).low →
        (s.m.posc n).high < s.m.rd E.AMP_DWELL n → (s.m.posc n).lost < s.m.rd E.AMP_DWELL n → (s.m.posc n).back < s.m.rd E.AMP_DWELL n →
        completesWith (.ampDwellExpiry n) s (s.m.ampFault n 3)) ∧
      (∀ t, s.m.rd E.POS_MODE n = 2 → (s.m.posc n).framed = true →
        let m := s.m.setPosc n { s.m.posc n with clock := (s.m.posc n).clock + 1, framed := s.m.ssiDrives }
        completesWith (.ssiPoll n t) s (if s.m.ssiDrives then m.emit (.ssiClock n) else m)) ∧
      (∀ t, s.m.rd E.POS_MODE n = 2 → (s.m.posc n).framed = false →
        let r := s.m.ssiReject n false
        let m := r.setPosc n { r.posc n with clock := (r.posc n).clock + 1, framed := s.m.ssiDrives }
        completesWith (.ssiPoll n t) s (if s.m.ssiDrives then m.emit (.ssiClock n) else m)) ∧
      (∀ word t, s.m.rd E.POS_MODE n = 2 → s.m.ssiWord n word = none →
        let m := s.m.setPosc n { s.m.posc n with framed := true }
        completesWith (.ssiFrame n word t) s
          (((m.inc E.SSI_ERRORS n).setPst n 7 true).setPosc n
            { m.posc n with rejects := (m.posc n).rejects + 1, jumps := 0 })) ∧
      (∀ word t w p, s.m.rd E.POS_MODE n = 2 → s.m.ssiWord n word = some w → (s.m.posc n).last = some p →
        (s.m.posc n).jumps < 3 → s.m.rd E.SSI_JUMP n < (signedOf (s.m.rd E.SSI_BITS n) (w + 2 ^ 32 - p)).natAbs →
        let m := s.m.setPosc n { s.m.posc n with framed := true }
        completesWith (.ssiFrame n word t) s
          (((m.inc E.SSI_ERRORS n).setPst n 7 true).setPosc n
            { m.posc n with rejects := (m.posc n).rejects + 1, jumps := (m.posc n).jumps + 1 })) ∧
      (∀ word t w p, s.m.rd E.POS_MODE n = 2 → s.m.ssiWord n word = some w → (s.m.posc n).last = some p →
        (s.m.posc n).jumps < 3 → (signedOf (s.m.rd E.SSI_BITS n) (w + 2 ^ 32 - p)).natAbs ≤ s.m.rd E.SSI_JUMP n →
        let m := s.m.setPosc n { s.m.posc n with framed := true }
        completesWith (.ssiFrame n word t) s
          (m.ssiAccept n w (signedOf (s.m.rd E.SSI_BITS n) (w + 2 ^ 32 - p)) (t + BitVec.ofNat 64 (s.m.rd E.SSI_LATCH_DELAY n * 256)))) ∧
      (∀ word t w p, s.m.rd E.POS_MODE n = 2 → s.m.ssiWord n word = some w → (s.m.posc n).last = some p →
        3 ≤ (s.m.posc n).jumps →
        let m := s.m.setPosc n { s.m.posc n with framed := true }
        completesWith (.ssiJumpResync n word t) s
          ((m.ssiAccept n w 0 (t + BitVec.ofNat 64 (s.m.rd E.SSI_LATCH_DELAY n * 256))).setPst n 8 true)) ∧
      (s.m.rd E.POS_MODE n = 2 → 10 ≤ (s.m.posc n).rejects →
        completesWith (.ssiLost n) s ((s.m.setPst n 5 true).wrI E.SPEED n 0)) ∧
      (s.m.rd E.POS_MODE n = 1 → (s.m.posc n).clock % s.m.gateLen n = 0 → (s.m.posc n).clock ≠ (s.m.posc n).gateAt →
        let x := s.m.posc n
        let m := s.m.setPosc n { x with gate0 := s.m.rd E.COUNT n, gateAt := x.clock, freqNext := false, gateFirst := false }
        let v := rdiv (posDist (s.m.rd E.COUNT n) x.gate0 * speedK) (s.m.gateLen n)
        (s.m.pst n 2 = false → x.freqNext = false → completesWith (.gateEnd n) s m) ∧
        (s.m.pst n 2 = false → x.freqNext = true →
          completesWith (.gateEnd n) s ((m.setPst n 2 true).setPosc n { (m.setPst n 2 true).posc n with gateFirst := true })) ∧
        (s.m.pst n 2 = true → x.clock ≠ x.gateAt + s.m.gateLen n →
          completesWith (.gateEnd n) s (m.setPosc n { m.posc n with gateFirst := x.gateFirst })) ∧
        (s.m.pst n 2 = true → x.clock = x.gateAt + s.m.gateLen n →
          let w := m.wrI E.SPEED n (if m.pst n 5 ∨ m.pst n 0 then 0 else v)
          completesWith (.gateEnd n) s (if v.natAbs < w.rd E.SPEED_DOWN n * 65536 then w.setPst n 2 false else w))) ∧
      (s.m.rd E.POS_MODE n = 2 → s.m.pst n 0 = false →
        let m := (s.m.setPst n 0 true).wrI E.SPEED n 0
        completesWith (.standstill n) s
          (m.setPosc n { m.posc n with still := m.rd E.COUNT n, offAt := none, freqNext := false, gateFirst := false })) ∧
      (s.m.rd E.POS_MODE n = 1 → s.m.pst n 0 = false →
        let m := ((s.m.setPst n 0 true).wrI E.SPEED n 0).setPst n 2 false
        completesWith (.standstill n) s
          (m.setPosc n { m.posc n with still := m.rd E.COUNT n, offAt := none, freqNext := false, gateFirst := false })) ∧
      (s.m.divOn n = true → s.m.auth = true → 0 < (s.m.posc n).q →
        let ph := ((s.m.posc n).phase + 1) % 4
        let m := s.m.setPosc n { s.m.posc n with q := (s.m.posc n).q - 1, phase := ph }
        completesWith (.divOutputStep n) s
          ((m.drive (m.rd E.DIV_PIN n) (ph == 1 || ph == 2) m.now).drive (m.rd E.DIV_PIN n + 1) (ph == 2 || ph == 3) m.now)) ∧
      (s.m.divOn n = true → s.m.auth = true → (s.m.posc n).q < 0 →
        let ph := ((s.m.posc n).phase + 3) % 4
        let m := s.m.setPosc n { s.m.posc n with q := (s.m.posc n).q + 1, phase := ph }
        completesWith (.divOutputStep n) s
          ((m.drive (m.rd E.DIV_PIN n) (ph == 1 || ph == 2) m.now).drive (m.rd E.DIV_PIN n + 1) (ph == 2 || ph == 3) m.now))) ∧
  (∀ (s : State) (path n : Nat) (data : Bytes), n < 8 →
      (s.mayWrite path (E.POS_MODE.at n).1 (E.POS_MODE.at n).2 (leNat (data.take 8)) = true → s.m.blocked E.POS_MODE n = false →
        completesWith (.posMode path n data) s (s.m.wide path (E.POS_MODE.at n).1 (E.POS_MODE.at n).2 data fun m =>
          let x := m.putEntry path E.POS_MODE n data
          if m.rd E.POS_MODE n = x.rd E.POS_MODE n then x else x.posRestart n)) ∧
      (s.mayWrite path (E.POS_CMD.at n).1 (E.POS_CMD.at n).2 (leNat (data.take 8)) = true → writtenInt E.POS_CMD.ty data = 1 →
        completesWith (.posCmd path n data) s
          (s.m.wide path (E.POS_CMD.at n).1 (E.POS_CMD.at n).2 data fun m =>
            m.wr E.POS_STATUS n (putBit (m.rd E.POS_STATUS n) 8 false))) ∧
      (s.mayWrite path (E.POS_CMD.at n).1 (E.POS_CMD.at n).2 (leNat (data.take 8)) = true → writtenInt E.POS_CMD.ty data ≠ 1 →
        completesWith (.posCmd path n data) s (s.m.tally path (E.POS_CMD.at n).1 (E.POS_CMD.at n).2 1 data)))

/-- Gray code to binary (R244): the binary number of n's Gray code is n, at every width. -/
def Obligations.GrayCodeReadsBack : Prop :=
  ∀ (w n : Nat), n < 2 ^ w → grayToBinary w false (n ^^^ (n / 2)) = n

/-- When a position target is reached (R255): for forward at or beyond it, for reverse at or before it, for either at it or across
it, with d the signed difference at 32 bits. -/
def Obligations.PositionTargetsReached : Prop :=
  ∀ (count target : Nat) (prev : Option Nat), count < 2 ^ 32 → target < 2 ^ 32 →
    (posReached 0 count prev target = true ↔ (count + 2 ^ 32 - target) % 2 ^ 32 < 2 ^ 31) ∧
    (posReached 1 count prev target = true ↔ (target + 2 ^ 32 - count) % 2 ^ 32 ≤ 2 ^ 31) ∧
    (posReached 2 count none target = true ↔ count = target)

/-- What a sequencer does on its commands, its time targets, its pulse ends and writes to its target and count (R254, R256 to R259). The
corner cases of log entries 28 and 53 are the model's reading. -/
def Obligations.SequencerCommands : Prop :=
  ∀ (s : State) (path k : Nat), k < 32 →
    (s.mayWrite path (0x4800 + k) 0x14 1 = true → s.m.mgActive k = false →
      completesWith (.mgCmdArm path k) s
        (s.m.wide path (0x4800 + k) 0x14 [1] fun m => m.when (m.ioOn && !m.draining) fun m => m.arm k)) ∧
    (s.mayWrite path (0x4800 + k) 0x14 2 = true →
      completesWith (.mgCmdDisarm path k) s (s.m.wide path (0x4800 + k) 0x14 [2] fun m =>
        let x := (m.setMg k { m.mg k with cross := false, fireNow := false, write := none, outs := [] }).wr E.MG_STATE k 0
        let x := { x with held := x.held.filter fun h => h.mg != k }
        if m.rd E.MG_MODE k = 5 ∧ m.mgActive k = true then x.mgSend k (x.mgWord k false false true) (zeros 16) none else x)) ∧
    (∀ t n rest, s.m.ioOn = true → 3 ≤ s.m.rd E.MG_MODE k → s.m.mgActive k = false → (s.m.mg k).outs = (t, n) :: rest →
      0 ≤ twDiff s.m.now t →
      completesWith (.mgTimeTarget k) s ((s.m.setMg k { s.m.mg k with outs := rest }).mgLocal k (s.m.ioCycle t) t n)) ∧
    (s.m.ioOn = true → 3 ≤ s.m.rd E.MG_MODE k → s.m.mgActive k = true → (s.m.mg k).outs = [] → (s.m.mg k).fireNow = false →
      let target : TW64 := BitVec.ofNat 64 (s.m.rd E.MG_NEXT k)
      (0 ≤ twDiff s.m.now (s.m.mgInstant k target) → completesWith (.mgTimeTarget k) s (s.m.reachTime k target)) ∧
      (twDiff s.m.now (s.m.mgInstant k target) < 0 → completesWith (.mgTimeTarget k) s s.m)) ∧
    (s.m.ioOn = true → 3 ≤ s.m.rd E.MG_MODE k → s.m.mgActive k = true → (s.m.mg k).fireNow = true →
      completesWith (.mgTimeTarget k) s (s.m.fireBehind k (BitVec.ofNat 64 (s.m.rd E.MG_NEXT k)) s.m.now)) ∧
    completesWith (.mgPulseEnd k) s
      (s.m.each (List.range 32) fun i m =>
        match (m.pin i).pulses.find? fun q => q.1 == k && decide (0 ≤ twDiff m.now q.2.2) with
        | some q => m.endPulse i q
        | none => m) ∧
    (∀ data, s.mayWrite path (E.MG_TARGET_POS.at k).1 (E.MG_TARGET_POS.at k).2 (leNat (data.take 8)) = true →
      s.m.blocked E.MG_TARGET_POS k = false →
      completesWith (.mgTargetWrite path k 4 data) s
        (s.m.wide path (E.MG_TARGET_POS.at k).1 (E.MG_TARGET_POS.at k).2 data fun m =>
          let x := m.putEntry path E.MG_TARGET_POS k data
          if x.mgActive k ∧ x.mgPos k then x.setMg k { x.mg k with write := some (x.rd E.MG_TARGET_POS k) } else x)) ∧
    (∀ data, s.mayWrite path (E.MG_TARGET_TIME.at k).1 (E.MG_TARGET_TIME.at k).2 (leNat (data.take 8)) = true →
      s.m.blocked E.MG_TARGET_TIME k = false →
      completesWith (.mgTargetWrite path k 6 data) s
        (s.m.wide path (E.MG_TARGET_TIME.at k).1 (E.MG_TARGET_TIME.at k).2 data fun m =>
          let x := m.putEntry path E.MG_TARGET_TIME k data
          if x.mgActive k ∧ x.mgTime k then
            let y := x.compareTime k
            if y.mgActive k then y.newTime k (x.rd E.MG_TARGET_TIME k) y.now else y
          else x)) ∧
    (∀ data, s.mayWrite path (E.MG_COUNT.at k).1 (E.MG_COUNT.at k).2 (leNat (data.take 8)) = true → s.m.blocked E.MG_COUNT k = false →
      completesWith (.mgCountWrite path k data) s
        (s.m.wide path (E.MG_COUNT.at k).1 (E.MG_COUNT.at k).2 data fun m =>
          let x := m.putEntry path E.MG_COUNT k data
          if x.mgActive k ∧ x.rd E.MG_COUNT k ≠ 0 ∧ x.rd E.MG_COUNT k ≤ (x.mg k).passed then x.setMgState k 3 else x))

/-! ### The Mallet -/

/-- Which row of R267's table decides a decision: the first that holds. -/
def Obligations.DecisionTable : Prop :=
  ∀ (m : Mach) (d : Decision) (ta : TW64),
    (∀ tf, 2 ≤ d.kind ∨ m.rd E.VP_ENABLE d.port = 0 ∨ d.last < d.first → m.verdictOf d tf ta = 1) ∧
    (d.kind < 2 → m.rd E.VP_ENABLE d.port ≠ 0 → d.first ≤ d.last →
      m.verdictOf d none ta = 2 ∧
      ∀ t, ((m.rd E.MAX_AHEAD * 256000000 : Nat) < twDiff t ta → m.verdictOf d (some t) ta = 3) ∧
        (twDiff t ta ≤ (m.rd E.MAX_AHEAD * 256000000 : Nat) → twDiff (t - BitVec.ofNat 64 (2 * m.vpPeriod d.port)) ta < 0 →
          m.verdictOf d (some t) ta = 4) ∧
        (twDiff t ta ≤ (m.rd E.MAX_AHEAD * 256000000 : Nat) → 0 ≤ twDiff (t - BitVec.ofNat 64 (2 * m.vpPeriod d.port)) ta →
          m.verdictOf d (some t) ta = if 16384 ≤ m.mallet.pulses.length then 5 else 6))

/-- The on-time guard of a valve (R273): the valve is driven exactly when it is wanted, not resting and on for fewer than Non
updates; a valve wanted for longer is cut and rests Noff updates. -/
def Obligations.OnTimeGuard : Prop :=
  ∀ (nOn nOff run rest : Nat) (wanted : Bool),
    let r := guardValve nOn nOff wanted run rest
    (r.1 = true ↔ wanted = true ∧ rest = 0 ∧ run < nOn) ∧ (r.1 = true → r.2.2.1 = run + 1 ∧ r.2.2.2 = 0) ∧ (r.1 = false → r.2.2.1 = 0) ∧
    (r.2.1 = true ↔ wanted = true ∧ rest = 0 ∧ run = nOn) ∧ (r.2.1 = true → r.2.2.2 = nOff) ∧ (r.2.1 = false → r.2.2.2 = rest - 1) ∧
    (run ≤ nOn → r.2.2.1 ≤ nOn)

/-- DECISION, VALVE_UPDATE and VP_ENABLE (R265, R267, R270, R272 to R281): a record that the module may read is counted, clamped, tested
and applied; an update drives the image; the grid starts and stops. The corner cases of log entries 29, 37 and 53 are the model's reading.
-/
def Obligations.MalletCommands : Prop :=
  ∀ (s : State),
    (∀ r b ta idx rest, r < 8 → b.length = 32 → s.m.ioOn = true → s.m.rd E.MALLET_ENABLE = 1 → s.m.follows = false →
      s.m.rd E.DEC_CHANNEL r < 128 → (s.m.chan (s.m.rd E.DEC_CHANNEL r)).entries = (idx, b) :: rest → s.m.chClass (s.m.rd E.DEC_CHANNEL r) = 2 → s.m.rd E.RING_DIR (s.m.rd E.DEC_CHANNEL r) = 1 →
      let c := s.m.rd E.DEC_CHANNEL r
      let x := ((s.m.setChan c { s.m.chan c with entries := rest }).inc E.DEC_READ r).takeDecision b ta
      completesWith (.decision r b ta) s
        (if x.2.leads then x.2.pairSend 0x64 2 c idx (b ++ leBytes 8 ta.toNat ++ leBytes 4 x.1) else x.2)) ∧
    (∀ v bits, v < 8 → s.m.ioOn = true → (s.m.vport v).grid = true → 0 ≤ twDiff s.m.now (s.m.vport v).un →
      ((s.m.vport v).fault = true ∨ ((s.m.valveUpdate v bits).vport v).fault = false) →
      completesWith (.valveUpdate v bits) s (s.m.valveUpdate v bits)) ∧
    (∀ v bits, v < 8 → s.m.ioOn = true → (s.m.vport v).grid = true → 0 ≤ twDiff s.m.now (s.m.vport v).un →
      (s.m.vport v).fault = false →
      ((s.m.valveUpdate v bits).vport v).fault = true →
      completesWith (.valveUpdate v bits) s ((s.m.valveUpdate v bits).chainSwitch v)) ∧
    (∀ path v data, v < 8 → s.mayWrite path (E.VP_ENABLE.at v).1 (E.VP_ENABLE.at v).2 (leNat (data.take 8)) = true →
      s.m.blocked E.VP_ENABLE v = false →
      completesWith (.vpEnable path v data) s (s.m.wide path (E.VP_ENABLE.at v).1 (E.VP_ENABLE.at v).2 data fun m =>
        let x := m.putEntry path E.VP_ENABLE v data
        if m.rd E.VP_ENABLE v = x.rd E.VP_ENABLE v ∨ x.ioOn = false ∨ x.draining = true then x
        else if x.rd E.VP_ENABLE v = 1 then x.startGrid v else x.stopGrid v))

/-! ### Time -/

/-- Host changes of time, their application, the era, sync periods, the choice of parent, and the PPS and PTM inputs and outputs (R286 to
R299). The corner cases of log entry 30 are the model's reading. -/
def Obligations.TimeCommands : Prop :=
  ∀ (s : State),
    (∀ c, s.m.time.change = some c → s.m.due c = true → completesWith .timeChangeApply s (s.m.install c)) ∧
    (∀ c, s.m.time.change = some c → s.m.due c = false → completesWith .timeChangeApply s s.m) ∧
    (∀ path, s.mayWrite path 0x5010 5 1 = true → s.m.rd E.TIME_SOURCE = 0 → s.m.rd E.GM_EUI = s.m.rd E.MODULE_EUI →
      s.m.time.change = none →
      completesWith (.timeCmdInstall path) s (s.m.wide path 0x5010 5 [1] fun m =>
        { m with time.change := some { anchor := m.anchorFor (m.rd E.NEXT_ANCHOR), step := BitVec.ofNat 64 (m.rd E.NEXT_STEP), rate := m.rd E.NEXT_RATE, host := true } })) ∧
    (∀ path, s.mayWrite path 0x5010 5 2 = true → s.m.rd E.GM_EUI = s.m.rd E.MODULE_EUI → s.m.time.change = none →
      completesWith (.timeCmdSet path) s (s.m.wide path 0x5010 5 [2] fun m =>
        let a := m.rd E.NEXT_ANCHOR
        let step := BitVec.ofNat 64 (m.rd E.TIME_SET) - m.twOf a
        let x := m.wr E.NEXT_STEP 0 step.toNat
        { x with time.change := some { anchor := m.anchorFor a, step := step, rate := m.rd E.RATE, host := true } })) ∧
    (s.m.time.high = true → s.m.now.msb = false →
      completesWith .eraIncrement s (({ s.m with time.high := false }.setEra (s.m.rd E.ERA + 1)).timeEvent 5)) ∧
    (s.m.time.high = false ∨ s.m.now.msb = true → completesWith .eraIncrement s s.m) ∧
    (∀ b, s.m.announce = some b →
      let l := s.m.timePorts.filter fun p => p != s.m.rd E.PARENT_PORT
      completesWith .syncPeriod s
        (({ s.m with time.seq := (s.m.time.seq + 1) % 256 }).each l fun p m =>
          let m := m.sendTime p b
          if m.announcedNow.any fun a => a.port == p then m else m.sendTime p (timePayload 2 s.m.time.seq 0 0 0 0 0 0))) ∧
    (∀ a, a ∈ s.m.time.announced → a.at_ + 3 * s.m.rd E.SYNC_PERIOD * 1000 ≤ s.m.ns →
      completesWith (.announceAgeout a.eui) s
        { s.m with time.announced := s.m.time.announced.filter fun b =>
            !(b.eui == a.eui && decide (b.at_ + 3 * s.m.rd E.SYNC_PERIOD * 1000 ≤ s.m.ns)) }.chooseGm) ∧
    (∀ x, x.port < 96 → s.m.time.child = some x → x.at_ + 200000 ≤ s.m.ns →
      completesWith (.syncExchangeTimeout x.port) s ({ s.m with time.child := none }.inc E.SYNC_MISSES x.port)) ∧
    (s.m.rd E.PARENT_PORT ≠ 0xFF → s.m.time.parentAt + 3 * s.m.rd E.SYNC_PERIOD * 1000 ≤ s.m.ns →
      completesWith .parentTimeout s
        { s.m with time.announced := s.m.time.announced.filter fun a => a.port != s.m.rd E.PARENT_PORT }.chooseGm) ∧
    (∀ (up : Bool) (t : TW64), 3 ≤ s.m.rd E.MODULE_STATE → s.m.time.ppsAt = none → s.m.rd E.PPS_IN_VALID = 0 →
      (up = true ↔ s.m.rd E.PPS_IN_EDGE = 0) →
      completesWith (.ppsInEdge up t) s
        ({ s.m with time.ppsAt := some (s.m.tickOf t), time.ppsRun := 1 }.wr E.PPS_IN_LAST 0 t.toNat)) ∧
    (∀ (up : Bool) (t : TW64), ¬ (up = true ↔ s.m.rd E.PPS_IN_EDGE = 0) → completesWith (.ppsInEdge up t) s s.m) ∧
    (∀ a, s.m.time.ppsAt = some a → a + 1400002000 < s.m.ltc.toNat →
      completesWith .ppsInGap s ({ s.m with time.ppsAt := none, time.ppsRun := 0 }.ppsValid false)) ∧
    (s.m.rd E.PPS_OUT_WIDTH ≠ 0 → s.m.ioOn = true → s.m.time.ppsOut = none → s.m.ltc.toNat % 4 = 0 →
      ((s.m.now.toNat : Int) - s.m.rdI E.PPS_OUT_OFFSET * 256) % 256000000000 < twDiff s.m.now (s.m.twOf (s.m.ltc.toNat - 4)) →
      completesWith .ppsOutRise s ({ s.m with time.ppsOut := some s.m.ltc.toNat }.emit (.ppsOut true s.m.now))) ∧
    (∀ a, s.m.time.ppsOut = some a → s.m.rd E.PPS_OUT_WIDTH * 7000 ≤ (s.m.ltc.toNat - a) * 5 →
      completesWith .ppsOutFall s ({ s.m with time.ppsOut := none }.emit (.ppsOut false s.m.now))) ∧
    (s.m.rd E.PTM_ENABLE = 1 → s.m.time.ptmRun = false →
      completesWith .ptmDialog s ({ s.m with time.ptmRun := true }.emit .ptm)) ∧
    (∀ h t, s.m.time.ptmRun = true → s.m.rd E.TIME_SOURCE ≠ 3 →
      completesWith (.ptmDialogDone true h t) s
        (({ s.m with time.ptmRun := false, time.ptmOk := s.m.rd E.PTM_ENABLE == 1 }.wr E.PTM_HOST_TIME 0 h).wr E.PTM_TW64 0 t.toNat)) ∧
    (∀ h t, s.m.time.ptmRun = true → s.m.rd E.TIME_SOURCE ≠ 3 →
      completesWith (.ptmDialogDone false h t) s ({ s.m with time.ptmRun := false, time.ptmOk := false }.inc E.PTM_FAILS 0))

/-- When an installed change takes over, time goes on from its value at the anchor by the change's step, at the change's rate
(R288). -/
def Obligations.ChangesKeepTimeContinuous : Prop :=
  ∀ (m : Mach) (c : TimeChange), c.anchor < 2 ^ 64 → c.rate < 2 ^ 64 →
    (m.install c).rd E.RATE = c.rate ∧
    twAt ((m.install c).rd E.OFS) ((m.install c).rd E.RATE) ((m.install c).rd E.LTC_ANCHOR) c.anchor =
      twAt (m.rd E.OFS) (m.rd E.RATE) (m.rd E.LTC_ANCHOR) c.anchor + c.step

/-! ### The hub and the I/O pins -/

/-- Software events, input edges, relayed events, ends of pulses, hold-offs and generations, and task configuration (R303 to R313, R319).
The ends of hub cycles are the model's (log entry 9), and the counts of log entry 10 are its reading. -/
def Obligations.HubCommands : Prop :=
  ∀ (s : State),
    (∀ path data, s.mayWrite path (E.SW_PUBLISH.at 0).1 (E.SW_PUBLISH.at 0).2 (leNat (data.take 8)) = true →
      completesWith (.swPublish path data) s (s.m.wide path (E.SW_PUBLISH.at 0).1 (E.SW_PUBLISH.at 0).2 data fun m =>
        (m.tallyIf path (E.SW_PUBLISH.at 0).1 (E.SW_PUBLISH.at 0).2 (m.convert E.SW_PUBLISH 0 data).kind data).swPublish
          (m.convert E.SW_PUBLISH 0 data).val.toNat)) ∧
    (∀ i t, i < 32 → s.m.ioOn = true → (s.m.pin i).input = false → (s.m.rd E.DIN_EDGE i = 1 ∨ s.m.rd E.DIN_EDGE i = 3) →
      let m := s.m.setPin i { s.m.pin i with input := true }
      completesWith (.dinEdge i true t) s (m.publish { ch := m.rd E.DIN_EC i, gen := m.pinGen, src := 0x7000 + i, data := 1, stamp := t - BitVec.ofNat 64 (m.rd E.DIN_FILTER i * 256) })) ∧
    (∀ i t, i < 32 → s.m.ioOn = true → (s.m.pin i).input = true → (s.m.rd E.DIN_EDGE i = 2 ∨ s.m.rd E.DIN_EDGE i = 3) →
      let m := s.m.setPin i { s.m.pin i with input := false }
      completesWith (.dinEdge i false t) s (m.publish { ch := m.rd E.DIN_EC i, gen := m.pinGen, src := 0x7000 + i, data := 0, stamp := t - BitVec.ofNat 64 (m.rd E.DIN_FILTER i * 256) })) ∧
    (∀ i up t, i < 32 → s.m.ioOn = true → (s.m.pin i).input ≠ up →
      (s.m.rd E.DIN_EDGE i = 0 ∨ s.m.rd E.DIN_EDGE i = (if up then 2 else 1)) →
      completesWith (.dinEdge i up t) s (s.m.setPin i { s.m.pin i with input := up })) ∧
    (∀ t e at_ es, t < 256 → (s.m.task t).relays = (e, at_) :: es → at_ ≤ s.m.ltc.toNat →
      let m := s.m.setTask t { s.m.task t with relays := es }
      completesWith (.relayPublish t) s (m.publish { e with stamp := m.now })) ∧
    (∀ t, t < 256 → (∀ e ∈ (s.m.task t).relays, s.m.ltc.toNat < e.2) → completesWith (.relayPublish t) s s.m) ∧
    (∀ t, t < 256 →
      completesWith (.taskPulseEnd t) s
        (s.m.each (List.range 32) fun i m =>
          match (m.pin i).pulses.find? fun q => q.1 == 256 + t && decide (0 ≤ twDiff m.now q.2.2) with
          | none => m
          | some q =>
            let m := m.endPulse i q
            m.setPin i { m.pin i with marks := (m.pin i).marks.map fun k =>
              if k.1 = t ∧ k.2.2.isNone then (k.1, k.2.1, some m.ltc.toNat) else k })) ∧
    (∀ t e, t < 256 → (s.m.task t).deferred = some e →
      (∀ a, (s.m.task t).lastAt = some a → s.m.rd E.TASK_HOLDOFF t * 7 ≤ (s.m.ltc.toNat - a) * 5) →
      let m := (s.m.setTask t { s.m.task t with deferred := none }).activate t e
      let ended := (s.m.task t).lastAt.map fun a => Nat.min s.m.ltc.toNat (a + cdiv (s.m.rd E.TASK_HOLDOFF t * 7) 5)
      completesWith (.holdoffEnd t) s (m.setTask t { m.task t with lastAt := ended.or (m.task t).lastAt })) ∧
    (∀ i, i < 32 →
      completesWith (.pinGenWindowEnd i) s (s.m.setPin i { s.m.pin i with marks := (s.m.pin i).marks.filter fun k =>
        !(k.2.2.any fun a => decide (s.m.rd E.PIN_GEN_WINDOW * 7 ≤ (s.m.ltc.toNat - a) * 5)) })) ∧
    (∀ path t sub data e, path < 5 → t < 256 → (loopEntries.find? fun e => e.sub == sub) = some e →
      completesWith (.taskConfigWrite path t sub data) s (s.m.writeTask path e t data))

/-! ### The host link and its registers -/

/-- Training, loss of the data link, Bus Master Enable, D3hot, the Function Level Reset and MSI-X control (R313 to R317, R323, R327 to
R329, R332 to R334). A configuration write behind an unfinished FLR only waits (R332), and before ATTACHED configuration requests are to
be retried (R472). E before the first training, tags and the size in force after a reset are the model's (log entries 16, 21, 38). -/
def Obligations.HostLinkCommands : Prop :=
  ∀ (s : State),
    (∀ rate width flit mps errors, s.m.life.supply = true → s.m.sameLink rate width flit = true ∨ s.m.trains rate width flit = true →
      mps = 128 ∨ mps = 256 ∨ mps = 512 → s.m.ep.flr = false ∨ s.m.rd E.MPS_NOW = mps →
      let m := { s.m with ep.up := true }.linkErrors errors
      let m := if m.rd E.ISLAND_STATE 0x31 = 2 then { m with fail8 := some m.ns, life.hostFault := false }.wr E.ISLAND_STATE 0x31 1 else m
      let m := (((m.wr E.LINK_RATE 0 rate).wr E.LINK_WIDTH 0 width).wr E.LINK_FLIT 0 (bn flit)).wr E.MPS_NOW 0 mps
      completesWith (.linkChange rate width flit mps errors) s (m.linkNow rate width mps).resume) ∧
    (∀ b o n data, s.m.starting = true →
      completesWith (.bar0InvalidAccess true b o n) s (s.m.emit (.readErr 3)) ∧
      completesWith (.bar0RegisterWrite true b o data) s (s.m.emit (.readErr 3))) ∧
    (s.m.ep.up = true → s.m.rd E.ISLAND_STATE 0x31 ≠ 1 →
      let m := { s.m.functionReset with ep.up := false }
      completesWith .dataLinkDown s ((((m.inc E.DL_DOWNS 0).wr E.LINK_RATE 0 0).wr E.LINK_WIDTH 0 0).wr E.LINK_FLIT 0 0)) ∧
    (s.m.ep.up = true → s.m.rd E.ISLAND_STATE 0x31 = 1 → completesWith .dataLinkDown s (s.m.enterRecovery 0x31 s.hbm)) ∧
    (s.m.configured = true → s.m.ep.flr = true →
      completesWith .bmeClear s { s.m with ep.queuedCfg := s.m.ep.queuedCfg ++ [.bme false] } ∧
      completesWith .bmeSet s { s.m with ep.queuedCfg := s.m.ep.queuedCfg ++ [.bme true] } ∧
      completesWith .d3hotEntry s { s.m with ep.queuedCfg := s.m.ep.queuedCfg ++ [.d3] } ∧
      completesWith .d0Return s { s.m with ep.queuedCfg := s.m.ep.queuedCfg ++ [.d0] } ∧
      completesWith .functionLevelReset s { s.m with ep.queuedCfg := s.m.ep.queuedCfg ++ [.flr] } ∧
      ∀ e f, completesWith (.msixEnableWrite e f) s { s.m with ep.queuedCfg := s.m.ep.queuedCfg ++ [.msix e f] }) ∧
    (s.m.configured = true → s.m.ep.flr = false → s.m.ep.bme = true →
      completesWith .bmeClear s ({ s.m with ep.queuedBme := false, ep.bme := false }.inc E.BME_CLEARS 0).withdraw) ∧
    (s.m.configured = true → s.m.ep.flr = false → s.m.ep.bme = false → s.m.ep.drain = false →
      completesWith .bmeSet s { s.m with ep.bme := true, fail2 := some s.m.ns }.resume) ∧
    (s.m.configured = true → s.m.ep.flr = false → s.m.ep.bme = false → s.m.ep.drain = true →
      completesWith .bmeSet s { s.m with ep.queuedBme := true }) ∧
    (s.m.ep.drain = true → s.m.ep.reads = [] → completesWith .drainEnd s s.m.endDrain) ∧
    (s.m.configured = true → s.m.ep.flr = false →
      let m := s.m.functionReset.inc E.FLRS 0
      let new := (m.rd E.LINK_RATE, m.rd E.LINK_WIDTH, 128)
      let m := if m.ep.trained.any fun t => t != new then m.inc E.LINK_CHANGES 0 else m
      completesWith .functionLevelReset s
        (({ m with ep.trained := some new, ep.e := linkE new.1 new.2.1 128 }.refillAll).wr E.HOST_RATE 0 (linkE new.1 new.2.1 128))) ∧
    (s.m.ep.flr = true →
      completesWith .flrComplete s
        (s.m.ep.queuedCfg.foldl Mach.lateCfg { s.m with ep.flr := false, ep.queuedCfg := [], fail2 := some s.m.ns })) ∧
    (s.m.configured = true → s.m.ep.flr = false → s.m.ep.d3 = false →
      completesWith .d3hotEntry s { s.m with ep.d3 := true, ep.queuedD0 := false }.withdraw) ∧
    (s.m.configured = true → s.m.ep.flr = false → s.m.ep.d3 = true → s.m.ep.drain = false →
      completesWith .d0Return s { s.m with ep.d3 := false, fail2 := some s.m.ns }.resume) ∧
    (∀ f, s.m.configured = true → s.m.ep.flr = false →
      completesWith (.msixEnableWrite true f) s { s.m with ep.msixEnable := true, ep.msixFmask := f }.flushMsix ∧
      completesWith (.msixEnableWrite false f) s { s.m with ep.msixEnable := false, ep.msixFmask := f, ep.pba := [], ep.muted := [] }.flushMsix) ∧
    (∀ v, v < 2048 → s.m.ep.msixEnable = true → v ∈ s.m.ep.pba → s.m.msixHeld v = false →
      completesWith (.msixPendingSend v) s { s.m.sendMsix v with ep.pba := s.m.ep.pba.erase v, ep.muted := s.m.ep.muted.erase v })

/-- A raise of an MSI-X vector falls under the first row of R323 that holds: dropped, merged, pending or sent. A message that is sent
takes its place among the posted writes, and its address and data are those that the table holds when it leaves. -/
def Obligations.MsixRows : Prop :=
  ∀ (m : Mach) (v : Nat),
    (m.ep.msixEnable = false → m.raise v = { m with ep.msixDropped := (m.ep.msixDropped + 1) % 2 ^ 32 }) ∧
    (m.ep.msixEnable = true → v ∈ m.ep.pba → m.raise v = { m with ep.msixMerged := (m.ep.msixMerged + 1) % 2 ^ 32 }) ∧
    (m.ep.msixEnable = true → v ∉ m.ep.pba →
      (m.ep.msixFmask = true ∨ (m.msixEntry v).mask = true ∨ m.ep.bme = false ∨ m.ep.drain = true ∨ m.ep.d3 = true ∨
        m.mayMaster = false) →
      m.raise v = { m with
        ep.pba := insertNat v m.ep.pba
        ep.muted := if m.auth then m.ep.muted else insertNat v m.ep.muted }) ∧
    (m.ep.msixEnable = true → v ∉ m.ep.pba → m.ep.msixFmask = false → (m.msixEntry v).mask = false → m.ep.bme = true →
      m.ep.drain = false → m.ep.d3 = false → m.mayMaster = true →
      m.raise v = { m with ep.writes := m.ep.writes ++ [{ chan := none, addr := 0, data := [], vector := some v }] })

/-- The registers of BAR0 and the HBM aperture (R318 to R320, R324, R325, R327): a write goes to the register at its offset, a write of 8
bytes is two of 4, a write of ones clears causes, the low halves latch the high ones, the aperture reads HBM and drops writes, and an
access of another shape has no effect or reads an error. The aperture below READY and a read in D3hot are the model's reading (log entry
38), and the operands and places of configuration accesses are its choice (log entry 54). -/
def Obligations.BarCommands : Prop :=
  (∀ (s : State), s.m.bar0 = true →
      (∀ v, completesWith (.intCause v) s
        { s.m with ep.intCause := (List.range 8).foldl (fun c b => if bitOf v b then putBit c b false else c) s.m.ep.intCause }) ∧
      completesWith .tw64Lo s
        ({ s.m with ep.tw64Hi := s.m.now.toNat / 2 ^ 32 }.emit (.readDone (leBytes 4 s.m.now.toNat))) ∧
      (∀ k, k < 256 →
        completesWith (.headLo k) s
          ({ s.m with ep.headHi := SMap.set 0 s.m.ep.headHi k (s.m.headCount k / 2 ^ 32) }.emit (.readDone (leBytes 4 (s.m.headCount k))))) ∧
      (∀ v, completesWith (.apertureHi v) s { s.m with ep.apHi := v % 32, ep.apBase := v % 32 * 2 ^ 32 + s.m.ep.apLo }) ∧
      (∀ a n, completesWith (.apertureRead a n) s
        ((completions (s.m.rd E.MPS_NOW) n a (s.lookBack a n)).foldl (fun (m : Mach) b => m.emit (.readDone b))
          { s.m with ep.apReads := (s.m.ep.apReads + 1) % 2 ^ 32 })) ∧
      (∀ a n,
        completesWith (.apertureWrite false a n) s ({ s.m with ep.apDrops := (s.m.ep.apDrops + 1) % 2 ^ 32 }.cause 7) ∧
        completesWith (.apertureWrite true a n) s ({ (s.m.aer 3).cause 6 with ep.apDrops := (s.m.ep.apDrops + 1) % 2 ^ 32 }.cause 7)) ∧
      (∀ o n, completesWith (.bar0InvalidAccess false true o n) s s.m) ∧
      (∀ o n, barAccessOk o n = false →
        completesWith (.bar0InvalidAccess false false o n) s ((s.m.emit (.readErr 2)).aer 4)) ∧
      (∀ o, o % 4 = 0 →
        completesWith (.bar0InvalidAccess false false o 4) s ((s.m.barLatch o).emit (.readDone (leBytes 4 (s.m.barWord o))))) ∧
      (∀ o, o % 8 = 0 →
        let m := s.m.barLatch o
        completesWith (.bar0InvalidAccess false false o 8) s
          ((m.barLatch (o + 4)).emit (.readDone (leBytes 4 (s.m.barWord o) ++ leBytes 4 (m.barWord (o + 4)))))) ∧
      (∀ o, o % 4 = 0 →
        completesWith (.bar0InvalidAccess true false o 4) s (s.m.emit (.readDone (leBytes 4 (s.m.cfgRead o)))))) ∧
  (∀ (s : State) (data : Bytes), s.m.bar0 = true →
      (∀ o, data.length = 4 → o % 4 = 0 → exec (.bar0RegisterWrite false false o data) s = .next (s.writeWord o (leAt data 0 4))) ∧
      (∀ o, data.length = 8 → o % 8 = 0 →
        exec (.bar0RegisterWrite false false o data) s = .next ((s.writeWord o (leAt data 0 4)).writeWord (o + 4) (leAt data 4 4))) ∧
      (∀ o, completesWith (.bar0RegisterWrite false true o data) s ((s.m.aer 3).cause 6)) ∧
      (∀ o, data.length = 4 → o % 4 = 0 →
        completesWith (.bar0RegisterWrite true false o data) s (s.m.cfgWrite o (leAt data 0 4))) ∧
      (∀ v, s.writeWord 0x14 v = { s with m := { s.m with ep.intEnable := v % 256 } } ∧
        s.writeWord 0x18 v = { s with m := { s.m with ep.intVector := v % 2048 } } ∧
        s.writeWord 0x1000 v = { s with m := { s.m with mb.entry := v % 2 ^ 24 } } ∧
        s.writeWord 0x1004 v = { s with m := { s.m with mb.ctrl := v % 8 } } ∧
        s.writeWord 0x1008 v = { s with m := { s.m with mb.offset := v % 2 ^ 24 } } ∧
        s.writeWord 0x100C v = { s with m := { s.m with mb.length := v % 2 ^ 13 } } ∧
        s.writeWord 0x1010 v = { s with m := { s.m with mb.node := v % 2 ^ 16 } } ∧
        s.writeWord 0x2000 v = { s with m := { s.m with ep.apLo := v / 2 ^ 21 * 2 ^ 21 } } ∧
        s.writeWord 0 v = s))

/-! ### Host reads and the engine -/

/-- Completions, timeouts and quarantine of reads, probes and drains (R330 to R332, R340, R359, R360). The choice of tags is the model's
(log entry 21). -/
def Obligations.CompletionCommands : Prop :=
  ∀ (s : State),
    (∀ tag status data, s.m.configured = true → s.m.readOf tag = none →
      completesWith (.completion tag status data) s (s.m.lateCompletion tag)) ∧
    (∀ tag data r, s.m.configured = true → s.m.readOf tag = some r → r.wanted = true → data.length = r.len →
      let m := (s.m.endRead tag).gotData r data
      completesWith (.completion tag 0 data) s (Mach.issueReads (m.ep.waiting.length + 1) m)) ∧
    (∀ tag status data r, s.m.configured = true → s.m.readOf tag = some r → r.wanted = true → status = 1 ∨ status = 2 →
      let m := (s.m.endRead tag).readFailed r status
      completesWith (.completion tag status data) s (Mach.issueReads (m.ep.waiting.length + 1) m)) ∧
    (∀ tag r, s.m.readOf tag = some r →
      let m := { s.m.endRead tag with ep.complTimeouts := (s.m.ep.complTimeouts + 1) % 2 ^ 32, ep.quarantine := s.m.ep.quarantine ++ [tag] }
      let m := ((m.inc E.TIMEOUTS_ALL 0).cause 0).aer 1
      completesWith (.completionTimeout tag) s (if r.wanted then m.readFailed r 3 else m)) ∧
    (∀ tag, tag ∈ s.m.ep.quarantine →
      let m := { s.m with ep.quarantine := s.m.ep.quarantine.erase tag, ep.flrTags := s.m.ep.flrTags.erase tag }
      completesWith (.tagQuarantineEnd tag) s (Mach.issueReads (m.ep.waiting.length + 1) m)) ∧
    (∀ r data, s.m.probeRead = some r →
      completesWith (.probeComplete 0 data) s ({ s.m with ep.reads := s.m.ep.reads.filter fun k => k.tag != r.tag }.probeEnd 0)) ∧
    (∀ r, s.m.probeRead = some r →
      completesWith .probeTimeout s
        ({ s.m with ep.reads := s.m.ep.reads.map fun (k : HostRead) => if k.tag = r.tag then { k with wanted := false } else k }.probeEnd 3)) ∧
    ((s.m.rd E.MODULE_STATE = 8 ∨ ∃ x ∈ s.m.chans, x.2.state = 5) → completesWith .drainTimeout s s.m.cutDrains)

/-- Doorbells, software indexes, CH_CMD and the issue of a channel's units (R337 to R349, R356, R403, R406): each in the states in which
it acts. The cut and order of a unit's writes, and a command without an effect in the channel's state, are the model's (log entries 8, 24,
37). -/
def Obligations.EngineCommands : Prop :=
  ∀ (s : State) (c : Nat), c < 128 →
    (∀ v, v < 2 ^ 32 → s.m.bar0 = true → s.m.follows = true →
      completesWith (.doorbell c v) s (s.m.inc E.STANDBY_WRITES 0) ∧ completesWith (.swIndex c v) s (s.m.inc E.STANDBY_WRITES 0)) ∧
    (∀ v, v < 2 ^ 32 → s.m.bar0 = true → s.m.paired = false →
      completesWith (.doorbell c v) s (s.m.ring c v) ∧ completesWith (.swIndex c v) s (s.m.setSw c v)) ∧
    (∀ v, v < 2 ^ 32 → s.m.bar0 = true → s.m.leads = true →
      completesWith (.doorbell c v) s ((s.m.pairSend 0x66 2 0 0 (leBytes 4 c ++ leBytes 4 0 ++ leBytes 4 v)).ring c v) ∧
      completesWith (.swIndex c v) s ((s.m.pairSend 0x66 2 0 0 (leBytes 4 c ++ leBytes 4 1 ++ leBytes 4 v)).setSw c v)) ∧
    (∀ path, s.mayWrite path (0x5800 + c) 0x0D 1 = true → (s.m.chan c).state = 0 →
      completesWith (.chCmdStart path c) s (s.m.wide path (0x5800 + c) 0x0D [1] fun m => if m.chClass c = 0 then m else m.startChan c)) ∧
    (∀ path, s.mayWrite path (0x5800 + c) 0x0D 2 = true → 1 ≤ (s.m.chan c).state → (s.m.chan c).state ≤ 3 →
      completesWith (.chCmdStop path c) s (s.m.wide path (0x5800 + c) 0x0D [2] fun m => (m.stopChan c).leaveProbe c)) ∧
    (∀ path, s.mayWrite path (0x5800 + c) 0x0D 3 = true → 1 ≤ (s.m.chan c).state → (s.m.chan c).state ≤ 4 →
      completesWith (.chCmdRelease path c) s (s.m.wide path (0x5800 + c) 0x0D [3] fun m => (m.stopChan c).leaveProbe c)) ∧
    (s.m.malletReads c = true → s.m.chClass c = 2 → s.m.rd E.RING_DIR c = 1 → (s.m.chan c).fetching = false → (s.m.chan c).state = 1 →
      s.m.rd E.ENGINE_STATE = 0 → s.m.mayRequest = true →
      let x := s.m.chan c
      let avail := (x.sw + 2 ^ 32 - x.hw) % 2 ^ 32
      let z := s.m.ringSlots c
      0 < avail → avail ≤ z →
      let a := s.m.rd E.CH_ADDR c + x.hw % z * s.m.slotBytes c
      let n := Nat.min (Nat.min (Nat.min avail 8) (z - x.hw % z)) (Nat.min (128 * 2 ^ s.m.ep.cfg.mrrs) (4096 - a % 4096) / s.m.slotBytes c)
      completesWith (.ringEntryFetch c) s
        ((s.m.setChan c { x with fetching := true, state := 1 }).askRead
          { chan := c, what := .entries x.hw n, addr := a, len := n * s.m.slotBytes c })) ∧
    (∀ u, (s.m.headBacks c).headUnit c = some u → (u.kind ≠ 1 ∧ u.kind ≠ 2) ∨ u.noted = true →
      let m := s.m.headBacks c
      (m.canTake c u = true → m.limiterLets c u (m.nextLength c u) = true →
        completesWith (.unitIssue c) s (((m.issueUnit c u 0).settle c).offerVeneers u.stream)) ∧
      (m.canTake c u = true → m.limiterLets c u (m.nextLength c u) = false →
        completesWith (.unitIssue c) s (m.offerVeneers u.stream)) ∧
      (m.canTake c u = false → completesWith (.unitIssue c) s ((m.tailWait c u).offerVeneers u.stream))) ∧
    (∀ u, s.m.headUnit c = some u → s.m.canTake c u = false → s.m.waitedOut c u = true →
      completesWith (.spaceWait c) s (((s.m.dropUnit c u false).settle c).offerVeneers u.stream)) ∧
    (∀ k t w d u, k < 256 → ((s.m.strm k).delivs.find? fun d => !d.posted) = some d → Terms.dma d.terms 0 = c →
      (s.m.headBacks c).headUnit c = some u → u.kind = 1 → u.stream = k → u.deliv = d.id →
      let m := s.m.headBacks c
      m.canTake c u = true → m.limiterLets c u (m.nextLength c u) = true →
      let r := if u.built = false then m.measure k d t w else (false, m)
      completesWith (.veneerPost k t w) s (((r.2.issueUnit c u (d.status ||| bn r.1 * 128)).settle c).offerVeneers k)) ∧
    (∀ k t d u, k < 256 →
      ((s.m.strm k).delivs.find? fun d => d.posted && decide (d.lateLeft = 0) && s.m.trailerHead k d) = some d →
      Terms.dma d.terms 0 = c → (s.m.headBacks c).headUnit c = some u →
      let m := s.m.headBacks c
      m.canTake c u = true → m.limiterLets c u (m.nextLength c u) = true →
      completesWith (.trailerVeneer k t) s ((m.issueUnit c u (d.lateStatus / 4 * 4)).settle c))

/-! ### The fabric -/

/-- What a fabric port does in time, what the root does, and how held and mapped links expire (R371 to R373, R376, R377, R380, R386).
Places of payload fields and the corner cases of log entries 17, 32, 33 and 55 are the model's. -/
def Obligations.FabricPortCommands : Prop :=
  ∀ (s : State) (p : Nat), p < 96 →
    (s.m.fabricUp p = true → s.m.rd E.FAB_PORT_FAULT p < 3 →
      let m := s.m.setFport p { s.m.fport p with tx := (s.m.fport p).tx.filter fun (f : FabMsg) => f.kind != 0x01 }
      let m := if m.tree.sent.isNone then m.elect else m
      completesWith (.helloSend p) s (m.sendNeighbour p 7 0x01 0 0 (m.helloPayload p))) ∧
    (s.m.isFabricPort p = true → s.m.rd E.PORT_STATE p = 4 →
      completesWith (.helloTimeout p) s
        (((s.m.setFport p { s.m.fport p with hello := none, settled := false }).wr E.PORT_STATE p 3).resendPair p).elect) ∧
    (s.m.isFabricPort p = true → s.m.rd E.PORT_STATE p = 3 → (s.m.fport p).hello = none →
      completesWith (.helloFaultTimeout p) s (s.m.fabFault p 1)) ∧
    (s.m.fabricUp p = true → s.m.rd E.PORT_STATE p ≠ 7 →
      let x := s.m.fport p
      completesWith (.creditSend p) s
        ((s.m.setFport p { x with told := x.gave, tx := x.tx.filter fun (f : FabMsg) => f.kind != 0x02 }).sendNeighbour p 7 0x02 0 0
          (x.gave.flatMap fun n => leBytes 2 n))) ∧
    (∀ tc, s.m.fabricUp p = true → s.m.waits p tc = true →
      let x := s.m.fport p
      let m := s.m.setFport p { x with tx := x.tx.filter (fun (f : FabMsg) => f.tc != tc)
                                       starved := if x.starved.any fun k => k.1 == tc then x.starved else x.starved ++ [(tc, s.m.ns)] }
      completesWith (.creditStarved p tc) s
        ((((s.m.fport p).tx.filter fun (f : FabMsg) => f.tc == tc).foldl
          (fun m f => match f.into with | some q => m.freeUnits q f | none => m) m).inc E.CREDIT_STARVED p)) ∧
    (∀ tc, ((s.m.fport p).starved.any fun k => k.1 == tc && decide (k.2 + 2000000 ≤ s.m.ns)) = true → s.m.isFabricPort p = true →
      s.m.rd E.PORT_STATE p = 4 → s.m.waits p tc = true →
      completesWith (.creditStarveFault p tc) s (s.m.fabFault p 4)) ∧
    (∀ f, s.m.nextFrame p = some f → f.kind ≠ 0x10 → completesWith (.fabricFrameSend p) s (s.m.sendFrame p f)) ∧
    (∀ f, s.m.nextFrame p = some f → f.kind = 0x10 → leAt f.payload 0 1 = 2 →
      let m := s.m.sendFrame p f
      completesWith (.fabricFrameSend p) s (m.sendTime p (timePayload 3 (leAt f.payload 1 1) 0 0 0 0 0 m.now))) ∧
    (4 ≤ s.m.rd E.MODULE_STATE → s.m.tree.rootPort = none → s.m.tree.sent.isSome = true →
      let epoch := (s.m.rd E.MAP_STATE % 2 ^ 32 + 1) % 2 ^ 32
      completesWith .mapWalk s ((s.m.sendMap epoch s.m.buildMap).installMap epoch s.m.buildMap)) ∧
    (∀ flow node, (s.m.holds.any fun h => !h.committed && h.node == node && h.flow == flow && (h.outPort == p || h.inPort == p)) = true →
      node ≠ s.m.fabAddr →
      completesWith (.holdExpiry p flow node) s
        { s.m with holds := s.m.holds.filter fun h => !(!h.committed && h.node == node && h.flow == flow && (h.outPort == p || h.inPort == p)) }.showReserved)

/-- The frame that a port sends next is one that waits there and may be sent now, of the most urgent class that has one, and the first of
its class (R376, R377), under the pace of its flow (R381). The pace of a flow is the model's reading (log entry 55). -/
def Obligations.NextFrameIsMostUrgent : Prop :=
  ∀ (m : Mach) (p : Nat) (f : FabMsg), m.nextFrame p = some f →
    f ∈ (m.fport p).tx ∧ m.maySend p f = true ∧ m.paceLets f = true ∧ (m.fport p).mayCost f = true ∧
    (f.tc = 7 ∨ f.tc < 5) ∧
    (∀ tc h, (tc = 7 ∧ f.tc ≠ 7 ∨ tc < f.tc ∧ f.tc ≠ 7) → ((m.fport p).tx.filter fun g => (m.maySend p g && m.paceLets g) && g.tc == tc).head? = some h →
      (m.fport p).mayCost h = false) ∧
    (((m.fport p).tx.filter fun g => (m.maySend p g && m.paceLets g) && g.tc == f.tc).head? = some f)

/-- The checks of a received fabric frame in their order (R387): a short, damaged, wrongly sized or ill-formed frame is counted by the
first check it fails and goes no further. -/
def Obligations.FabricReceptionChecks : Prop :=
  ∀ (m : Mach) (p : Nat) (b : Bytes) (damaged : Bool),
    let m0 := m.setPort p { m.port p with rx := (m.port p).rx.eraseP fun k => k.bytes == b }
    (m0.fabricUp p = false → m.receiveFrame p b damaged = (none, m0)) ∧
    (m0.fabricUp p = true → b.length < 28 →
      m.receiveFrame p b damaged = (none, (m0.inc E.FRAMES_IN p).inc E.FRAMING_ERRORS p)) ∧
    (m0.fabricUp p = true → 28 ≤ b.length → (damaged = true ∨ frameHcrc b = false) →
      m.receiveFrame p b damaged = (none, (m0.inc E.FRAMES_IN p).inc E.FAB_HCRC_ERRORS p)) ∧
    (m0.fabricUp p = true → 28 ≤ b.length → damaged = false → frameHcrc b = true → frameFits b = false →
      m.receiveFrame p b damaged = (none, (m0.inc E.FRAMES_IN p).inc E.FRAMING_ERRORS p)) ∧
    (m0.fabricUp p = true → 28 ≤ b.length → damaged = false → frameHcrc b = true → frameFits b = true → frameValid b = false →
      m.receiveFrame p b damaged = (none, (m0.inc E.FRAMES_IN p).inc E.FAB_BAD_FRAMES p))

/-- A frame that has passed the checks and is for this node has the effect of its kind (R292, R294, R371, R372, R377, R380, R382 to R384,
R441, R482). Places of payload fields and the corner cases of log entries 17, 32 and 33 are the model's. -/
def Obligations.FabricFrameCommands : Prop :=
  (∀ (s : State) (p : Nat) (b : Bytes) (f : FabMsg) (m : Mach), p < 96 → s.m.receiveFrame p b false = (some f, m) →
      f.kind = frameKind b →
      (∀ t, f.kind = 0x01 → completesWith (.hello p b t) s (m.onHello p f)) ∧
      (f.kind = 0x02 → completesWith (.credit p b) s (m.onCredit p f)) ∧
      (f.kind = 0x03 → completesWith (.linkReport p b) s (m.onReport p f)) ∧
      (f.kind = 0x04 → completesWith (.map p b) s (m.onMap p f)) ∧
      (∀ t, f.kind = 0x20 → completesWith (.event p b t) s (m.onEvent f)) ∧
      (∀ t, f.kind = 0x30 → exec (.line p b t) s = .next { s with hbm := (onLine f s.hbm m).1, m := (onLine f s.hbm m).2 }) ∧
      (f.kind = 0x31 → completesWith (.setNotice p b) s (m.onSetNotice f)) ∧
      (f.kind = 0x40 → completesWith (.reserve p b) s (m.onReserve f)) ∧
      (f.kind = 0x41 → completesWith (.reserveHop p b) s (m.onReserveHop p f)) ∧
      (f.kind = 0x42 → completesWith (.reserveAnswer p b) s (m.onReserveAnswer f)) ∧
      (f.kind = 0x43 → completesWith (.releaseFrame p b) s (m.onRelease f)) ∧
      (f.kind = 0x48 → exec (.dictRequest p b) s = .next ({ s with m := m }.onDictRequest f)) ∧
      (f.kind = 0x49 → completesWith (.dictResponse p b) s (m.onDictResponse f)) ∧
      (f.kind = 0x50 → completesWith (.bulkOpen p b) s (m.onBulkOpen f)) ∧
      (f.kind = 0x51 → completesWith (.bulkData p b) s (m.onBulkData f)) ∧
      (f.kind = 0x52 → completesWith (.bulkAck p b) s (m.onBulkAck f)) ∧
      (f.kind = 0x53 → completesWith (.bulkClose p b) s (m.onBulkClose f)) ∧
      (∀ t, exec (.fabricFrame p b false t) s = .next ({ s with m := m }.deliver p t f))) ∧
  (∀ (s : State) (p : Nat) (b : Bytes) (f : FabMsg) (m : Mach) (t : TW64), p < 96 → s.m.receiveFrame p b false = (some f, m) →
      f.kind = 0x10 → frameKind b = 0x10 →
      (leAt b 28 1 = 1 → completesWith (.announce p b t) s (m.onTime p f t)) ∧
      (leAt b 28 1 = 2 → completesWith (.sync p b t) s (m.onTime p f t)) ∧
      (leAt b 28 1 = 3 → completesWith (.followUp p b t) s (m.onTime p f t)) ∧
      (leAt b 28 1 = 4 → completesWith (.delayReq p b t) s (m.onTime p f t)) ∧
      (leAt b 28 1 = 5 → completesWith (.delayResp p b) s (m.onTime p f 0)))

/-! ### The pair -/

/-- A pair frame received on the cross-link port in use reaches its pair handling (R391, R393, R401): on TC2 it is acknowledged, and one
whose number has come before has no other effect; a frame that arrives outside the pair has none, and between two modules of one slot
PAIR_STATE alone has one. Places of payload fields are the model's (log entries 17, 34). -/
def Obligations.PairFrameCommands : Prop :=
  (∀ (s : State) (p : Nat) (b : Bytes) (f : FabMsg) (m : Mach) (t : TW64), s.m.xlinkPort = some p →
      s.m.receiveFrame p b false = (some f, m) → f.kind = frameKind b →
      (f.kind = 0x60 → exec (.pairState b t) s = .next ({ s with m := m }.onPairFrame p f)) ∧
      (f.kind = 0x61 → exec (.commitMark b) s = .next ({ s with m := m }.onPairFrame p f)) ∧
      (f.kind = 0x62 → exec (.deliveryLog b) s = .next ({ s with m := m }.onPairFrame p f)) ∧
      (f.kind = 0x63 → exec (.stripeDigest b) s = .next ({ s with m := m }.onPairFrame p f)) ∧
      (f.kind = 0x64 → exec (.decisionFrame b) s = .next ({ s with m := m }.onPairFrame p f)) ∧
      (f.kind = 0x65 → exec (.posStamp b) s = .next ({ s with m := m }.onPairFrame p f)) ∧
      (f.kind = 0x66 → exec (.hostWrite b) s = .next ({ s with m := m }.onPairFrame p f)) ∧
      (f.kind = 0x67 → exec (.replay b) s = .next ({ s with m := m }.onPairFrame p f)) ∧
      (f.kind = 0x68 → exec (.config b) s = .next ({ s with m := m }.onPairFrame p f)) ∧
      (f.kind = 0x69 → exec (.syncData b) s = .next ({ s with m := m }.onPairFrame p f)) ∧
      (f.kind = 0x6A → exec (.pairAck b) s = .next ({ s with m := m }.onPairFrame p f))) ∧
  (∀ (s : State) (p : Nat) (f : FabMsg),
      ((s.m.paired = false ∨ s.m.rd E.MODULE_STATE < 4 ∨ p ∉ s.m.xlinkPorts) → s.onPairFrame p f = s) ∧
      (s.m.paired = true → 4 ≤ s.m.rd E.MODULE_STATE → p ∈ s.m.xlinkPorts →
        let m := s.m.heardPair
        let r := m.pairSeen f.fseq
        (f.kind ≠ 0x60 → m.flagOn 8 = true → s.onPairFrame p f = { s with m := m }) ∧
        (f.kind = 0x60 ∨ m.flagOn 8 = false → f.tc ≠ 2 → s.onPairFrame p f = { s with m := m }.pairKind p f) ∧
        (f.kind = 0x60 ∨ m.flagOn 8 = false → f.tc = 2 → f.kind ≠ 0x6A → r.1 = true → s.onPairFrame p f = { s with m := r.2.sendAck }) ∧
        (f.kind = 0x60 ∨ m.flagOn 8 = false → f.tc = 2 → f.kind ≠ 0x6A → r.1 = false →
          s.onPairFrame p f =
            { ({ s with m := r.2 }.pairKind p f) with m := ({ s with m := r.2 }.pairKind p f).m.sendAck })))

/-- What the pair does in time, on its contacts and on PAIR_CMD (R396 to R420); the unit that expires is one that waits unnamed, and none
that waits unnamed is older (R406). The corner cases of log entries 31 and 34 are the model's reading. -/
def Obligations.PairCommands : Prop :=
  (∀ (s : State),
      (∀ present own, s.m.paired = true → 4 ≤ s.m.rd E.MODULE_STATE →
        let m := ((s.m.readContacts present own).settleClash.tryOwn).checkSynced
        completesWith (.pairStateSend present own) s (m.pairSend 0x60 3 0 0 m.pairState)) ∧
      (s.m.leads = true → completesWith .commitMarkSend s s.m.sendMark) ∧
      (∀ k f l d, k < 256 → (s.m.strm k).digestOf f l = some d → d.own ≠ none → d.partner = none → d.at_ + 2000000 ≤ s.m.ns →
        completesWith (.digestWaitTimeout k f l) s ((s.m.setStrm k ((s.m.strm k).dropDigest f l)).inc E.NOT_COMPARED 0)) ∧
      (∀ k f l, k < 256 →
        completesWith (.posStampTimeout k f l) s
          (s.m.setStrm k { s.m.strm k with lines := (s.m.strm k).lines.map fun (i : LineInfo) =>
              if i.frame = f ∧ i.line = l ∧ i.posState = 1 ∧ i.at_ + 50000 ≤ s.m.ns then { i with posState := 2 } else i })) ∧
      (∀ p, s.m.xlinkPort = some p →
        let due := fun (u : Nat × FabMsg) => decide (u.1 + 20000 ≤ s.m.ns)
        let m := (s.m.pair.unacked.filter due).foldl (fun (m : Mach) (u : Nat × FabMsg) => m.queueFrame p u.2) s.m
        completesWith .pairResend s (m.setUnacked (s.m.pair.unacked.map fun u => if due u then (m.ns, u.2) else u))) ∧
      (∀ c u, s.m.follows = true → oldestUnit s.m.unnamed = some (c, u) → u.readyAt + 50000000 ≤ s.m.ns →
        completesWith .unitExpiry s (s.m.expireUnit c u)) ∧
      (∀ t, s.m.rd E.MODULE_STATE ≠ 0 → s.m.flagOn 3 = true →
        completesWith (.partnerOwnFall t) s
          ({ s.m with pair.fall := some t, pair.lowAt := s.m.ns, pair.guardDone := false }.underGate fun m => m.flag 3 false)) ∧
      (∀ t, s.m.rd E.MODULE_STATE ≠ 0 → s.m.flagOn 3 = false → s.m.pair.guardDone = false → s.m.guardOver = true → s.m.role ≠ 2 →
        completesWith (.ownGuardExpiry t) s { s.m with pair.guardDone := true }.tryOwn) ∧
      (∀ t, s.m.rd E.MODULE_STATE = 5 → s.m.flagOn 3 = false → s.m.pair.guardDone = false → s.m.guardOver = true → s.m.role = 2 →
        { s.m with pair.guardDone := true }.mayOwn = true → { s.m with pair.guardDone := true }.markFresh = true →
        completesWith (.ownGuardExpiry t) s ({ s.m with pair.guardDone := true }.takeover t).tryOwn) ∧
      (s.m.rd E.MODULE_STATE ≠ 0 → s.m.flagOn 3 = false →
        let m := { s.m with pair.fall := none, pair.guardDone := false }.underGate fun m => m.flag 3 true
        completesWith .partnerOwnRise s
          (if m.paired = true ∧ m.flagOn 2 = true ∧ m.flagOn 3 = true ∧ m.flagOn 6 = false ∧ (m.slotA = false ∨ m.flagOn 7 = true)
           then { m.driveOwn false with pair.clash := some m.ns }.joinPair else m)) ∧
      (s.m.clashOver = true → completesWith .ownRetry s { s.m with pair.clash := none }.tryOwn) ∧
      completesWith .keepaliveExpiry s (s.m.ownDrops 5) ∧
      completesWith (.ownDropFault 1) s ({ s.m with pair.broken := true }.ownDrops 1) ∧
      (∀ cause, cause < 4 → cause ≠ 1 → completesWith (.ownDropFault cause) s
          ({ s.m with pair.broken := s.m.pair.broken || decide (cause = 0) }.ownDrops 5)) ∧
      (s.m.ep.up = false → bitOf (s.m.partnerWord 0) 7 = true → s.m.maySwitch 4 = true →
        completesWith .hostGraceExpiry s (s.m.switch_ 4)) ∧
      (s.m.posShort = true → s.m.maySwitch 6 = true → completesWith (.uplinkGraceExpiry true) s (s.m.switch_ 6)) ∧
      (s.m.fed < bitsOf (s.m.partnerWord 0) 23 16 → s.m.maySwitch 5 = true →
        completesWith (.uplinkGraceExpiry false) s (s.m.switch_ 5)) ∧
      (∀ path, s.mayWrite path 0x6400 0x0E 1 = true → s.m.role = 1 → s.m.flagOn 2 = true → s.m.partnerStandby = true →
        completesWith (.pairCmdSwitch path) s (s.m.wide path 0x6400 0x0E [1] fun m => m.release 9 2)) ∧
      (∀ path, s.mayWrite path 0x6400 0x0E 2 = true → s.m.role = 4 → s.m.rd E.MODULE_STATE = 9 →
        completesWith (.pairCmdClearBar path) s (s.m.wide path 0x6400 0x0E [2] fun m =>
          if m.paired then ({ m with pair.faulty := [], pair.restarts := 0 }.setRole 5).joinPair
          else { m with pair.faulty := [], pair.restarts := 0 }.setRole 0)) ∧
      (∀ path, s.mayWrite path 0x6400 0x0E 3 = true → s.m.role = 5 → s.m.flagOn 3 = false →
        completesWith (.pairCmdForceAlone path) s (s.m.wide path 0x6400 0x0E [3] fun m =>
          (({ ((m.record 7 [5]).flag 9 true) with pair.want := true }.flag 0 true).setRole 1).tryOwn)) ∧
      (s.m.paired = true → s.m.flagOn 5 = true → s.m.xlinkSilent = true →
        let m := ((s.m.forgetXlink.inc E.XLINK_LOSSES 0).pairEvent 6 0).setHeard s.m.pair.heardAt
        completesWith .xlinkTimeout s
          (if m.role = 1 then (m.flag 9 true).settleClash else if m.role = 4 then m.clearFresh else m.enterSyncing true)) ∧
      (¬(s.m.role = 3 ∧ s.m.rd E.MODULE_STATE = 6) →
        completesWith .syncingTimeout s { s.m with pair.syncTo := false, pair.giveStart := [] }) ∧
      (s.m.role = 3 → s.m.rd E.MODULE_STATE = 6 →
        completesWith .syncingTimeout s
          (if 3 ≤ s.m.pair.restarts + 1 then { s.m with pair.restarts := s.m.pair.restarts + 1 }.bar
           else { s.m with pair.restarts := s.m.pair.restarts + 1 }.joinPair))) ∧
  (∀ (l : List (Nat × Machine.Unit)),
      (oldestUnit l = none ↔ l = []) ∧
      (∀ k, oldestUnit l = some k → k ∈ l ∧ ∀ j ∈ l, k.2.readyAt ≤ j.2.readyAt))

/-! ### The object dictionary and its paths -/

/-- Every entry command passes one gate, and so does a whole-value write by index and subindex (R403, R426 to R428, R435, R438): without
effect on a path that is not served, counted with kind 6, 7, 8 or 9 where the entry is read-only, does not exist, is closed in this state
or closed to this path, and otherwise applied, across the pair where R403 says. Which kind a value without a nearest code counts is the
model's reading (log entries 11 to 13, 45). -/
def Obligations.DictionaryWrites : Prop :=
  (∀ (m : Mach) (path index sub : Nat) (data : Bytes) (ok : Bool) (f : Mach → Mach),
      (m.serves path = false → m.command path index sub data ok f = m) ∧
      (m.serves path = true → ok = false → m.command path index sub data ok f = m.tally path index sub 8 data) ∧
      (m.serves path = true → ok = true → m.permitted path index sub (leNat (data.take 8)) = false →
        m.command path index sub data ok f = m.tally path index sub 9 data) ∧
      (m.serves path = true → ok = true → m.permitted path index sub (leNat (data.take 8)) = true →
        (pairWide index sub = false ∨ m.xlinkUp = false ∨ path = 4 → m.command path index sub data ok f = f m) ∧
        (pairWide index sub = true → m.xlinkUp = true → path ≠ 4 → m.slotA = true →
          m.command path index sub data ok f = (f m).sendWide 2 path index sub data) ∧
        (pairWide index sub = true → m.xlinkUp = true → path ≠ 4 → m.slotA = false →
          m.command path index sub data ok f = m.sendWide 1 path index sub data))) ∧
  (∀ (s : State) (path index sub : Nat) (data : Bytes), path < 5 →
      (s.m.serves path = false → exec (.dictWrite path index sub data) s = .next s) ∧
      (∀ e k, s.m.serves path = true → findEntry index sub = some (e, k) → (e.acc = .ro ∨ e.acc = .const) →
        completesWith (.dictWrite path index sub data) s (s.m.tally path index sub 6 data)) ∧
      (s.m.serves path = true → findEntry index sub = none → sub ≠ 0 →
        completesWith (.dictWrite path index sub data) s (s.m.tally path index sub 7 data)) ∧
      (∀ e k, s.m.serves path = true → findEntry index sub = some (e, k) →
        e ∈ [E.HEARTBEAT_TIME, E.REG_ADDR, E.AMP_DWELL, E.MG_PITCH, E.UPDATE_PERIOD, E.MAX_ON, E.LOCK_LIMIT, E.SENSOR_ADDR] →
        s.m.blocked e k = false → s.m.permitted path (e.at k).1 (e.at k).2 (leNat (data.take 8)) = true →
        completesWith (.dictWrite path index sub data) s
          (s.m.wide path (e.at k).1 (e.at k).2 data fun m => m.putEntry path e k data)))

/-- A counted write leaves CLAMP_TALLY one higher, and the five entries beside it tell of this write (R428). -/
def Obligations.TallyTellsOfTheWrite : Prop :=
  ∀ (m : Mach) (path index sub kind : Nat) (data : Bytes), path < 5 → index < 2 ^ 16 → sub < 2 ^ 8 → kind < 2 ^ 8 →
    let n := m.tally path index sub kind data
    n.rd E.CLAMP_TALLY = (m.rd E.CLAMP_TALLY + 1) % 2 ^ 32 ∧ n.rd E.LAST_CLAMPED = path * 2 ^ 24 + index * 2 ^ 8 + sub ∧
    n.rd E.LAST_CLAMP_KIND = kind ∧ n.rd E.LAST_CLAMP_TIME = m.now.toNat ∧ n.rd E.LAST_WRITTEN = leNat (data.take 8)

/-- RESTORE_DEFAULTS, the store, the mailbox, requests to other nodes and bulk transfers (R403, R431 to R433, R437, R439 to R441, R482).
While a mailbox transaction runs, MB_GO changes nothing, and while BAR0 is closed it is an unsupported request; a request of no operation
ends at once, and a write of a pair-wide entry at the tick at which both modules have applied it. The corner cases of log entries 43 and
45 are the model's. -/
def Obligations.DictionaryCommands : Prop :=
  (∀ (s : State),
      (∀ path data, s.mayWrite path (E.RESTORE_DEFAULTS.at 0).1 (E.RESTORE_DEFAULTS.at 0).2 (leNat (data.take 8)) = true →
        writtenInt E.RESTORE_DEFAULTS.ty data = 0x64616F6C →
        completesWith (.restoreDefaults path data) s
          (s.m.wide path (E.RESTORE_DEFAULTS.at 0).1 (E.RESTORE_DEFAULTS.at 0).2 data fun m => { m with life.restore := true })) ∧
      (s.m.rd E.STORE_PENDING = 1 →
        let gen := match s.m.latestStore with | some x => x.gen + 1 | none => 1
        let new : Store := { valid := true, gen := gen, vals := s.m.persisted, crc := crc32c (storeImage gen s.m.persisted) }
        let m := { s.m with life.stores :=
          if s.m.latestStore == some s.m.life.stores.1 then (s.m.life.stores.1, new) else (new, s.m.life.stores.2) }
        completesWith .storeWrite s (((m.wr E.STORE_GEN 0 gen).inc E.STORE_WRITES 0).wr E.STORE_PENDING 0 0)) ∧
      (∀ tag, s.m.mb.ctrl % 4 = 1 → exec (.mbGoRead tag) s = .next (s.mbGo 1 (tag % 65536))) ∧
      (∀ tag, s.m.mb.ctrl % 4 = 2 → exec (.mbGoWrite tag) s = .next (s.mbGo 2 (tag % 65536))) ∧
      (∀ tag, (s.m.mb.ctrl % 4 = 0 ∨ s.m.mb.ctrl % 4 = 3) → exec (.mbGoNone tag) s = .next (s.mbGo 0 (tag % 65536))) ∧
      (∀ q r, s.m.server.own = some q → s.m.mb.run = some r → q.resends < 2 →
        completesWith .dictRequestTimeout s
          ({ s.m with server.own := some { q with resends := q.resends + 1 } }.sendTo q.node 3 0x48 0 0 q.payload).2) ∧
      (∀ q r, s.m.server.own = some q → s.m.mb.run = some r → 2 ≤ q.resends →
        completesWith .dictRequestTimeout s ({ s.m with server.own := none }.mbEnd r.tag 4)) ∧
      (∀ r n, s.m.mb.run = some r → r.wait = some n → s.m.gw.run = none → s.m.can.waits = [] → s.m.server.waiting = [] →
        s.m.answerWides = if s.m.wideOver n = true then s.m.mbWritten r else s.m) ∧
      (∀ b, s.m.life.send = some b → b.at_ + 2000000 ≤ s.m.ns → b.resends < 5 →
        completesWith .bulkAckTimeout s (s.m.bulkGo { b with resends := b.resends + 1, next := b.acked })) ∧
      (∀ b, s.m.life.send = some b → b.at_ + 2000000 ≤ s.m.ns → 5 ≤ b.resends → completesWith .bulkAckTimeout s { s.m with life.send := none })) ∧
  (∀ (s : State) (op tag : Nat),
      (s.m.bar0 = false → s.mbGo op tag = { s with m := s.m.unsupported }) ∧
      (s.m.bar0 = true → s.m.mb.status % 4 = 1 → s.mbGo op tag = s) ∧
      (s.m.bar0 = true → s.m.mb.status % 4 ≠ 1 → op ≠ 1 → op ≠ 2 → (s.mbGo op tag).m.mb.run = none))

/-- USDO, NMT, the node's own messages, bus-off and CAN_ENABLE on the CAN FD path (R442 to R446). The bytes of USDO and the abort codes
are the model's (log entries 17, 40). -/
def Obligations.CanCommands : Prop :=
  (∀ (s : State), s.m.can.on = true → s.m.rd E.CAN_STATE ≠ 2 →
      (∀ index sub data size, s.m.serves 1 = true →
        (∀ expedited, completesWith (.usdoDownload index sub data size expedited true) s
          (s.m.usdoAnswer 3 index sub (leBytes 4 0x05040001))) ∧
        exec (.usdoDownload index sub data size true false) s = .next (s.usdoWrite index sub (data.take size)) ∧
        completesWith (.usdoDownload index sub data size false false) s
          { s.m with can.usdo := some { index := index, sub := sub, size := size, data := data } }) ∧
      (∀ index sub, s.m.serves 1 = true → ((s.m.countRequest 1).dictRead 1 index sub 0 65536).1 = 1 →
        completesWith (.usdoUpload index sub false) s
          ({ (s.m.countRequest 1).afterRead 1 index sub with can.usdo := none }.usdoAnswer 3 index sub (leBytes 4 abortNoObject))) ∧
      (∀ index sub, s.m.serves 1 = true → ((s.m.countRequest 1).dictRead 1 index sub 0 65536).1 ≠ 1 →
        let b := ((s.m.countRequest 1).dictRead 1 index sub 0 65536).2.2
        let m := { (s.m.countRequest 1).afterRead 1 index sub with can.usdo := none }
        (b.length ≤ 56 → completesWith (.usdoUpload index sub false) s (m.usdoAnswer 2 index sub b)) ∧
        (56 < b.length → completesWith (.usdoUpload index sub false) s
          ({ m with can.usdo := some { index := index, sub := sub, size := b.length, data := b, upload := true } }.usdoAnswer 4 index sub
            (leBytes 4 b.length)))) ∧
      (∀ index sub, s.m.serves 1 = true →
        completesWith (.usdoUpload index sub true) s (s.m.usdoAnswer 3 index sub (leBytes 4 0x05040001))) ∧
      (∀ u data last, s.m.can.usdo = some u → s.m.serves 1 = true → u.lost = true → completesWith (.usdoSegment data last) s s.m) ∧
      (∀ u data last, s.m.can.usdo = some u → s.m.serves 1 = true → u.lost = false → u.upload = true →
        completesWith (.usdoSegment data last) s
          ({ s.m with can.usdo := if (u.data.drop 56).isEmpty then none else some { u with data := u.data.drop 56 } }.usdoAnswer 5 u.index
            u.sub (u.data.take 56))) ∧
      (∀ u data, s.m.can.usdo = some u → s.m.serves 1 = true → u.lost = false → u.upload = false →
        completesWith (.usdoSegment data false) s { s.m with can.usdo := some { u with data := u.data ++ data } } ∧
        exec (.usdoSegment data true) s = .next (s.usdoWrite u.index u.sub ((u.data ++ data).take u.size))) ∧
      (∀ u, s.m.can.usdo = some u →
        completesWith .usdoTimeout s ({ s.m with can.usdo := none }.usdoAnswer 3 u.index u.sub (leBytes 4 abortTimeout))) ∧
      (∀ node, (node = 0 ∨ node = s.m.rd E.CAN_NODE_ID) →
        completesWith (.nmtStart node) s (s.m.wr E.NMT_STATE 0 0x05) ∧
        completesWith (.nmtStop node) s (s.m.wr E.NMT_STATE 0 0x04) ∧
        completesWith (.nmtEnterPreoperational node) s (s.m.wr E.NMT_STATE 0 0x7F) ∧
        completesWith (.nmtResetCommunication node) s s.m.canInit ∧ completesWith (.nmtResetNode node) s s.m.canInit) ∧
      (s.m.rd E.HEARTBEAT_TIME ≠ 0 →
        completesWith .heartbeat s (s.m.emit (.can (0x700 + s.m.rd E.CAN_NODE_ID) (leBytes 1 (s.m.rd E.NMT_STATE))))) ∧
      (∀ c, s.m.can.emcyAt = none → bitOf (s.m.rd E.EMCY_COBID) 31 = false → s.m.causesNow = [c] → s.m.can.causes = [] →
        completesWith .emergency s ({ s.m with can.causes := [c] }.emergency c.1 c.2)) ∧
      (s.m.can.emcyAt = none → bitOf (s.m.rd E.EMCY_COBID) 31 = false → s.m.causesNow = [] → s.m.can.causes ≠ [] →
        completesWith .emergency s ({ s.m with can.causes := [] }.emergency 0 0x100100)) ∧
      completesWith .canBusOff s ((s.m.wr E.CAN_STATE 0 2).inc E.CAN_BUS_OFFS 0) ∧
      completesWith (.canErrorPassive true) s (s.m.wr E.CAN_STATE 0 1) ∧
      completesWith (.canErrorPassive false) s (s.m.wr E.CAN_STATE 0 0)) ∧
  (∀ (s : State),
      (s.m.can.on = true → s.m.rd E.CAN_STATE = 2 → completesWith .canBusOffRecovery s (s.m.wr E.CAN_STATE 0 0)) ∧
      (∀ path data, s.mayWrite path (E.CAN_ENABLE.at 0).1 (E.CAN_ENABLE.at 0).2 (leNat (data.take 8)) = true →
        s.m.blocked E.CAN_ENABLE 0 = false →
        completesWith (.canEnable path data) s (s.m.wide path (E.CAN_ENABLE.at 0).1 (E.CAN_ENABLE.at 0).2 data fun m =>
          (m.putEntry path E.CAN_ENABLE 0 data).canInit)))

/-- The two-wire target (R449 to R456, R462): it answers its own address, stores and sends bytes at its pointer, and lets go of the lines
on an abort or a timeout; a sleeping module holds the clock while it wakes. The corner cases of log entry 44 are the model's reading. -/
def Obligations.TargetCommands : Prop :=
  ∀ (s : State),
    (∀ read, s.m.rd E.MODULE_STATE ≠ 0 → s.m.twi.waking = false →
      completesWith (.twiAddress (s.m.rd E.TWI_ADDRESS) read) s
        (({ s.m with twi := { s.m.twi with mode := if read then 3 else 1, released := false, refusing := false, snapshot := if read then s.m.twi.summary else s.m.twi.snapshot } }.inc
          E.TWI_TRANSFERS 0).emit (.twiAck true))) ∧
    (∀ a read, s.m.rd E.MODULE_STATE ≠ 0 → s.m.twi.waking = false → a ≠ s.m.rd E.TWI_ADDRESS →
      completesWith (.twiAddress a read) s
        { s.m with twi := { s.m.twi with mode := 0, released := false, refusing := false } }) ∧
    (∀ v, v < 256 → s.m.benchRuns = true → s.m.twi.waking = false → s.m.twi.refusing = false → s.m.twi.mode = 1 →
      completesWith (.twiWriteByte v) s
        ({ s.m.wr E.TWI_POINTER 0 v with twi.mode := 2 }.emit (.twiAck true))) ∧
    (∀ v, v < 256 → s.m.benchRuns = true → s.m.twi.waking = false → s.m.twi.refusing = false → s.m.twi.mode = 2 →
      let t := s.pointerStore (s.m.rd E.TWI_POINTER) (BitVec.ofNat 8 v)
      exec (.twiWriteByte v) s = .next { t with m := t.m.pointerUp.emit (.twiAck true) }) ∧
    (∀ acked, s.m.benchRuns = true → s.m.twi.waking = false → s.m.twi.mode = 3 → s.m.twi.released = false → s.m.twi.refusing = false →
      let m := (s.m.emit (.twiByte (s.m.pointerByte (s.m.rd E.TWI_POINTER)))).pointerUp
      completesWith (.twiReadByte acked) s { m with twi.released := !acked }) ∧
    (s.m.rd E.MODULE_STATE ≠ 0 → s.m.twi.mode ≠ 0 → s.m.twi.waking = false →
      completesWith (.twiStartAbort true) s ((s.m.twiIdle.inc E.ACK_ABORTS 0).twiFlag 2) ∧
      completesWith (.twiStartAbort false) s s.m.twiIdle) ∧
    (s.m.rd E.MODULE_STATE ≠ 0 →
      completesWith (.twiLineTimeout true) s ((s.m.twiIdle.inc E.SDA_TIMEOUTS 0).twiFlag 1) ∧
      completesWith (.twiLineTimeout false) s ((s.m.twiIdle.inc E.SCL_TIMEOUTS 0).twiFlag 0)) ∧
    (s.m.rd E.MODULE_STATE = 2 → s.m.life.awake = false → s.m.twi.mode ≠ 0 → s.m.twi.waking = false → s.m.twi.refusing = false →
      completesWith .twiWake s (({ s.m with twi.waking := true, twi.starting := true }.inc E.WAKES 0).emit (.twiHold true))) ∧
    (∀ ns, s.m.twi.starting = true → s.m.twi.waking = true →
      let m := { s.m with twi.starting := false, twi.waking := false, life.awake := true, gw.endAt := s.m.ns }
      completesWith (.twiWakeDone ns) s ((m.peak E.WAKE_STRETCH_MAX 0 (Nat.min ns 400000)).emit (.twiHold false))) ∧
    (∀ ns, s.m.twi.starting = true → s.m.twi.waking = false →
      completesWith (.twiWakeDone ns) s { s.m with twi.starting := false, twi.waking := false, life.awake := true, gw.endAt := s.m.ns }) ∧
    (s.m.twi.waking = true →
      completesWith .twiWakeTimeout s
        ((({ s.m with twi.waking := false, twi.refusing := true }.inc E.WAKE_FAILS 0).peak E.WAKE_STRETCH_MAX 0 400000).emit (.twiHold false))) ∧
    (∀ path data, s.mayWrite path 0x6800 0x04 (leNat (data.take 8)) = true →
      completesWith (.twiFlagClear path data) s (s.m.wide path 0x6800 0x04 data fun m =>
        let c := m.convert E.TWI_FLAG_CLEAR 0 data
        let m := m.tallyIf path 0x6800 0x04 c.kind data
        m.wr E.TWI_FLAGS 0 ((List.range 3).foldl (fun r b => if bitOf c.val.toNat b then putBit r b false else r) (m.rd E.TWI_FLAGS)))) ∧
    (∀ tag, s.m.gw.flags % 4 = 1 → exec (.gwGoRead tag) s = .next (s.gwGo 1 (tag % 256))) ∧
    (∀ tag, s.m.gw.flags % 4 = 2 → exec (.gwGoWrite tag) s = .next (s.gwGo 2 (tag % 256))) ∧
    (∀ tag, (s.m.gw.flags % 4 = 0 ∨ s.m.gw.flags % 4 = 3) → exec (.gwGoNone tag) s = .next (s.gwGo 0 (tag % 256))) ∧
    (s.m.benchRuns = true → completesWith .healthSummaryRefresh s { s.m with twi.summary := s.m.health })

/-- The two-wire controller (R458 to R461): polls queue, the bus is checked, and a transfer ends, repeats or fails. The corner cases of
log entry 44 are the model's reading. -/
def Obligations.ControllerCommands : Prop :=
  ∀ (s : State), s.m.benchRuns = true →
    (∀ k, k < 8 → s.m.rd E.SENSOR_ADDR k ≠ 0xFF → s.m.twc.now ≠ some (k + 1) → (k + 1) ∉ s.m.twc.queue →
      completesWith (.twcPoll k) s { s.m with twc.queue := s.m.twc.queue ++ [k + 1] }.twcTake) ∧
    (∀ data k, s.m.twc.phase = 1 → s.m.twc.now = some (k + 1) →
      completesWith (.twcTransferDone data) s
        (((s.m.wr E.SENSOR_VALUE k (leAt data 0 1 * 256 + leAt data 1 1)).wr E.SENSOR_TIME k s.m.now.toNat).twcEnd)) ∧
    (∀ data, s.m.twc.phase = 1 → s.m.twc.now = some 0 → completesWith (.twcTransferDone data) s (s.m.eqTable data).twcEnd) ∧
    (s.m.twc.now.isSome = true → (s.m.twc.phase = 0 ∨ s.m.twc.phase = 4) →
      (∀ sda lows, completesWith (.twcBusCheck true sda lows) s { (s.m.twcFlag 2).inc E.BUS_STUCK 0 with twc.phase := 4 }) ∧
      (∀ lows, completesWith (.twcBusCheck false false lows) s { (s.m.emit (.twc 1 s.m.twcAddr)).emit (.twcWrite s.m.twcPointer) with twc.phase := 1 }) ∧
      (∀ lows, lows ≤ 9 →
        let m := ((s.m.emit (.twc 3 lows)).emit (.twc 2 0)).inc E.BUS_RECOVERIES 0
        completesWith (.twcBusCheck false true lows) s { (m.emit (.twc 1 m.twcAddr)).emit (.twcWrite m.twcPointer) with twc.phase := 1 }) ∧
      (∀ lows, 9 < lows →
        completesWith (.twcBusCheck false true lows) s ((((s.m.emit (.twc 3 9)).twcFlag 1).inc E.BUS_STUCK 0).twcAgain 4))) ∧
    (s.m.twc.now.isSome = true → s.m.twc.phase = 1 →
      completesWith (.twcArbLoss true) s { s.m.twcFlag 0 with twc.phase := 2 } ∧
      completesWith (.twcArbLoss false) s { (s.m.twcFlag 0).inc E.ARB_LOSSES 0 with twc.phase := 2 } ∧
      completesWith .twcNack s { ((s.m.emit (.twc 2 0)).twcFlag 3).inc E.TWC_NACKS 0 with twc.phase := 3 } ∧
      (∀ lows, lows ≤ 9 → completesWith (.twcSdaLowTimeout lows) s
        ((((s.m.emit (.twc 3 lows)).emit (.twc 2 0)).inc E.BUS_RECOVERIES 0).twcAgain 0)) ∧
      (∀ lows, 9 < lows → completesWith (.twcSdaLowTimeout lows) s
        ((((s.m.emit (.twc 3 9)).twcFlag 1).inc E.BUS_STUCK 0).twcAgain 4))) ∧
    (s.m.twc.now.isSome = true → s.m.twc.phase = 2 → completesWith .twcBusFree s (s.m.twcAgain 0)) ∧
    (s.m.twc.now.isSome = true → s.m.twc.phase = 3 → completesWith .twcRetry s (s.m.twcAgain 0))

/-! ### Module life -/

/-- Power, seating, MODULE_CMD and what starts, drains and stops the module (R463, R465 to R471, R473). The corner cases of log entry 35
are the model's reading. -/
def Obligations.LifeCommands : Prop :=
  ∀ (s : State),
    (∀ slot, slot < 8 → s.m.rd E.MODULE_STATE = 0 → s.m.powered = false → completesWith (.powerOn slot) s (s.m.powerUp slot)) ∧
    (s.m.rd E.MODULE_STATE = 0 → s.m.powered = true → s.m.life.outRange = false →
      let m := ({ s.m with life.sense := true }.inc E.MATINGS 0).record 5 [s.m.rd E.ERA, s.m.slotId, 0]
      completesWith .senseLoopClosed s ((m.consume 0x3E (ratedLife / 250)).setModState 1).startUpEnd) ∧
    (s.m.rd E.MODULE_STATE ≠ 0 → s.m.life.sense = true →
      let m := { s.m with life.sense := false, life.removal := some s.m.ns }.setModState 8
      let m := if m.paired ∧ m.flagOn 2 then m.release 8 0 else m
      completesWith .senseLoopBreak s ((m.underGate fun m => { m with drainTo := 2 }).record 5 [s.m.rd E.ERA, s.m.slotId, 1])) ∧
    (∀ t, s.m.life.removal = some t → s.m.rd E.MODULE_STATE = 8 → s.m.ns ≤ t + 10 ^ 7 → s.m.life.outRange = false →
      s.m.life.bootless = false →
      completesWith .senseLoopRestore s
        ((({ s.m with life.sense := true, life.removal := none }.inc E.REMOVAL_ABORTS 0).record 5 [s.m.rd E.ERA, s.m.slotId, 2]).warmRestart 6)) ∧
    (s.m.rd E.MODULE_STATE = 2 → completesWith .wakeN s (s.m.wr E.WAKE_SOURCE 0 1).wake) ∧
    (∀ path, s.mayWrite path 0x6C00 0x02 1 = true → s.m.rd E.MODULE_STATE = 2 →
      completesWith (.moduleCmdWake path) s (s.m.wide path 0x6C00 0x02 [1] fun m => m.wakeFor 2)) ∧
    (∀ path, s.mayWrite path 0x6C00 0x02 2 = true →
      (s.m.rd E.MODULE_STATE = 4 ∨ s.m.rd E.MODULE_STATE = 5 ∨ s.m.rd E.MODULE_STATE = 6 ∨ s.m.rd E.MODULE_STATE = 9) →
      completesWith (.moduleCmdDormant path) s (s.m.wide path 0x6C00 0x02 [2] Mach.beginDrain)) ∧
    (∀ path, s.mayWrite path 0x6C00 0x02 3 = true → 3 ≤ s.m.rd E.MODULE_STATE →
      completesWith (.moduleCmdWarmRestart path) s (s.m.wide path 0x6C00 0x02 [3] fun m => m.warmRestart 3)) ∧
    (∀ path data, s.mayWrite path (E.BOOT_POLICY.at 0).1 (E.BOOT_POLICY.at 0).2 (leNat (data.take 8)) = true →
      s.m.blocked E.BOOT_POLICY 0 = false →
      completesWith (.bootPolicy path data) s (s.m.wide path (E.BOOT_POLICY.at 0).1 (E.BOOT_POLICY.at 0).2 data fun m =>
        let n := m.putEntry path E.BOOT_POLICY 0 data
        if path = 3 ∧ n.rd E.BOOT_POLICY = 0 then n.wakeFor 3 else n)) ∧
    (∀ failed present, s.m.rd E.MODULE_STATE = 3 →
      exec (.wakingComplete failed present) s = .next ({ s with hbm := [], m := s.m.wakingDone failed present } : State).mbTake) ∧
    (s.m.rd E.MODULE_STATE = 8 → s.m.drainTo = 1 → s.m.ep.writes = [] → (∀ x ∈ s.m.chans, x.2.queue = [] ∧ x.2.issued = [] ∧ x.2.redo = []) →
      completesWith .drainComplete s s.m.powerDown) ∧
    (s.m.rd E.MODULE_STATE = 2 → s.m.gw.run = none → s.m.gw.endAt + 10 ^ 9 ≤ s.m.ns → completesWith .benchIdleStop s { s.m with life.awake := false }) ∧
    (s.m.powered = true → completesWith .supplyOutOfRange s ({ s.m with life.outRange := true }.ownDrops 5)) ∧
    completesWith .supplyInRange s { s.m with life.outRange := false } ∧
    exec .supplyLoss s = .next { s with hbm := (powerOff s.m).1, m := (powerOff s.m).2 } ∧
    (s.m.powered = true → exec .junctionOvertemp s = .next { s with hbm := (powerOff s.m).1, m := (powerOff s.m).2 }) ∧
    (∀ above, s.m.powered = true → completesWith (.junctionOperatingLimit above) s { s.m with life.hot := above })

/-- Islands and the Almanac (R474, R475, R484 to R489): a missed heartbeat and a fault start recovery, recovery ends, the Bench's watchdog
restarts it; calibration marks, samples, hours and corrected errors are kept. The corner cases of log entries 35, 41 and 42 are the
model's. -/
def Obligations.IslandAndAlmanacCommands : Prop :=
  (∀ (s : State) (i : Nat), i < 54 →
      (s.m.beats i = true → i ≠ 0x31 → completesWith (.heartbeatMiss i) s ((s.m.inc E.HEARTBEAT_MISSES i).enterRecovery i s.hbm)) ∧
      (s.m.beats i = true → i ≠ 0x31 → ∀ storage, (storage = false ∨ i < 0x28 ∨ 0x30 ≤ i ∨ s.m.paired = false ∨ s.m.flagOn 2 = false) →
        completesWith (.islandFault i storage) s (s.m.enterRecovery i s.hbm)) ∧
      (s.m.beats 0x31 = true →
        completesWith (.heartbeatMiss 0x31) s
          ({ s.m.inc E.HEARTBEAT_MISSES 0x31 with life.hostFault := true }.enterRecovery 0x31 s.hbm) ∧
        ∀ storage, completesWith (.islandFault 0x31 storage) s ({ s.m with life.hostFault := true }.enterRecovery 0x31 s.hbm)) ∧
      (s.m.beats i = true → 0x28 ≤ i → i < 0x30 → s.m.paired = true → s.m.flagOn 2 = true →
        completesWith (.islandFault i true) s ((s.m.release 1 0).enterRecovery i s.hbm)) ∧
      (s.m.rd E.ISLAND_STATE i = 2 → i ≠ 0x31 → completesWith (.islandRecovered i) s (s.m.setIsland i 1)) ∧
      (s.m.rd E.ISLAND_STATE 0x31 = 2 → s.m.ep.up = true →
        completesWith (.islandRecovered 0x31) s { s.m.setIsland 0x31 1 with life.hostFault := false }) ∧
      (s.m.powered = true → (s.m.rd E.MODULE_STATE ≠ 2 ∨ s.m.life.awake = true) →
        let l := (s.m.life.expiries ++ [s.m.ns]).filter fun t => decide (s.m.ns < t + 3600 * 10 ^ 9)
        let m := { s.m with life.expiries := l }.inc E.BENCH_RESETS 0
        let m := if s.m.life.trialUp.isSome then m.trialReturn else m.benchRestart
        completesWith .benchWatchdog s
          (if 3 ≤ l.length ∧ 3 ≤ m.rd E.MODULE_STATE then { m with life.expiries := [] }.warmRestart 2 else m))) ∧
  (∀ (s : State),
      (∀ path data, s.mayWrite path (E.CAL_CMD.at 0).1 (E.CAL_CMD.at 0).2 (leNat (data.take 8)) = true →
        writtenInt E.CAL_CMD.ty data = 1 →
        completesWith (.calCmd path data) s (s.m.wide path (E.CAL_CMD.at 0).1 (E.CAL_CMD.at 0).2 data fun m =>
          ({ m with almanac.cal := (m.rd E.CAL_ERA, m.rd E.CAL_TW64, m.rd E.CAL_TAI, m.rd E.CAL_UTC) }.inc E.ALMANAC_GEN 0).record 8
            [m.rd E.CAL_ERA, m.rd E.CAL_TW64, m.rd E.CAL_TAI, m.rd E.CAL_UTC])) ∧
      (∀ temps, temps.length = 57 → s.m.rd E.MODULE_STATE ≠ 0 → completesWith (.almanacSample temps) s (s.m.sampleAll temps)) ∧
      (s.m.rd E.MODULE_STATE ≠ 0 → completesWith .almanacHour s s.m.hourly ∧ s.m.hourly.almanac.hour = []) ∧
      (∀ stack channel, stack < 8 → channel < 16 → s.m.rd E.ISLAND_STATE (0x28 + stack) ≠ 0 →
        let b := s.m.rdB E.HBM_CE stack
        let n := leAt b (8 * channel) 8 + 1
        let hours := s.m.almanac.ce.get [] stack
        let m := { s.m with almanac.ce := SMap.put stack ((hours.headD 0 + 1) :: hours.drop 1) s.m.almanac.ce }.wrB E.HBM_CE stack
          (putBytes b (8 * channel) (leBytes 8 n))
        let m := m.advise (0x36 + stack)
        completesWith (.hbmCorrectedError stack channel) s (if n % 100 = 0 then m.record 3 (m.errorCounts stack) else m)))

/-- Firmware: sizes, data, FW_CMD, trials and the fuse (R478 to R481). The corner cases of log entry 36 are the model's reading. -/
def Obligations.FirmwareCommands : Prop :=
  ∀ (s : State),
    (∀ path data, s.mayWrite path (E.FW_SIZE.at 0).1 (E.FW_SIZE.at 0).2 (leNat (data.take 8)) = true → s.m.blocked E.FW_SIZE 0 = false →
      completesWith (.fwSize path data) s (s.m.wide path (E.FW_SIZE.at 0).1 (E.FW_SIZE.at 0).2 data fun m =>
        (m.putEntry path E.FW_SIZE 0 data).fwErase)) ∧
    (∀ path data, s.mayWrite path 0x7040 0x06 (leNat (data.take 8)) = true → s.m.rd E.FW_STATE % 4 = 1 → data.length ≤ 4096 →
      completesWith (.fwData path data) s (s.m.wide path 0x7040 0x06 data fun m => m.fwStore data)) ∧
    (∀ path, s.mayWrite path 0x7040 0x07 1 = true →
      completesWith (.fwCmdVerify path) s (s.m.wide path 0x7040 0x07 [1] Mach.fwVerify)) ∧
    (∀ path, s.mayWrite path 0x7040 0x07 2 = true → s.m.rd E.FW_STATE % 4 = 2 →
      completesWith (.fwCmdActivate path) s
        (s.m.wide path 0x7040 0x07 [2] fun m => { m with life.activate := true }.record 7 [2])) ∧
    (∀ path, s.mayWrite path 0x7040 0x07 3 = true →
      completesWith (.fwCmdRestart path) s (s.m.wide path 0x7040 0x07 [3] Mach.fwRestart)) ∧
    (∀ path, s.mayWrite path 0x7040 0x07 4 = true → s.m.rd E.FW_STATE % 4 ≠ 0 →
      completesWith (.fwCmdAbandon path) s (s.m.wide path 0x7040 0x07 [4] Mach.fwAbandon)) ∧
    (∀ t, s.m.life.trial = some t → t + 120 * 10 ^ 9 ≤ s.m.ns → s.m.life.trialUp = none →
      completesWith .trialDeadline s s.m.trialReturn) ∧
    (∀ t, s.m.life.trial.isSome = true → s.m.life.trialUp = some t → t + 600 * 10 ^ 9 ≤ s.m.ns →
      let m := { s.m with life.trial := none, life.trialUp := none }.peak E.SEC_MIN 0 (s.m.bank (s.m.rd E.FW_ACTIVE)).sec
      completesWith .trialEnd s ((m.fwFlag 3 false).record 7 [7])) ∧
    (∀ path data, (path = 0 ∨ path = 3) → s.m.serves path = true → s.m.permitted path 0x7050 0x01 0 = true →
      writtenInt E.FUSE_CMD.ty data = fuseFirst →
      completesWith (.fuseCmd path data) s { s.m with life.fuse := some (path, s.m.ns) }) ∧
    (∀ path data t, (path = 0 ∨ path = 3) → s.m.serves path = true → s.m.permitted path 0x7050 0x01 0 = true →
      writtenInt E.FUSE_CMD.ty data = fuseSecond → s.m.life.fuse = some (path, t) → s.m.ns ≤ t + 10 ^ 9 →
      completesWith (.fuseCmd path data) s { s.m with life.fuse := none, life.blowing := true }) ∧
    (s.m.life.blowing = true →
      completesWith .fuseBlown s (({ s.m with life.blowing := false }.wr E.FUSE_STATE 0 1).record 7 [6]))

/-! ### Rules stated whole -/

/-- R338: CH_CLASS, RING_DIR, CH_ADDR, RING_ORDER, SLOT_BYTES, SHUFFLE_MODE and SHUFFLE_MAP of a channel take effect only while the channel
is IDLE. A write in any other state has no effect and the clamp tally counts it; in IDLE the value is put in force. -/
def Obligations.ChannelEntriesOnlyWhileIdle : Prop :=
  ∀ (s : State) (path c : Nat) (e : Entry) (data : Bytes), path < 5 → c < 128 → s.m.serves path = true →
    e ∈ [E.CH_CLASS, E.RING_DIR, E.CH_ADDR, E.RING_ORDER, E.SLOT_BYTES, E.SHUFFLE_MODE, E.SHUFFLE_MAP] →
    ((s.m.chan c).state ≠ 0 →
      completesWith (.dictWrite path (0x5800 + c) e.sub data) s (s.m.tally path (0x5800 + c) e.sub 8 data)) ∧
    ((s.m.chan c).state = 0 → s.m.permitted path (0x5800 + c) e.sub (leNat (data.take 8)) = true →
      completesWith (.dictWrite path (0x5800 + c) e.sub data) s
        (s.m.wide path (0x5800 + c) e.sub data fun m => m.putEntry path e c data))

/-- R384: an EXPORT task sends an EVENT frame; the receiver publishes it as producer kind 9 on the channel in ARG_A, with the sender's address,
stamp and data and one generation more, where FAB_EVENT_ACCEPT accepts that channel, and otherwise discards and counts it. -/
def Obligations.ImportedEvents : Prop :=
  ∀ (m : Mach),
    (∀ t e p, m.rd E.TASK_KIND t = 5 → m.route (m.rd E.TASK_PARAM t % 4096) = some p →
      m.act t e = (m.sendTo (m.rd E.TASK_PARAM t % 4096) 1 0x20 (m.rd E.TASK_PARAM t / 2 ^ 16 % 256) 0 e.record).2) ∧
    (∀ f : FabMsg, 16 ≤ f.payload.length → bitOf (leNat (m.rdB E.FAB_EVENT_ACCEPT)) (f.argA % 256) = true →
      m.onEvent f = m.publish { ch := f.argA % 256, gen := bitsOf (leAt f.payload 0 4) 10 8 + 1, src := 0x9000 + f.src % 4096, data := leAt f.payload 4 4, stamp := BitVec.ofNat 64 (leAt f.payload 8 8) }) ∧
    (∀ f : FabMsg, 16 ≤ f.payload.length → bitOf (leNat (m.rdB E.FAB_EVENT_ACCEPT)) (f.argA % 256) = false →
      m.onEvent f = m.inc E.IMPORTS_REFUSED 0)

/-- R454: the regions of the target's 256-byte pointer space. The health summary is read-only, the gateway's data can be read and written,
and reserved bytes read 0 and ignore writes. -/
def Obligations.PointerRegions : Prop :=
  ∀ (s : State) (p : Nat) (b : Byte), p < 256 →
    (p < 0x40 → s.m.pointerByte p = s.m.twi.snapshot.getD p 0 ∧ s.pointerStore p b = s) ∧
    ((0x60 ≤ p ∧ p < 0x80) ∨ 0xA0 ≤ p → s.m.pointerByte p = 0 ∧ s.pointerStore p b = s) ∧
    (0x80 ≤ p → p < 0xA0 →
      s.m.pointerByte p = s.m.gw.data.getD (p - 0x80) 0 ∧ (s.pointerStore p b).m.pointerByte p = b ∧
      ∀ q, q < 256 → q ≠ p → (s.pointerStore p b).m.pointerByte q = s.m.pointerByte q) ∧
    (0x40 ≤ p → p < 0x60 → s.m.pointerByte p = s.m.gw.control.getD (p - 0x40) 0)

/-- R171: the planer subtracts the site's black level and rescales the remainder, rounded and clamped. -/
def Obligations.BlackLevel : Prop :=
  ∀ (c : Ctx) (x y : Int),
    let row := c.row (c.rowSrc y)
    let site := c.prof.site x y
    let d : Int := (c.prof.unpack c.bits (row.px.getD (c.colSrc x) 0) : Nat) - (row.set.bl.getD site 0 : Nat)
    let n := Int.fdiv (d * (row.set.bn.getD site 0 : Nat) + 8192) 16384
    (c.normal x y).1 = (if n < -8192 then -8192 else if 65535 < n then 65535 else n)

/-- R196: the identity matrix of a new profile. With the defaults, channel o carries band o, and 0 where there is no such band. -/
def Obligations.DefaultMatrixIsIdentity : Prop :=
  (∀ o i, o < 8 → i < 8 → (readParams frameDefault).mx.getD (8 * o + i) 0 = if o = i then 4096 else 0) ∧
  (∀ o, o < 8 → (readParams frameDefault).mo.getD o 0 = 0) ∧
  (∀ k, k < 64 → State.reset.m.rdB E.FRAME_DEFAULTS k = frameDefault) ∧
  (∀ (n : Nat) (bands : List Nat), n ≤ 8 → bands.length ≤ 8 → (∀ v ∈ bands, v < 65536) →
    (matrixPixel (readParams frameDefault) n bands) = ((List.range n).map fun o => bands.getD o 0, 0))

/-- R209: how stage 10 reduces a value of 16 bits. -/
def Obligations.NarrowSamples : Prop :=
  ∀ v, v < 65536 →
    narrow8 v = (if 65408 ≤ v then 255 else (v + 128) >>> 8) ∧ narrow12 v = (if 65528 ≤ v then 4095 else (v + 8) >>> 4) ∧
    narrow8 v < 256 ∧ narrow12 v < 4096

/-! ### Frames -/

/-- What commands of every family leave alone. Where one of these answers a next state, that state is the one before but for the records
named here, and every entry not named here reads as before; the queue, HBM and all other records are unchanged. A write of a plain
entry changes that entry, what the tally tells of the write (R428) and the mark that the store is to be written (R431). -/
def Obligations.CommandFrames : Prop :=
  ∀ (s t : State),
    -- The reference, quads and lanes (R24, R25, R44, R47, R55, R58, R61).
    (∀ c, c ∈ [Instr.refSwitchover, .refHoldover, .refValidReturn true true, .refValidReturn true false, .refValidReturn false true,
        .refValidReturn false false] → exec c s = .next t →
      t = { s with m := { s.m with dict := t.m.dict } } ∧
      s.m.entriesKept t.m [(E.REF_VALID, 0), (E.REF_SELECTED, 0), (E.REF_SWITCHES, 0), (E.REF_HOLDOVER, 0)]) ∧
    (∀ q, exec (.quadPllLock q) s = .next t →
      t = { s with m := { s.m with quads := t.m.quads, lanes := t.m.lanes, txLanes := t.m.txLanes, txPorts := t.m.txPorts, free := t.m.free } }) ∧
    (∀ l, (exec (.searchPassWait l) s = .next t ∨ exec (.eyeMeasure l) s = .next t) →
      t = { s with m := { s.m with lanes := t.m.lanes } }) ∧
    (∀ l levels, exec (.codewordReceive l levels) s = .next t →
      t = { s with m := { s.m with lanes := t.m.lanes, txLanes := t.m.txLanes, out := t.m.out, dict := t.m.dict } } ∧
      s.m.entriesKept t.m [(E.CW_CORRECTED, l), (E.SYM_CORRECTED, l), (E.CW_UNCORRECTABLE, l)]) ∧
    (∀ l up mid low width, exec (.eyeMeasureDone l up mid low width) s = .next t →
      t = { s with m := { s.m with lanes := t.m.lanes, almanac := t.m.almanac, dict := t.m.dict } } ∧
      s.m.entriesKept t.m [(E.EYE_LAST, l), (E.LOG_USED, 0), (E.PART_ADVICE, l / 4)]) ∧
    (∀ l, exec (.loopFifoRecentre l) s = .next t →
      t = { s with m := { s.m with lanes := t.m.lanes, free := t.m.free, dict := t.m.dict } } ∧ s.m.entriesKept t.m [(E.LOCK_LOSSES, l)]) ∧
    -- Camera ports and streams (R92, R95, R104, R407, R248).
    (∀ p bid, exec (.beaconAckTimeout p bid) s = .next t →
      t = { s with m := { s.m with ports := t.m.ports, dict := t.m.dict } } ∧ s.m.entriesKept t.m [(E.BEACON_MISSES, p)]) ∧
    (∀ p tid, exec (.triggerAckTimeout p tid) s = .next t →
      t = { s with m := { s.m with ports := t.m.ports, held := t.m.held, dict := t.m.dict } } ∧
      s.m.entriesKept t.m ((E.TRIG_RESENDS, p) :: (List.range 32).map fun k => (E.TRIG_LOST, k))) ∧
    (∀ k, exec (.streamAbsent k) s = .next t →
      t = { s with m := { s.m with streams := t.m.streams, dict := t.m.dict } } ∧ s.m.entriesKept t.m [(E.POLICE_STATE, k)]) ∧
    (∀ k f l, exec (.posStampTimeout k f l) s = .next t → t = { s with m := { s.m with streams := t.m.streams } }) ∧
    (∀ k f l, exec (.digestWaitTimeout k f l) s = .next t →
      t = { s with m := { s.m with streams := t.m.streams, dict := t.m.dict } } ∧ s.m.entriesKept t.m [(E.NOT_COMPARED, 0)]) ∧
    -- Planers, position channels and pins (R144, R244, R245, R249, R311, R466, R501).
    (∀ n, (exec (.replayWindow n) s = .next t ∨ exec (.replaySliceEnd n) s = .next t) →
      t = { s with m := { s.m with planers := t.m.planers, dict := t.m.dict } } ∧
      s.m.entriesKept t.m [(E.PLANER_STATE, n), (E.SLICES_TAKEN, n)]) ∧
    (∀ n, exec (.planerClockGate n) s = .next t → t = { s with m := { s.m with planers := t.m.planers } }) ∧
    (∀ n u, exec (.ssiPoll n u) s = .next t →
      t = { s with m := { s.m with pos := t.m.pos, out := t.m.out, dict := t.m.dict } } ∧
      s.m.entriesKept t.m [(E.POS_STATUS, n), (E.SSI_ERRORS, n)]) ∧
    (∀ n, (exec (.ssiLost n) s = .next t ∨ exec (.gateEnd n) s = .next t ∨ exec (.standstill n) s = .next t) →
      t = { s with m := { s.m with pos := t.m.pos, dict := t.m.dict } } ∧ s.m.entriesKept t.m [(E.POS_STATUS, n), (E.SPEED, n)]) ∧
    (∀ i, exec (.pinGenWindowEnd i) s = .next t → t = { s with m := { s.m with pins := t.m.pins } }) ∧
    -- Time and the host link (R297, R298, R320, R322 to R325).
    (∀ c, c ∈ [Instr.ppsOutRise, .ppsOutFall, .ptmDialog] → exec c s = .next t →
      t = { s with m := { s.m with time := t.m.time, out := t.m.out } }) ∧
    (∀ v e f k a n w c, (exec (.intCause v) s = .next t ∨ exec .tw64Lo s = .next t ∨ exec (.headLo k) s = .next t ∨
        exec (.apertureHi v) s = .next t ∨ exec (.apertureRead a n) s = .next t ∨ exec (.apertureWrite w a n) s = .next t ∨
        exec (.bar0InvalidAccess c w a n) s = .next t ∨ exec (.msixEnableWrite e f) s = .next t ∨ exec (.msixPendingSend v) s = .next t) →
      t = { s with m := { s.m with ep := t.m.ep, out := t.m.out } }) ∧
    -- The fabric (R377, R380).
    (∀ p, exec (.creditSend p) s = .next t → t = { s with m := { s.m with fports := t.m.fports, fseq := t.m.fseq } }) ∧
    (∀ p f n, exec (.holdExpiry p f n) s = .next t →
      t = { s with m := { s.m with holds := t.m.holds, fwds := t.m.fwds, dict := t.m.dict } } ∧
      s.m.entriesKept t.m (((List.range 96).map fun q => (E.TC2_RESERVED, q)) ++
        ((List.range 96).map fun q => (E.PORT_STATE, q)) ++
        s.m.fwds.flatMap fun x => [(E.FWD_STATE, x.1), (E.FWD_FLOW, x.1), (E.PORT_STATE, x.2.port)])) ∧
    -- CAN FD and the two-wire buses (R442, R443, R449 to R452, R459 to R461).
    (∀ n, (exec (.nmtStart n) s = .next t ∨ exec (.nmtStop n) s = .next t ∨ exec (.nmtEnterPreoperational n) s = .next t) →
      t = { s with m := { s.m with dict := t.m.dict } } ∧ s.m.entriesKept t.m [(E.NMT_STATE, 0)]) ∧
    (∀ b, (exec .canBusOff s = .next t ∨ exec .canBusOffRecovery s = .next t ∨ exec (.canErrorPassive b) s = .next t) →
      t = { s with m := { s.m with dict := t.m.dict } } ∧ s.m.entriesKept t.m [(E.CAN_STATE, 0), (E.CAN_BUS_OFFS, 0)]) ∧
    (exec .heartbeat s = .next t → t = { s with m := { s.m with out := t.m.out } }) ∧
    (exec .emergency s = .next t → t = { s with m := { s.m with can := t.m.can, out := t.m.out } }) ∧
    (∀ a r b, (exec (.twiAddress a r) s = .next t ∨ exec (.twiReadByte b) s = .next t ∨ exec (.twiStartAbort b) s = .next t ∨
        exec (.twiLineTimeout b) s = .next t ∨ exec .twiWake s = .next t ∨ exec .twiWakeTimeout s = .next t) →
      t = { s with m := { s.m with twi := t.m.twi, out := t.m.out, dict := t.m.dict } } ∧
      s.m.entriesKept t.m [(E.TWI_TRANSFERS, 0), (E.TWI_POINTER, 0), (E.ACK_ABORTS, 0), (E.SDA_TIMEOUTS, 0), (E.SCL_TIMEOUTS, 0),
        (E.TWI_FLAGS, 0), (E.WAKES, 0), (E.WAKE_FAILS, 0), (E.WAKE_STRETCH_MAX, 0)]) ∧
    (∀ b, (exec (.twcArbLoss b) s = .next t ∨ exec .twcNack s = .next t) →
      t = { s with m := { s.m with twc := t.m.twc, out := t.m.out, dict := t.m.dict } } ∧
      s.m.entriesKept t.m [(E.TWC_FLAGS, 0), (E.ARB_LOSSES, 0), (E.TWC_NACKS, 0)]) ∧
    (exec .healthSummaryRefresh s = .next t → t = { s with m := { s.m with twi := t.m.twi } }) ∧
    -- The module's life (R431, R471, R483, R487, R496).
    (∀ b, (exec .supplyInRange s = .next t ∨ exec (.junctionOperatingLimit b) s = .next t ∨ exec .benchIdleStop s = .next t) →
      t = { s with m := { s.m with life := t.m.life } }) ∧
    (exec .storeWrite s = .next t →
      t = { s with m := { s.m with life := t.m.life, dict := t.m.dict } } ∧
      s.m.entriesKept t.m [(E.STORE_GEN, 0), (E.STORE_WRITES, 0), (E.STORE_PENDING, 0)]) ∧
    (exec .fuseBlown s = .next t →
      t = { s with m := { s.m with life := t.m.life, almanac := t.m.almanac, dict := t.m.dict } } ∧
      s.m.entriesKept t.m [(E.FUSE_STATE, 0), (E.LOG_USED, 0)]) ∧
    (∀ i c, exec (.hbmCorrectedError i c) s = .next t →
      t = { s with m := { s.m with almanac := t.m.almanac, dict := t.m.dict } } ∧ s.m.entriesKept t.m
      [(E.HBM_CE, i), (E.LOG_USED, 0), (E.PART_ADVICE, 0x36 + i)]) ∧
    -- A write of a plain entry (R426 to R428, R431).
    (∀ path e k data, path < 5 → findEntry (e.at k).1 (e.at k).2 = some (e, k) →
      e ∈ [E.HEARTBEAT_TIME, E.REG_ADDR, E.AMP_DWELL, E.MG_PITCH, E.UPDATE_PERIOD, E.MAX_ON, E.LOCK_LIMIT, E.SENSOR_ADDR] →
      (pairWide (e.at k).1 (e.at k).2 = false ∨ s.m.xlinkUp = false ∨ path = 4) →
      exec (.dictWrite path (e.at k).1 (e.at k).2 data) s = .next t →
      t = { s with m := { s.m with dict := t.m.dict } } ∧
      s.m.entriesKept t.m [(e, k), (E.CLAMP_TALLY, 0), (E.LAST_CLAMPED, 0), (E.LAST_CLAMP_KIND, 0), (E.LAST_CLAMP_TIME, 0),
        (E.LAST_WRITTEN, 0), (E.TALLY_BY_PATH, 0), (E.STORE_PENDING, 0), (E.CONFIG_EPOCH, 0)])
end

