-- ==== Sys2Proof/Laws/Memory.lean ====
section
/-! SUPPORT. Laws of HBM: a byte reads as last written, other bytes keep, and every operation keeps the canonical form. -/

namespace Sys2Proof.Machine

/-- A canonical form from `lo` on is one from any lower address on. -/
theorem Memory.wfFrom_mono {lo lo' : Nat} (h : lo' ≤ lo) {m : Memory} (w : Memory.wfFrom lo m = true) :
    Memory.wfFrom lo' m = true := by
  cases m with
  | nil => rfl
  | cons c t =>
    simp only [Memory.wfFrom, Bool.and_eq_true, decide_eq_true_eq] at w ⊢
    exact ⟨⟨Nat.le_trans h w.1.1, w.1.2⟩, w.2⟩

/-- No byte below the first listed address is listed. -/
theorem Memory.read_below {lo a : Nat} (h : a < lo) {m : Memory} (w : Memory.wfFrom lo m = true) :
    Memory.read m a = Memory.blank := by
  induction m generalizing lo with
  | nil => rfl
  | cons c t ih =>
    simp only [Memory.wfFrom, Bool.and_eq_true, decide_eq_true_eq] at w
    have hc : a ≠ c.1 := by omega
    simp only [Memory.read, if_neg hc]
    exact ih (by omega) w.2

/-- A write at or above `lo` keeps the canonical form from `lo` on. -/
theorem Memory.wfFrom_write {lo a : Nat} (b : Byte) (h : lo ≤ a) {m : Memory} (w : Memory.wfFrom lo m = true) :
    Memory.wfFrom lo (Memory.write m a b) = true := by
  induction m generalizing lo with
  | nil => unfold Memory.write; split <;> simp_all [Memory.wfFrom]
  | cons c t ih =>
    simp only [Memory.wfFrom, Bool.and_eq_true, decide_eq_true_eq] at w
    unfold Memory.write
    split
    · next ha =>
      split
      · simp [Memory.wfFrom, w]
      · next hb =>
        simp only [Memory.wfFrom, Bool.and_eq_true, decide_eq_true_eq]
        exact ⟨⟨h, hb⟩, ⟨by omega, w.1.2⟩, w.2⟩
    · split
      · next hk =>
        split
        · exact Memory.wfFrom_mono (by omega) w.2
        · next hb =>
          simp only [Memory.wfFrom, Bool.and_eq_true, decide_eq_true_eq]
          exact ⟨⟨w.1.1, hb⟩, w.2⟩
      · simp only [Memory.wfFrom, Bool.and_eq_true, decide_eq_true_eq]
        exact ⟨w.1, ih (by omega) w.2⟩

theorem Memory.wf_write {m : Memory} (w : m.wf = true) (a : Nat) (b : Byte) : (m.write a b).wf = true :=
  Memory.wfFrom_write b (Nat.zero_le a) w

theorem Memory.wf_writeBytes {m : Memory} (w : m.wf = true) (a : Nat) (b : Bytes) : (m.writeBytes a b).wf = true := by
  induction b generalizing m a with
  | nil => exact w
  | cons x t ih => exact ih (Memory.wf_write w a x) (a + 1)

theorem Memory.wfFrom_filter {lo : Nat} {m : Memory} (p : Host.Cell → Bool) (w : Memory.wfFrom lo m = true) :
    Memory.wfFrom lo (m.filter p) = true := by
  induction m generalizing lo with
  | nil => rfl
  | cons c t ih =>
    simp only [Memory.wfFrom, Bool.and_eq_true, decide_eq_true_eq] at w
    rw [List.filter_cons]
    split
    · simp only [Memory.wfFrom, Bool.and_eq_true, decide_eq_true_eq]
      exact ⟨w.1, ih w.2⟩
    · exact Memory.wfFrom_mono (by omega) (ih w.2)

theorem Memory.wf_clear {m : Memory} (w : m.wf = true) (lo hi : Nat) : (m.clear lo hi).wf = true :=
  Memory.wfFrom_filter _ w

/-- A byte reads as written. -/
theorem Memory.read_write_same {m : Memory} (w : m.wf = true) (a : Nat) (b : Byte) : (m.write a b).read a = b := by
  suffices h : ∀ lo, Memory.wfFrom lo m = true → (m.write a b).read a = b from h 0 w
  clear w
  induction m with
  | nil => intro lo _; unfold Memory.write; split <;> simp_all [Memory.read]
  | cons c t ih =>
    intro lo w
    simp only [Memory.wfFrom, Bool.and_eq_true, decide_eq_true_eq] at w
    unfold Memory.write
    split
    · next ha =>
      split
      · next hb =>
        have hc : a ≠ c.1 := by omega
        simp only [Memory.read, if_neg hc]
        rw [hb]
        exact Memory.read_below (by omega) w.2
      · simp [Memory.read]
    · split
      · next hk =>
        split
        · next hb => rw [hb]; exact Memory.read_below (by omega) w.2
        · simp [Memory.read, hk]
      · next hk => simp only [Memory.read, if_neg hk]; exact ih (c.1 + 1) w.2

/-- A write leaves every other byte. -/
theorem Memory.read_write_other (m : Memory) {a x : Nat} (h : x ≠ a) (b : Byte) : (m.write a b).read x = m.read x := by
  induction m with
  | nil => unfold Memory.write; split <;> simp [Memory.read, h]
  | cons c t ih =>
    unfold Memory.write
    split
    · split <;> simp [Memory.read, h]
    · split
      · next hk => split <;> simp [Memory.read, ← hk, h]
      · simp only [Memory.read, ih]

end Sys2Proof.Machine
end

