-- ==== Sys2Proof/Laws/Table.lean ====
section
/-! SUPPORT. Laws of the sparse tables: what a key reads as after another write. -/

namespace Sys2Proof

theorem SMap.get_put_same {α : Type} (d v : α) (k : Nat) (m : SMap α) : SMap.get d (SMap.put k v m) k = v := by
  induction m with
  | nil => simp [SMap.put, SMap.get]
  | cons c t ih =>
    unfold SMap.put
    split
    · simp [SMap.get]
    · split
      · simp [SMap.get]
      · simp [SMap.get, *]

theorem SMap.get_put_other {α : Type} (d v : α) {k j : Nat} (h : j ≠ k) (m : SMap α) :
    SMap.get d (SMap.put k v m) j = SMap.get d m j := by
  induction m with
  | nil => simp [SMap.put, SMap.get, h]
  | cons c t ih =>
    unfold SMap.put
    split
    · simp [SMap.get, h]
    · split
      · next hk => subst hk; simp [SMap.get, h]
      · simp [SMap.get, ih]

theorem SMap.get_del_same {α : Type} (d : α) (k : Nat) (m : SMap α) : SMap.get d (SMap.del k m) k = d := by
  induction m with
  | nil => rfl
  | cons c t ih =>
    unfold SMap.del
    split
    · exact ih
    · simp [SMap.get, *]

theorem SMap.get_del_other {α : Type} (d : α) {k j : Nat} (h : j ≠ k) (m : SMap α) :
    SMap.get d (SMap.del k m) j = SMap.get d m j := by
  induction m with
  | nil => rfl
  | cons c t ih =>
    unfold SMap.del
    split
    · next hk => subst hk; simp [SMap.get, h, ih]
    · simp [SMap.get, ih]

@[simp] theorem SMap.get_set_same {α : Type} [DecidableEq α] (d v : α) (k : Nat) (m : SMap α) :
    SMap.get d (SMap.set d m k v) k = v := by
  unfold SMap.set
  split
  · next h => rw [SMap.get_del_same, h]
  · exact SMap.get_put_same d v k m

theorem SMap.get_set_other {α : Type} [DecidableEq α] (d' d v : α) {k j : Nat} (h : j ≠ k) (m : SMap α) :
    SMap.get d' (SMap.set d m k v) j = SMap.get d' m j := by
  unfold SMap.set
  split
  · exact SMap.get_del_other d' h m
  · exact SMap.get_put_other d' v h m

end Sys2Proof
end

