-- ==== Sys2Proof/Laws/State.lean ====
section
/-! SUPPORT. One law per field per update of the state: what an update sets reads as set, and every other field stays. -/

namespace Sys2Proof.Machine

/-! ### The queue -/

@[simp] theorem State.withPending_pending (s : State) (q : List Instr) : (s.withPending q).pending = q := rfl
@[simp] theorem State.withPending_hbm (s : State) (q : List Instr) : (s.withPending q).hbm = s.hbm := rfl
@[simp] theorem State.withPending_m (s : State) (q : List Instr) : (s.withPending q).m = s.m := rfl
@[simp] theorem State.withPending_twice (s : State) (q r : List Instr) : (s.withPending q).withPending r = s.withPending r := rfl
@[simp] theorem State.withPending_self (s : State) : s.withPending s.pending = s := rfl

/-! ### Every other field stays -/

@[simp] theorem Mach.setVal_keeps (m : Mach) (e : Entry) (k : Nat) (v : Val) :
    (m.setVal e k v).ltc = m.ltc ∧ (m.setVal e k v).free = m.free ∧
    (m.setVal e k v).slotId = m.slotId ∧ (m.setVal e k v).out = m.out ∧
    (m.setVal e k v).lanes = m.lanes ∧ (m.setVal e k v).quads = m.quads ∧
    (m.setVal e k v).txLanes = m.txLanes ∧ (m.setVal e k v).txPorts = m.txPorts ∧
    (m.setVal e k v).ports = m.ports ∧ (m.setVal e k v).streams = m.streams ∧
    (m.setVal e k v).verdicts = m.verdicts ∧ (m.setVal e k v).verdictNo = m.verdictNo ∧
    (m.setVal e k v).deferred = m.deferred ∧ (m.setVal e k v).admits = m.admits ∧
    (m.setVal e k v).planers = m.planers ∧ (m.setVal e k v).tabs = m.tabs ∧
    (m.setVal e k v).ep = m.ep ∧ (m.setVal e k v).chans = m.chans ∧
    (m.setVal e k v).engine = m.engine ∧ (m.setVal e k v).fports = m.fports ∧
    (m.setVal e k v).fabMap = m.fabMap ∧ (m.setVal e k v).fwds = m.fwds ∧
    (m.setVal e k v).holds = m.holds ∧ (m.setVal e k v).fseq = m.fseq ∧
    (m.setVal e k v).flowSeq = m.flowSeq ∧ (m.setVal e k v).hub = m.hub ∧
    (m.setVal e k v).tasks = m.tasks ∧ (m.setVal e k v).pins = m.pins ∧
    (m.setVal e k v).pair = m.pair ∧ (m.setVal e k v).pos = m.pos ∧
    (m.setVal e k v).readPairs = m.readPairs ∧ (m.setVal e k v).mgs = m.mgs ∧
    (m.setVal e k v).held = m.held ∧ (m.setVal e k v).mallet = m.mallet ∧
    (m.setVal e k v).vports = m.vports ∧ (m.setVal e k v).time = m.time ∧
    (m.setVal e k v).mb = m.mb ∧ (m.setVal e k v).gw = m.gw ∧
    (m.setVal e k v).server = m.server ∧ (m.setVal e k v).can = m.can ∧
    (m.setVal e k v).twi = m.twi ∧ (m.setVal e k v).twc = m.twc ∧
    (m.setVal e k v).tree = m.tree ∧ (m.setVal e k v).life = m.life ∧
    (m.setVal e k v).almanac = m.almanac ∧ (m.setVal e k v).drainTo = m.drainTo ∧
    (m.setVal e k v).fail2 = m.fail2 ∧ (m.setVal e k v).fail8 = m.fail8 := by
  refine ⟨rfl, rfl, rfl, rfl, rfl, rfl, rfl, rfl, rfl, rfl, rfl, rfl, rfl, rfl, rfl, rfl, rfl, rfl, rfl, rfl, rfl, rfl, rfl, rfl, rfl, rfl, rfl, rfl, rfl, rfl, rfl, rfl, rfl, rfl, rfl, rfl, rfl, rfl, rfl, rfl, rfl, rfl, rfl, rfl, rfl, rfl, rfl, rfl⟩

@[simp] theorem Mach.wr_keeps (m : Mach) (e : Entry) (k n : Nat) :
    (m.wr e k n).ltc = m.ltc ∧ (m.wr e k n).free = m.free ∧
    (m.wr e k n).slotId = m.slotId ∧ (m.wr e k n).out = m.out ∧
    (m.wr e k n).lanes = m.lanes ∧ (m.wr e k n).quads = m.quads ∧
    (m.wr e k n).txLanes = m.txLanes ∧ (m.wr e k n).txPorts = m.txPorts ∧
    (m.wr e k n).ports = m.ports ∧ (m.wr e k n).streams = m.streams ∧
    (m.wr e k n).verdicts = m.verdicts ∧ (m.wr e k n).verdictNo = m.verdictNo ∧
    (m.wr e k n).deferred = m.deferred ∧ (m.wr e k n).admits = m.admits ∧
    (m.wr e k n).planers = m.planers ∧ (m.wr e k n).tabs = m.tabs ∧
    (m.wr e k n).ep = m.ep ∧ (m.wr e k n).chans = m.chans ∧
    (m.wr e k n).engine = m.engine ∧ (m.wr e k n).fports = m.fports ∧
    (m.wr e k n).fabMap = m.fabMap ∧ (m.wr e k n).fwds = m.fwds ∧
    (m.wr e k n).holds = m.holds ∧ (m.wr e k n).fseq = m.fseq ∧
    (m.wr e k n).flowSeq = m.flowSeq ∧ (m.wr e k n).hub = m.hub ∧
    (m.wr e k n).tasks = m.tasks ∧ (m.wr e k n).pins = m.pins ∧
    (m.wr e k n).pair = m.pair ∧ (m.wr e k n).pos = m.pos ∧
    (m.wr e k n).readPairs = m.readPairs ∧ (m.wr e k n).mgs = m.mgs ∧
    (m.wr e k n).held = m.held ∧ (m.wr e k n).mallet = m.mallet ∧
    (m.wr e k n).vports = m.vports ∧ (m.wr e k n).time = m.time ∧
    (m.wr e k n).mb = m.mb ∧ (m.wr e k n).gw = m.gw ∧
    (m.wr e k n).server = m.server ∧ (m.wr e k n).can = m.can ∧
    (m.wr e k n).twi = m.twi ∧ (m.wr e k n).twc = m.twc ∧
    (m.wr e k n).tree = m.tree ∧ (m.wr e k n).life = m.life ∧
    (m.wr e k n).almanac = m.almanac ∧ (m.wr e k n).drainTo = m.drainTo ∧
    (m.wr e k n).fail2 = m.fail2 ∧ (m.wr e k n).fail8 = m.fail8 := by
  refine ⟨rfl, rfl, rfl, rfl, rfl, rfl, rfl, rfl, rfl, rfl, rfl, rfl, rfl, rfl, rfl, rfl, rfl, rfl, rfl, rfl, rfl, rfl, rfl, rfl, rfl, rfl, rfl, rfl, rfl, rfl, rfl, rfl, rfl, rfl, rfl, rfl, rfl, rfl, rfl, rfl, rfl, rfl, rfl, rfl, rfl, rfl, rfl, rfl⟩

@[simp] theorem Mach.wrI_keeps (m : Mach) (e : Entry) (k : Nat) (i : Int) :
    (m.wrI e k i).ltc = m.ltc ∧ (m.wrI e k i).free = m.free ∧
    (m.wrI e k i).slotId = m.slotId ∧ (m.wrI e k i).out = m.out ∧
    (m.wrI e k i).lanes = m.lanes ∧ (m.wrI e k i).quads = m.quads ∧
    (m.wrI e k i).txLanes = m.txLanes ∧ (m.wrI e k i).txPorts = m.txPorts ∧
    (m.wrI e k i).ports = m.ports ∧ (m.wrI e k i).streams = m.streams ∧
    (m.wrI e k i).verdicts = m.verdicts ∧ (m.wrI e k i).verdictNo = m.verdictNo ∧
    (m.wrI e k i).deferred = m.deferred ∧ (m.wrI e k i).admits = m.admits ∧
    (m.wrI e k i).planers = m.planers ∧ (m.wrI e k i).tabs = m.tabs ∧
    (m.wrI e k i).ep = m.ep ∧ (m.wrI e k i).chans = m.chans ∧
    (m.wrI e k i).engine = m.engine ∧ (m.wrI e k i).fports = m.fports ∧
    (m.wrI e k i).fabMap = m.fabMap ∧ (m.wrI e k i).fwds = m.fwds ∧
    (m.wrI e k i).holds = m.holds ∧ (m.wrI e k i).fseq = m.fseq ∧
    (m.wrI e k i).flowSeq = m.flowSeq ∧ (m.wrI e k i).hub = m.hub ∧
    (m.wrI e k i).tasks = m.tasks ∧ (m.wrI e k i).pins = m.pins ∧
    (m.wrI e k i).pair = m.pair ∧ (m.wrI e k i).pos = m.pos ∧
    (m.wrI e k i).readPairs = m.readPairs ∧ (m.wrI e k i).mgs = m.mgs ∧
    (m.wrI e k i).held = m.held ∧ (m.wrI e k i).mallet = m.mallet ∧
    (m.wrI e k i).vports = m.vports ∧ (m.wrI e k i).time = m.time ∧
    (m.wrI e k i).mb = m.mb ∧ (m.wrI e k i).gw = m.gw ∧
    (m.wrI e k i).server = m.server ∧ (m.wrI e k i).can = m.can ∧
    (m.wrI e k i).twi = m.twi ∧ (m.wrI e k i).twc = m.twc ∧
    (m.wrI e k i).tree = m.tree ∧ (m.wrI e k i).life = m.life ∧
    (m.wrI e k i).almanac = m.almanac ∧ (m.wrI e k i).drainTo = m.drainTo ∧
    (m.wrI e k i).fail2 = m.fail2 ∧ (m.wrI e k i).fail8 = m.fail8 := by
  refine ⟨rfl, rfl, rfl, rfl, rfl, rfl, rfl, rfl, rfl, rfl, rfl, rfl, rfl, rfl, rfl, rfl, rfl, rfl, rfl, rfl, rfl, rfl, rfl, rfl, rfl, rfl, rfl, rfl, rfl, rfl, rfl, rfl, rfl, rfl, rfl, rfl, rfl, rfl, rfl, rfl, rfl, rfl, rfl, rfl, rfl, rfl, rfl, rfl⟩

@[simp] theorem Mach.wrB_keeps (m : Mach) (e : Entry) (k : Nat) (b : Bytes) :
    (m.wrB e k b).ltc = m.ltc ∧ (m.wrB e k b).free = m.free ∧
    (m.wrB e k b).slotId = m.slotId ∧ (m.wrB e k b).out = m.out ∧
    (m.wrB e k b).lanes = m.lanes ∧ (m.wrB e k b).quads = m.quads ∧
    (m.wrB e k b).txLanes = m.txLanes ∧ (m.wrB e k b).txPorts = m.txPorts ∧
    (m.wrB e k b).ports = m.ports ∧ (m.wrB e k b).streams = m.streams ∧
    (m.wrB e k b).verdicts = m.verdicts ∧ (m.wrB e k b).verdictNo = m.verdictNo ∧
    (m.wrB e k b).deferred = m.deferred ∧ (m.wrB e k b).admits = m.admits ∧
    (m.wrB e k b).planers = m.planers ∧ (m.wrB e k b).tabs = m.tabs ∧
    (m.wrB e k b).ep = m.ep ∧ (m.wrB e k b).chans = m.chans ∧
    (m.wrB e k b).engine = m.engine ∧ (m.wrB e k b).fports = m.fports ∧
    (m.wrB e k b).fabMap = m.fabMap ∧ (m.wrB e k b).fwds = m.fwds ∧
    (m.wrB e k b).holds = m.holds ∧ (m.wrB e k b).fseq = m.fseq ∧
    (m.wrB e k b).flowSeq = m.flowSeq ∧ (m.wrB e k b).hub = m.hub ∧
    (m.wrB e k b).tasks = m.tasks ∧ (m.wrB e k b).pins = m.pins ∧
    (m.wrB e k b).pair = m.pair ∧ (m.wrB e k b).pos = m.pos ∧
    (m.wrB e k b).readPairs = m.readPairs ∧ (m.wrB e k b).mgs = m.mgs ∧
    (m.wrB e k b).held = m.held ∧ (m.wrB e k b).mallet = m.mallet ∧
    (m.wrB e k b).vports = m.vports ∧ (m.wrB e k b).time = m.time ∧
    (m.wrB e k b).mb = m.mb ∧ (m.wrB e k b).gw = m.gw ∧
    (m.wrB e k b).server = m.server ∧ (m.wrB e k b).can = m.can ∧
    (m.wrB e k b).twi = m.twi ∧ (m.wrB e k b).twc = m.twc ∧
    (m.wrB e k b).tree = m.tree ∧ (m.wrB e k b).life = m.life ∧
    (m.wrB e k b).almanac = m.almanac ∧ (m.wrB e k b).drainTo = m.drainTo ∧
    (m.wrB e k b).fail2 = m.fail2 ∧ (m.wrB e k b).fail8 = m.fail8 := by
  refine ⟨rfl, rfl, rfl, rfl, rfl, rfl, rfl, rfl, rfl, rfl, rfl, rfl, rfl, rfl, rfl, rfl, rfl, rfl, rfl, rfl, rfl, rfl, rfl, rfl, rfl, rfl, rfl, rfl, rfl, rfl, rfl, rfl, rfl, rfl, rfl, rfl, rfl, rfl, rfl, rfl, rfl, rfl, rfl, rfl, rfl, rfl, rfl, rfl⟩

@[simp] theorem Mach.inc_keeps (m : Mach) (e : Entry) (k n : Nat) :
    (m.inc e k n).ltc = m.ltc ∧ (m.inc e k n).free = m.free ∧
    (m.inc e k n).slotId = m.slotId ∧ (m.inc e k n).out = m.out ∧
    (m.inc e k n).lanes = m.lanes ∧ (m.inc e k n).quads = m.quads ∧
    (m.inc e k n).txLanes = m.txLanes ∧ (m.inc e k n).txPorts = m.txPorts ∧
    (m.inc e k n).ports = m.ports ∧ (m.inc e k n).streams = m.streams ∧
    (m.inc e k n).verdicts = m.verdicts ∧ (m.inc e k n).verdictNo = m.verdictNo ∧
    (m.inc e k n).deferred = m.deferred ∧ (m.inc e k n).admits = m.admits ∧
    (m.inc e k n).planers = m.planers ∧ (m.inc e k n).tabs = m.tabs ∧
    (m.inc e k n).ep = m.ep ∧ (m.inc e k n).chans = m.chans ∧
    (m.inc e k n).engine = m.engine ∧ (m.inc e k n).fports = m.fports ∧
    (m.inc e k n).fabMap = m.fabMap ∧ (m.inc e k n).fwds = m.fwds ∧
    (m.inc e k n).holds = m.holds ∧ (m.inc e k n).fseq = m.fseq ∧
    (m.inc e k n).flowSeq = m.flowSeq ∧ (m.inc e k n).hub = m.hub ∧
    (m.inc e k n).tasks = m.tasks ∧ (m.inc e k n).pins = m.pins ∧
    (m.inc e k n).pair = m.pair ∧ (m.inc e k n).pos = m.pos ∧
    (m.inc e k n).readPairs = m.readPairs ∧ (m.inc e k n).mgs = m.mgs ∧
    (m.inc e k n).held = m.held ∧ (m.inc e k n).mallet = m.mallet ∧
    (m.inc e k n).vports = m.vports ∧ (m.inc e k n).time = m.time ∧
    (m.inc e k n).mb = m.mb ∧ (m.inc e k n).gw = m.gw ∧
    (m.inc e k n).server = m.server ∧ (m.inc e k n).can = m.can ∧
    (m.inc e k n).twi = m.twi ∧ (m.inc e k n).twc = m.twc ∧
    (m.inc e k n).tree = m.tree ∧ (m.inc e k n).life = m.life ∧
    (m.inc e k n).almanac = m.almanac ∧ (m.inc e k n).drainTo = m.drainTo ∧
    (m.inc e k n).fail2 = m.fail2 ∧ (m.inc e k n).fail8 = m.fail8 := by
  refine ⟨rfl, rfl, rfl, rfl, rfl, rfl, rfl, rfl, rfl, rfl, rfl, rfl, rfl, rfl, rfl, rfl, rfl, rfl, rfl, rfl, rfl, rfl, rfl, rfl, rfl, rfl, rfl, rfl, rfl, rfl, rfl, rfl, rfl, rfl, rfl, rfl, rfl, rfl, rfl, rfl, rfl, rfl, rfl, rfl, rfl, rfl, rfl, rfl⟩

@[simp] theorem Mach.toDefault_keeps (m : Mach) (e : Entry) (k : Nat) :
    (m.toDefault e k).ltc = m.ltc ∧ (m.toDefault e k).free = m.free ∧
    (m.toDefault e k).slotId = m.slotId ∧ (m.toDefault e k).out = m.out ∧
    (m.toDefault e k).lanes = m.lanes ∧ (m.toDefault e k).quads = m.quads ∧
    (m.toDefault e k).txLanes = m.txLanes ∧ (m.toDefault e k).txPorts = m.txPorts ∧
    (m.toDefault e k).ports = m.ports ∧ (m.toDefault e k).streams = m.streams ∧
    (m.toDefault e k).verdicts = m.verdicts ∧ (m.toDefault e k).verdictNo = m.verdictNo ∧
    (m.toDefault e k).deferred = m.deferred ∧ (m.toDefault e k).admits = m.admits ∧
    (m.toDefault e k).planers = m.planers ∧ (m.toDefault e k).tabs = m.tabs ∧
    (m.toDefault e k).ep = m.ep ∧ (m.toDefault e k).chans = m.chans ∧
    (m.toDefault e k).engine = m.engine ∧ (m.toDefault e k).fports = m.fports ∧
    (m.toDefault e k).fabMap = m.fabMap ∧ (m.toDefault e k).fwds = m.fwds ∧
    (m.toDefault e k).holds = m.holds ∧ (m.toDefault e k).fseq = m.fseq ∧
    (m.toDefault e k).flowSeq = m.flowSeq ∧ (m.toDefault e k).hub = m.hub ∧
    (m.toDefault e k).tasks = m.tasks ∧ (m.toDefault e k).pins = m.pins ∧
    (m.toDefault e k).pair = m.pair ∧ (m.toDefault e k).pos = m.pos ∧
    (m.toDefault e k).readPairs = m.readPairs ∧ (m.toDefault e k).mgs = m.mgs ∧
    (m.toDefault e k).held = m.held ∧ (m.toDefault e k).mallet = m.mallet ∧
    (m.toDefault e k).vports = m.vports ∧ (m.toDefault e k).time = m.time ∧
    (m.toDefault e k).mb = m.mb ∧ (m.toDefault e k).gw = m.gw ∧
    (m.toDefault e k).server = m.server ∧ (m.toDefault e k).can = m.can ∧
    (m.toDefault e k).twi = m.twi ∧ (m.toDefault e k).twc = m.twc ∧
    (m.toDefault e k).tree = m.tree ∧ (m.toDefault e k).life = m.life ∧
    (m.toDefault e k).almanac = m.almanac ∧ (m.toDefault e k).drainTo = m.drainTo ∧
    (m.toDefault e k).fail2 = m.fail2 ∧ (m.toDefault e k).fail8 = m.fail8 := by
  refine ⟨rfl, rfl, rfl, rfl, rfl, rfl, rfl, rfl, rfl, rfl, rfl, rfl, rfl, rfl, rfl, rfl, rfl, rfl, rfl, rfl, rfl, rfl, rfl, rfl, rfl, rfl, rfl, rfl, rfl, rfl, rfl, rfl, rfl, rfl, rfl, rfl, rfl, rfl, rfl, rfl, rfl, rfl, rfl, rfl, rfl, rfl, rfl, rfl⟩

@[simp] theorem Mach.emit_keeps (m : Mach) (o : Out) :
    (m.emit o).dict = m.dict ∧ (m.emit o).ltc = m.ltc ∧
    (m.emit o).free = m.free ∧ (m.emit o).slotId = m.slotId ∧
    (m.emit o).lanes = m.lanes ∧ (m.emit o).quads = m.quads ∧
    (m.emit o).txLanes = m.txLanes ∧ (m.emit o).txPorts = m.txPorts ∧
    (m.emit o).ports = m.ports ∧ (m.emit o).streams = m.streams ∧
    (m.emit o).verdicts = m.verdicts ∧ (m.emit o).verdictNo = m.verdictNo ∧
    (m.emit o).deferred = m.deferred ∧ (m.emit o).admits = m.admits ∧
    (m.emit o).planers = m.planers ∧ (m.emit o).tabs = m.tabs ∧
    (m.emit o).ep = m.ep ∧ (m.emit o).chans = m.chans ∧
    (m.emit o).engine = m.engine ∧ (m.emit o).fports = m.fports ∧
    (m.emit o).fabMap = m.fabMap ∧ (m.emit o).fwds = m.fwds ∧
    (m.emit o).holds = m.holds ∧ (m.emit o).fseq = m.fseq ∧
    (m.emit o).flowSeq = m.flowSeq ∧ (m.emit o).hub = m.hub ∧
    (m.emit o).tasks = m.tasks ∧ (m.emit o).pins = m.pins ∧
    (m.emit o).pair = m.pair ∧ (m.emit o).pos = m.pos ∧
    (m.emit o).readPairs = m.readPairs ∧ (m.emit o).mgs = m.mgs ∧
    (m.emit o).held = m.held ∧ (m.emit o).mallet = m.mallet ∧
    (m.emit o).vports = m.vports ∧ (m.emit o).time = m.time ∧
    (m.emit o).mb = m.mb ∧ (m.emit o).gw = m.gw ∧
    (m.emit o).server = m.server ∧ (m.emit o).can = m.can ∧
    (m.emit o).twi = m.twi ∧ (m.emit o).twc = m.twc ∧
    (m.emit o).tree = m.tree ∧ (m.emit o).life = m.life ∧
    (m.emit o).almanac = m.almanac ∧ (m.emit o).drainTo = m.drainTo ∧
    (m.emit o).fail2 = m.fail2 ∧ (m.emit o).fail8 = m.fail8 := by
  refine ⟨rfl, rfl, rfl, rfl, rfl, rfl, rfl, rfl, rfl, rfl, rfl, rfl, rfl, rfl, rfl, rfl, rfl, rfl, rfl, rfl, rfl, rfl, rfl, rfl, rfl, rfl, rfl, rfl, rfl, rfl, rfl, rfl, rfl, rfl, rfl, rfl, rfl, rfl, rfl, rfl, rfl, rfl, rfl, rfl, rfl, rfl, rfl, rfl⟩

@[simp] theorem Mach.setLane_keeps (m : Mach) (k : Nat) (x : Lane) :
    (m.setLane k x).dict = m.dict ∧ (m.setLane k x).ltc = m.ltc ∧
    (m.setLane k x).free = m.free ∧ (m.setLane k x).slotId = m.slotId ∧
    (m.setLane k x).out = m.out ∧ (m.setLane k x).quads = m.quads ∧
    (m.setLane k x).txLanes = m.txLanes ∧ (m.setLane k x).txPorts = m.txPorts ∧
    (m.setLane k x).ports = m.ports ∧ (m.setLane k x).streams = m.streams ∧
    (m.setLane k x).verdicts = m.verdicts ∧ (m.setLane k x).verdictNo = m.verdictNo ∧
    (m.setLane k x).deferred = m.deferred ∧ (m.setLane k x).admits = m.admits ∧
    (m.setLane k x).planers = m.planers ∧ (m.setLane k x).tabs = m.tabs ∧
    (m.setLane k x).ep = m.ep ∧ (m.setLane k x).chans = m.chans ∧
    (m.setLane k x).engine = m.engine ∧ (m.setLane k x).fports = m.fports ∧
    (m.setLane k x).fabMap = m.fabMap ∧ (m.setLane k x).fwds = m.fwds ∧
    (m.setLane k x).holds = m.holds ∧ (m.setLane k x).fseq = m.fseq ∧
    (m.setLane k x).flowSeq = m.flowSeq ∧ (m.setLane k x).hub = m.hub ∧
    (m.setLane k x).tasks = m.tasks ∧ (m.setLane k x).pins = m.pins ∧
    (m.setLane k x).pair = m.pair ∧ (m.setLane k x).pos = m.pos ∧
    (m.setLane k x).readPairs = m.readPairs ∧ (m.setLane k x).mgs = m.mgs ∧
    (m.setLane k x).held = m.held ∧ (m.setLane k x).mallet = m.mallet ∧
    (m.setLane k x).vports = m.vports ∧ (m.setLane k x).time = m.time ∧
    (m.setLane k x).mb = m.mb ∧ (m.setLane k x).gw = m.gw ∧
    (m.setLane k x).server = m.server ∧ (m.setLane k x).can = m.can ∧
    (m.setLane k x).twi = m.twi ∧ (m.setLane k x).twc = m.twc ∧
    (m.setLane k x).tree = m.tree ∧ (m.setLane k x).life = m.life ∧
    (m.setLane k x).almanac = m.almanac ∧ (m.setLane k x).drainTo = m.drainTo ∧
    (m.setLane k x).fail2 = m.fail2 ∧ (m.setLane k x).fail8 = m.fail8 := by
  refine ⟨rfl, rfl, rfl, rfl, rfl, rfl, rfl, rfl, rfl, rfl, rfl, rfl, rfl, rfl, rfl, rfl, rfl, rfl, rfl, rfl, rfl, rfl, rfl, rfl, rfl, rfl, rfl, rfl, rfl, rfl, rfl, rfl, rfl, rfl, rfl, rfl, rfl, rfl, rfl, rfl, rfl, rfl, rfl, rfl, rfl, rfl, rfl, rfl⟩

@[simp] theorem Mach.setQuad_keeps (m : Mach) (k : Nat) (x : Quad) :
    (m.setQuad k x).dict = m.dict ∧ (m.setQuad k x).ltc = m.ltc ∧
    (m.setQuad k x).free = m.free ∧ (m.setQuad k x).slotId = m.slotId ∧
    (m.setQuad k x).out = m.out ∧ (m.setQuad k x).lanes = m.lanes ∧
    (m.setQuad k x).txLanes = m.txLanes ∧ (m.setQuad k x).txPorts = m.txPorts ∧
    (m.setQuad k x).ports = m.ports ∧ (m.setQuad k x).streams = m.streams ∧
    (m.setQuad k x).verdicts = m.verdicts ∧ (m.setQuad k x).verdictNo = m.verdictNo ∧
    (m.setQuad k x).deferred = m.deferred ∧ (m.setQuad k x).admits = m.admits ∧
    (m.setQuad k x).planers = m.planers ∧ (m.setQuad k x).tabs = m.tabs ∧
    (m.setQuad k x).ep = m.ep ∧ (m.setQuad k x).chans = m.chans ∧
    (m.setQuad k x).engine = m.engine ∧ (m.setQuad k x).fports = m.fports ∧
    (m.setQuad k x).fabMap = m.fabMap ∧ (m.setQuad k x).fwds = m.fwds ∧
    (m.setQuad k x).holds = m.holds ∧ (m.setQuad k x).fseq = m.fseq ∧
    (m.setQuad k x).flowSeq = m.flowSeq ∧ (m.setQuad k x).hub = m.hub ∧
    (m.setQuad k x).tasks = m.tasks ∧ (m.setQuad k x).pins = m.pins ∧
    (m.setQuad k x).pair = m.pair ∧ (m.setQuad k x).pos = m.pos ∧
    (m.setQuad k x).readPairs = m.readPairs ∧ (m.setQuad k x).mgs = m.mgs ∧
    (m.setQuad k x).held = m.held ∧ (m.setQuad k x).mallet = m.mallet ∧
    (m.setQuad k x).vports = m.vports ∧ (m.setQuad k x).time = m.time ∧
    (m.setQuad k x).mb = m.mb ∧ (m.setQuad k x).gw = m.gw ∧
    (m.setQuad k x).server = m.server ∧ (m.setQuad k x).can = m.can ∧
    (m.setQuad k x).twi = m.twi ∧ (m.setQuad k x).twc = m.twc ∧
    (m.setQuad k x).tree = m.tree ∧ (m.setQuad k x).life = m.life ∧
    (m.setQuad k x).almanac = m.almanac ∧ (m.setQuad k x).drainTo = m.drainTo ∧
    (m.setQuad k x).fail2 = m.fail2 ∧ (m.setQuad k x).fail8 = m.fail8 := by
  refine ⟨rfl, rfl, rfl, rfl, rfl, rfl, rfl, rfl, rfl, rfl, rfl, rfl, rfl, rfl, rfl, rfl, rfl, rfl, rfl, rfl, rfl, rfl, rfl, rfl, rfl, rfl, rfl, rfl, rfl, rfl, rfl, rfl, rfl, rfl, rfl, rfl, rfl, rfl, rfl, rfl, rfl, rfl, rfl, rfl, rfl, rfl, rfl, rfl⟩

@[simp] theorem Mach.setTxLane_keeps (m : Mach) (k : Nat) (x : LaneTx) :
    (m.setTxLane k x).dict = m.dict ∧ (m.setTxLane k x).ltc = m.ltc ∧
    (m.setTxLane k x).free = m.free ∧ (m.setTxLane k x).slotId = m.slotId ∧
    (m.setTxLane k x).out = m.out ∧ (m.setTxLane k x).lanes = m.lanes ∧
    (m.setTxLane k x).quads = m.quads ∧ (m.setTxLane k x).txPorts = m.txPorts ∧
    (m.setTxLane k x).ports = m.ports ∧ (m.setTxLane k x).streams = m.streams ∧
    (m.setTxLane k x).verdicts = m.verdicts ∧ (m.setTxLane k x).verdictNo = m.verdictNo ∧
    (m.setTxLane k x).deferred = m.deferred ∧ (m.setTxLane k x).admits = m.admits ∧
    (m.setTxLane k x).planers = m.planers ∧ (m.setTxLane k x).tabs = m.tabs ∧
    (m.setTxLane k x).ep = m.ep ∧ (m.setTxLane k x).chans = m.chans ∧
    (m.setTxLane k x).engine = m.engine ∧ (m.setTxLane k x).fports = m.fports ∧
    (m.setTxLane k x).fabMap = m.fabMap ∧ (m.setTxLane k x).fwds = m.fwds ∧
    (m.setTxLane k x).holds = m.holds ∧ (m.setTxLane k x).fseq = m.fseq ∧
    (m.setTxLane k x).flowSeq = m.flowSeq ∧ (m.setTxLane k x).hub = m.hub ∧
    (m.setTxLane k x).tasks = m.tasks ∧ (m.setTxLane k x).pins = m.pins ∧
    (m.setTxLane k x).pair = m.pair ∧ (m.setTxLane k x).pos = m.pos ∧
    (m.setTxLane k x).readPairs = m.readPairs ∧ (m.setTxLane k x).mgs = m.mgs ∧
    (m.setTxLane k x).held = m.held ∧ (m.setTxLane k x).mallet = m.mallet ∧
    (m.setTxLane k x).vports = m.vports ∧ (m.setTxLane k x).time = m.time ∧
    (m.setTxLane k x).mb = m.mb ∧ (m.setTxLane k x).gw = m.gw ∧
    (m.setTxLane k x).server = m.server ∧ (m.setTxLane k x).can = m.can ∧
    (m.setTxLane k x).twi = m.twi ∧ (m.setTxLane k x).twc = m.twc ∧
    (m.setTxLane k x).tree = m.tree ∧ (m.setTxLane k x).life = m.life ∧
    (m.setTxLane k x).almanac = m.almanac ∧ (m.setTxLane k x).drainTo = m.drainTo ∧
    (m.setTxLane k x).fail2 = m.fail2 ∧ (m.setTxLane k x).fail8 = m.fail8 := by
  refine ⟨rfl, rfl, rfl, rfl, rfl, rfl, rfl, rfl, rfl, rfl, rfl, rfl, rfl, rfl, rfl, rfl, rfl, rfl, rfl, rfl, rfl, rfl, rfl, rfl, rfl, rfl, rfl, rfl, rfl, rfl, rfl, rfl, rfl, rfl, rfl, rfl, rfl, rfl, rfl, rfl, rfl, rfl, rfl, rfl, rfl, rfl, rfl, rfl⟩

@[simp] theorem Mach.setTxPort_keeps (m : Mach) (k : Nat) (x : PortTx) :
    (m.setTxPort k x).dict = m.dict ∧ (m.setTxPort k x).ltc = m.ltc ∧
    (m.setTxPort k x).free = m.free ∧ (m.setTxPort k x).slotId = m.slotId ∧
    (m.setTxPort k x).out = m.out ∧ (m.setTxPort k x).lanes = m.lanes ∧
    (m.setTxPort k x).quads = m.quads ∧ (m.setTxPort k x).txLanes = m.txLanes ∧
    (m.setTxPort k x).ports = m.ports ∧ (m.setTxPort k x).streams = m.streams ∧
    (m.setTxPort k x).verdicts = m.verdicts ∧ (m.setTxPort k x).verdictNo = m.verdictNo ∧
    (m.setTxPort k x).deferred = m.deferred ∧ (m.setTxPort k x).admits = m.admits ∧
    (m.setTxPort k x).planers = m.planers ∧ (m.setTxPort k x).tabs = m.tabs ∧
    (m.setTxPort k x).ep = m.ep ∧ (m.setTxPort k x).chans = m.chans ∧
    (m.setTxPort k x).engine = m.engine ∧ (m.setTxPort k x).fports = m.fports ∧
    (m.setTxPort k x).fabMap = m.fabMap ∧ (m.setTxPort k x).fwds = m.fwds ∧
    (m.setTxPort k x).holds = m.holds ∧ (m.setTxPort k x).fseq = m.fseq ∧
    (m.setTxPort k x).flowSeq = m.flowSeq ∧ (m.setTxPort k x).hub = m.hub ∧
    (m.setTxPort k x).tasks = m.tasks ∧ (m.setTxPort k x).pins = m.pins ∧
    (m.setTxPort k x).pair = m.pair ∧ (m.setTxPort k x).pos = m.pos ∧
    (m.setTxPort k x).readPairs = m.readPairs ∧ (m.setTxPort k x).mgs = m.mgs ∧
    (m.setTxPort k x).held = m.held ∧ (m.setTxPort k x).mallet = m.mallet ∧
    (m.setTxPort k x).vports = m.vports ∧ (m.setTxPort k x).time = m.time ∧
    (m.setTxPort k x).mb = m.mb ∧ (m.setTxPort k x).gw = m.gw ∧
    (m.setTxPort k x).server = m.server ∧ (m.setTxPort k x).can = m.can ∧
    (m.setTxPort k x).twi = m.twi ∧ (m.setTxPort k x).twc = m.twc ∧
    (m.setTxPort k x).tree = m.tree ∧ (m.setTxPort k x).life = m.life ∧
    (m.setTxPort k x).almanac = m.almanac ∧ (m.setTxPort k x).drainTo = m.drainTo ∧
    (m.setTxPort k x).fail2 = m.fail2 ∧ (m.setTxPort k x).fail8 = m.fail8 := by
  refine ⟨rfl, rfl, rfl, rfl, rfl, rfl, rfl, rfl, rfl, rfl, rfl, rfl, rfl, rfl, rfl, rfl, rfl, rfl, rfl, rfl, rfl, rfl, rfl, rfl, rfl, rfl, rfl, rfl, rfl, rfl, rfl, rfl, rfl, rfl, rfl, rfl, rfl, rfl, rfl, rfl, rfl, rfl, rfl, rfl, rfl, rfl, rfl, rfl⟩

@[simp] theorem Mach.setPort_keeps (m : Mach) (k : Nat) (x : Port) :
    (m.setPort k x).dict = m.dict ∧ (m.setPort k x).ltc = m.ltc ∧
    (m.setPort k x).free = m.free ∧ (m.setPort k x).slotId = m.slotId ∧
    (m.setPort k x).out = m.out ∧ (m.setPort k x).lanes = m.lanes ∧
    (m.setPort k x).quads = m.quads ∧ (m.setPort k x).txLanes = m.txLanes ∧
    (m.setPort k x).txPorts = m.txPorts ∧ (m.setPort k x).streams = m.streams ∧
    (m.setPort k x).verdicts = m.verdicts ∧ (m.setPort k x).verdictNo = m.verdictNo ∧
    (m.setPort k x).deferred = m.deferred ∧ (m.setPort k x).admits = m.admits ∧
    (m.setPort k x).planers = m.planers ∧ (m.setPort k x).tabs = m.tabs ∧
    (m.setPort k x).ep = m.ep ∧ (m.setPort k x).chans = m.chans ∧
    (m.setPort k x).engine = m.engine ∧ (m.setPort k x).fports = m.fports ∧
    (m.setPort k x).fabMap = m.fabMap ∧ (m.setPort k x).fwds = m.fwds ∧
    (m.setPort k x).holds = m.holds ∧ (m.setPort k x).fseq = m.fseq ∧
    (m.setPort k x).flowSeq = m.flowSeq ∧ (m.setPort k x).hub = m.hub ∧
    (m.setPort k x).tasks = m.tasks ∧ (m.setPort k x).pins = m.pins ∧
    (m.setPort k x).pair = m.pair ∧ (m.setPort k x).pos = m.pos ∧
    (m.setPort k x).readPairs = m.readPairs ∧ (m.setPort k x).mgs = m.mgs ∧
    (m.setPort k x).held = m.held ∧ (m.setPort k x).mallet = m.mallet ∧
    (m.setPort k x).vports = m.vports ∧ (m.setPort k x).time = m.time ∧
    (m.setPort k x).mb = m.mb ∧ (m.setPort k x).gw = m.gw ∧
    (m.setPort k x).server = m.server ∧ (m.setPort k x).can = m.can ∧
    (m.setPort k x).twi = m.twi ∧ (m.setPort k x).twc = m.twc ∧
    (m.setPort k x).tree = m.tree ∧ (m.setPort k x).life = m.life ∧
    (m.setPort k x).almanac = m.almanac ∧ (m.setPort k x).drainTo = m.drainTo ∧
    (m.setPort k x).fail2 = m.fail2 ∧ (m.setPort k x).fail8 = m.fail8 := by
  refine ⟨rfl, rfl, rfl, rfl, rfl, rfl, rfl, rfl, rfl, rfl, rfl, rfl, rfl, rfl, rfl, rfl, rfl, rfl, rfl, rfl, rfl, rfl, rfl, rfl, rfl, rfl, rfl, rfl, rfl, rfl, rfl, rfl, rfl, rfl, rfl, rfl, rfl, rfl, rfl, rfl, rfl, rfl, rfl, rfl, rfl, rfl, rfl, rfl⟩

@[simp] theorem Mach.setStrm_keeps (m : Mach) (k : Nat) (x : Stream) :
    (m.setStrm k x).dict = m.dict ∧ (m.setStrm k x).ltc = m.ltc ∧
    (m.setStrm k x).free = m.free ∧ (m.setStrm k x).slotId = m.slotId ∧
    (m.setStrm k x).out = m.out ∧ (m.setStrm k x).lanes = m.lanes ∧
    (m.setStrm k x).quads = m.quads ∧ (m.setStrm k x).txLanes = m.txLanes ∧
    (m.setStrm k x).txPorts = m.txPorts ∧ (m.setStrm k x).ports = m.ports ∧
    (m.setStrm k x).verdicts = m.verdicts ∧ (m.setStrm k x).verdictNo = m.verdictNo ∧
    (m.setStrm k x).deferred = m.deferred ∧ (m.setStrm k x).admits = m.admits ∧
    (m.setStrm k x).planers = m.planers ∧ (m.setStrm k x).tabs = m.tabs ∧
    (m.setStrm k x).ep = m.ep ∧ (m.setStrm k x).chans = m.chans ∧
    (m.setStrm k x).engine = m.engine ∧ (m.setStrm k x).fports = m.fports ∧
    (m.setStrm k x).fabMap = m.fabMap ∧ (m.setStrm k x).fwds = m.fwds ∧
    (m.setStrm k x).holds = m.holds ∧ (m.setStrm k x).fseq = m.fseq ∧
    (m.setStrm k x).flowSeq = m.flowSeq ∧ (m.setStrm k x).hub = m.hub ∧
    (m.setStrm k x).tasks = m.tasks ∧ (m.setStrm k x).pins = m.pins ∧
    (m.setStrm k x).pair = m.pair ∧ (m.setStrm k x).pos = m.pos ∧
    (m.setStrm k x).readPairs = m.readPairs ∧ (m.setStrm k x).mgs = m.mgs ∧
    (m.setStrm k x).held = m.held ∧ (m.setStrm k x).mallet = m.mallet ∧
    (m.setStrm k x).vports = m.vports ∧ (m.setStrm k x).time = m.time ∧
    (m.setStrm k x).mb = m.mb ∧ (m.setStrm k x).gw = m.gw ∧
    (m.setStrm k x).server = m.server ∧ (m.setStrm k x).can = m.can ∧
    (m.setStrm k x).twi = m.twi ∧ (m.setStrm k x).twc = m.twc ∧
    (m.setStrm k x).tree = m.tree ∧ (m.setStrm k x).life = m.life ∧
    (m.setStrm k x).almanac = m.almanac ∧ (m.setStrm k x).drainTo = m.drainTo ∧
    (m.setStrm k x).fail2 = m.fail2 ∧ (m.setStrm k x).fail8 = m.fail8 := by
  refine ⟨rfl, rfl, rfl, rfl, rfl, rfl, rfl, rfl, rfl, rfl, rfl, rfl, rfl, rfl, rfl, rfl, rfl, rfl, rfl, rfl, rfl, rfl, rfl, rfl, rfl, rfl, rfl, rfl, rfl, rfl, rfl, rfl, rfl, rfl, rfl, rfl, rfl, rfl, rfl, rfl, rfl, rfl, rfl, rfl, rfl, rfl, rfl, rfl⟩

@[simp] theorem Mach.setPlaner_keeps (m : Mach) (k : Nat) (x : Planer) :
    (m.setPlaner k x).dict = m.dict ∧ (m.setPlaner k x).ltc = m.ltc ∧
    (m.setPlaner k x).free = m.free ∧ (m.setPlaner k x).slotId = m.slotId ∧
    (m.setPlaner k x).out = m.out ∧ (m.setPlaner k x).lanes = m.lanes ∧
    (m.setPlaner k x).quads = m.quads ∧ (m.setPlaner k x).txLanes = m.txLanes ∧
    (m.setPlaner k x).txPorts = m.txPorts ∧ (m.setPlaner k x).ports = m.ports ∧
    (m.setPlaner k x).streams = m.streams ∧ (m.setPlaner k x).verdicts = m.verdicts ∧
    (m.setPlaner k x).verdictNo = m.verdictNo ∧ (m.setPlaner k x).deferred = m.deferred ∧
    (m.setPlaner k x).admits = m.admits ∧ (m.setPlaner k x).tabs = m.tabs ∧
    (m.setPlaner k x).ep = m.ep ∧ (m.setPlaner k x).chans = m.chans ∧
    (m.setPlaner k x).engine = m.engine ∧ (m.setPlaner k x).fports = m.fports ∧
    (m.setPlaner k x).fabMap = m.fabMap ∧ (m.setPlaner k x).fwds = m.fwds ∧
    (m.setPlaner k x).holds = m.holds ∧ (m.setPlaner k x).fseq = m.fseq ∧
    (m.setPlaner k x).flowSeq = m.flowSeq ∧ (m.setPlaner k x).hub = m.hub ∧
    (m.setPlaner k x).tasks = m.tasks ∧ (m.setPlaner k x).pins = m.pins ∧
    (m.setPlaner k x).pair = m.pair ∧ (m.setPlaner k x).pos = m.pos ∧
    (m.setPlaner k x).readPairs = m.readPairs ∧ (m.setPlaner k x).mgs = m.mgs ∧
    (m.setPlaner k x).held = m.held ∧ (m.setPlaner k x).mallet = m.mallet ∧
    (m.setPlaner k x).vports = m.vports ∧ (m.setPlaner k x).time = m.time ∧
    (m.setPlaner k x).mb = m.mb ∧ (m.setPlaner k x).gw = m.gw ∧
    (m.setPlaner k x).server = m.server ∧ (m.setPlaner k x).can = m.can ∧
    (m.setPlaner k x).twi = m.twi ∧ (m.setPlaner k x).twc = m.twc ∧
    (m.setPlaner k x).tree = m.tree ∧ (m.setPlaner k x).life = m.life ∧
    (m.setPlaner k x).almanac = m.almanac ∧ (m.setPlaner k x).drainTo = m.drainTo ∧
    (m.setPlaner k x).fail2 = m.fail2 ∧ (m.setPlaner k x).fail8 = m.fail8 := by
  refine ⟨rfl, rfl, rfl, rfl, rfl, rfl, rfl, rfl, rfl, rfl, rfl, rfl, rfl, rfl, rfl, rfl, rfl, rfl, rfl, rfl, rfl, rfl, rfl, rfl, rfl, rfl, rfl, rfl, rfl, rfl, rfl, rfl, rfl, rfl, rfl, rfl, rfl, rfl, rfl, rfl, rfl, rfl, rfl, rfl, rfl, rfl, rfl, rfl⟩

@[simp] theorem Mach.setChan_keeps (m : Mach) (k : Nat) (x : Chan) :
    (m.setChan k x).dict = m.dict ∧ (m.setChan k x).ltc = m.ltc ∧
    (m.setChan k x).free = m.free ∧ (m.setChan k x).slotId = m.slotId ∧
    (m.setChan k x).out = m.out ∧ (m.setChan k x).lanes = m.lanes ∧
    (m.setChan k x).quads = m.quads ∧ (m.setChan k x).txLanes = m.txLanes ∧
    (m.setChan k x).txPorts = m.txPorts ∧ (m.setChan k x).ports = m.ports ∧
    (m.setChan k x).streams = m.streams ∧ (m.setChan k x).verdicts = m.verdicts ∧
    (m.setChan k x).verdictNo = m.verdictNo ∧ (m.setChan k x).deferred = m.deferred ∧
    (m.setChan k x).admits = m.admits ∧ (m.setChan k x).planers = m.planers ∧
    (m.setChan k x).tabs = m.tabs ∧ (m.setChan k x).ep = m.ep ∧
    (m.setChan k x).engine = m.engine ∧ (m.setChan k x).fports = m.fports ∧
    (m.setChan k x).fabMap = m.fabMap ∧ (m.setChan k x).fwds = m.fwds ∧
    (m.setChan k x).holds = m.holds ∧ (m.setChan k x).fseq = m.fseq ∧
    (m.setChan k x).flowSeq = m.flowSeq ∧ (m.setChan k x).hub = m.hub ∧
    (m.setChan k x).tasks = m.tasks ∧ (m.setChan k x).pins = m.pins ∧
    (m.setChan k x).pair = m.pair ∧ (m.setChan k x).pos = m.pos ∧
    (m.setChan k x).readPairs = m.readPairs ∧ (m.setChan k x).mgs = m.mgs ∧
    (m.setChan k x).held = m.held ∧ (m.setChan k x).mallet = m.mallet ∧
    (m.setChan k x).vports = m.vports ∧ (m.setChan k x).time = m.time ∧
    (m.setChan k x).mb = m.mb ∧ (m.setChan k x).gw = m.gw ∧
    (m.setChan k x).server = m.server ∧ (m.setChan k x).can = m.can ∧
    (m.setChan k x).twi = m.twi ∧ (m.setChan k x).twc = m.twc ∧
    (m.setChan k x).tree = m.tree ∧ (m.setChan k x).life = m.life ∧
    (m.setChan k x).almanac = m.almanac ∧ (m.setChan k x).drainTo = m.drainTo ∧
    (m.setChan k x).fail2 = m.fail2 ∧ (m.setChan k x).fail8 = m.fail8 := by
  refine ⟨rfl, rfl, rfl, rfl, rfl, rfl, rfl, rfl, rfl, rfl, rfl, rfl, rfl, rfl, rfl, rfl, rfl, rfl, rfl, rfl, rfl, rfl, rfl, rfl, rfl, rfl, rfl, rfl, rfl, rfl, rfl, rfl, rfl, rfl, rfl, rfl, rfl, rfl, rfl, rfl, rfl, rfl, rfl, rfl, rfl, rfl, rfl, rfl⟩

@[simp] theorem Mach.setFport_keeps (m : Mach) (k : Nat) (x : FPort) :
    (m.setFport k x).dict = m.dict ∧ (m.setFport k x).ltc = m.ltc ∧
    (m.setFport k x).free = m.free ∧ (m.setFport k x).slotId = m.slotId ∧
    (m.setFport k x).out = m.out ∧ (m.setFport k x).lanes = m.lanes ∧
    (m.setFport k x).quads = m.quads ∧ (m.setFport k x).txLanes = m.txLanes ∧
    (m.setFport k x).txPorts = m.txPorts ∧ (m.setFport k x).ports = m.ports ∧
    (m.setFport k x).streams = m.streams ∧ (m.setFport k x).verdicts = m.verdicts ∧
    (m.setFport k x).verdictNo = m.verdictNo ∧ (m.setFport k x).deferred = m.deferred ∧
    (m.setFport k x).admits = m.admits ∧ (m.setFport k x).planers = m.planers ∧
    (m.setFport k x).tabs = m.tabs ∧ (m.setFport k x).ep = m.ep ∧
    (m.setFport k x).chans = m.chans ∧ (m.setFport k x).engine = m.engine ∧
    (m.setFport k x).fabMap = m.fabMap ∧ (m.setFport k x).fwds = m.fwds ∧
    (m.setFport k x).holds = m.holds ∧ (m.setFport k x).fseq = m.fseq ∧
    (m.setFport k x).flowSeq = m.flowSeq ∧ (m.setFport k x).hub = m.hub ∧
    (m.setFport k x).tasks = m.tasks ∧ (m.setFport k x).pins = m.pins ∧
    (m.setFport k x).pair = m.pair ∧ (m.setFport k x).pos = m.pos ∧
    (m.setFport k x).readPairs = m.readPairs ∧ (m.setFport k x).mgs = m.mgs ∧
    (m.setFport k x).held = m.held ∧ (m.setFport k x).mallet = m.mallet ∧
    (m.setFport k x).vports = m.vports ∧ (m.setFport k x).time = m.time ∧
    (m.setFport k x).mb = m.mb ∧ (m.setFport k x).gw = m.gw ∧
    (m.setFport k x).server = m.server ∧ (m.setFport k x).can = m.can ∧
    (m.setFport k x).twi = m.twi ∧ (m.setFport k x).twc = m.twc ∧
    (m.setFport k x).tree = m.tree ∧ (m.setFport k x).life = m.life ∧
    (m.setFport k x).almanac = m.almanac ∧ (m.setFport k x).drainTo = m.drainTo ∧
    (m.setFport k x).fail2 = m.fail2 ∧ (m.setFport k x).fail8 = m.fail8 := by
  refine ⟨rfl, rfl, rfl, rfl, rfl, rfl, rfl, rfl, rfl, rfl, rfl, rfl, rfl, rfl, rfl, rfl, rfl, rfl, rfl, rfl, rfl, rfl, rfl, rfl, rfl, rfl, rfl, rfl, rfl, rfl, rfl, rfl, rfl, rfl, rfl, rfl, rfl, rfl, rfl, rfl, rfl, rfl, rfl, rfl, rfl, rfl, rfl, rfl⟩

@[simp] theorem Mach.setPin_keeps (m : Mach) (k : Nat) (x : Pin) :
    (m.setPin k x).dict = m.dict ∧ (m.setPin k x).ltc = m.ltc ∧
    (m.setPin k x).free = m.free ∧ (m.setPin k x).slotId = m.slotId ∧
    (m.setPin k x).out = m.out ∧ (m.setPin k x).lanes = m.lanes ∧
    (m.setPin k x).quads = m.quads ∧ (m.setPin k x).txLanes = m.txLanes ∧
    (m.setPin k x).txPorts = m.txPorts ∧ (m.setPin k x).ports = m.ports ∧
    (m.setPin k x).streams = m.streams ∧ (m.setPin k x).verdicts = m.verdicts ∧
    (m.setPin k x).verdictNo = m.verdictNo ∧ (m.setPin k x).deferred = m.deferred ∧
    (m.setPin k x).admits = m.admits ∧ (m.setPin k x).planers = m.planers ∧
    (m.setPin k x).tabs = m.tabs ∧ (m.setPin k x).ep = m.ep ∧
    (m.setPin k x).chans = m.chans ∧ (m.setPin k x).engine = m.engine ∧
    (m.setPin k x).fports = m.fports ∧ (m.setPin k x).fabMap = m.fabMap ∧
    (m.setPin k x).fwds = m.fwds ∧ (m.setPin k x).holds = m.holds ∧
    (m.setPin k x).fseq = m.fseq ∧ (m.setPin k x).flowSeq = m.flowSeq ∧
    (m.setPin k x).hub = m.hub ∧ (m.setPin k x).tasks = m.tasks ∧
    (m.setPin k x).pair = m.pair ∧ (m.setPin k x).pos = m.pos ∧
    (m.setPin k x).readPairs = m.readPairs ∧ (m.setPin k x).mgs = m.mgs ∧
    (m.setPin k x).held = m.held ∧ (m.setPin k x).mallet = m.mallet ∧
    (m.setPin k x).vports = m.vports ∧ (m.setPin k x).time = m.time ∧
    (m.setPin k x).mb = m.mb ∧ (m.setPin k x).gw = m.gw ∧
    (m.setPin k x).server = m.server ∧ (m.setPin k x).can = m.can ∧
    (m.setPin k x).twi = m.twi ∧ (m.setPin k x).twc = m.twc ∧
    (m.setPin k x).tree = m.tree ∧ (m.setPin k x).life = m.life ∧
    (m.setPin k x).almanac = m.almanac ∧ (m.setPin k x).drainTo = m.drainTo ∧
    (m.setPin k x).fail2 = m.fail2 ∧ (m.setPin k x).fail8 = m.fail8 := by
  refine ⟨rfl, rfl, rfl, rfl, rfl, rfl, rfl, rfl, rfl, rfl, rfl, rfl, rfl, rfl, rfl, rfl, rfl, rfl, rfl, rfl, rfl, rfl, rfl, rfl, rfl, rfl, rfl, rfl, rfl, rfl, rfl, rfl, rfl, rfl, rfl, rfl, rfl, rfl, rfl, rfl, rfl, rfl, rfl, rfl, rfl, rfl, rfl, rfl⟩

@[simp] theorem Mach.setTask_keeps (m : Mach) (k : Nat) (x : Task) :
    (m.setTask k x).dict = m.dict ∧ (m.setTask k x).ltc = m.ltc ∧
    (m.setTask k x).free = m.free ∧ (m.setTask k x).slotId = m.slotId ∧
    (m.setTask k x).out = m.out ∧ (m.setTask k x).lanes = m.lanes ∧
    (m.setTask k x).quads = m.quads ∧ (m.setTask k x).txLanes = m.txLanes ∧
    (m.setTask k x).txPorts = m.txPorts ∧ (m.setTask k x).ports = m.ports ∧
    (m.setTask k x).streams = m.streams ∧ (m.setTask k x).verdicts = m.verdicts ∧
    (m.setTask k x).verdictNo = m.verdictNo ∧ (m.setTask k x).deferred = m.deferred ∧
    (m.setTask k x).admits = m.admits ∧ (m.setTask k x).planers = m.planers ∧
    (m.setTask k x).tabs = m.tabs ∧ (m.setTask k x).ep = m.ep ∧
    (m.setTask k x).chans = m.chans ∧ (m.setTask k x).engine = m.engine ∧
    (m.setTask k x).fports = m.fports ∧ (m.setTask k x).fabMap = m.fabMap ∧
    (m.setTask k x).fwds = m.fwds ∧ (m.setTask k x).holds = m.holds ∧
    (m.setTask k x).fseq = m.fseq ∧ (m.setTask k x).flowSeq = m.flowSeq ∧
    (m.setTask k x).hub = m.hub ∧ (m.setTask k x).pins = m.pins ∧
    (m.setTask k x).pair = m.pair ∧ (m.setTask k x).pos = m.pos ∧
    (m.setTask k x).readPairs = m.readPairs ∧ (m.setTask k x).mgs = m.mgs ∧
    (m.setTask k x).held = m.held ∧ (m.setTask k x).mallet = m.mallet ∧
    (m.setTask k x).vports = m.vports ∧ (m.setTask k x).time = m.time ∧
    (m.setTask k x).mb = m.mb ∧ (m.setTask k x).gw = m.gw ∧
    (m.setTask k x).server = m.server ∧ (m.setTask k x).can = m.can ∧
    (m.setTask k x).twi = m.twi ∧ (m.setTask k x).twc = m.twc ∧
    (m.setTask k x).tree = m.tree ∧ (m.setTask k x).life = m.life ∧
    (m.setTask k x).almanac = m.almanac ∧ (m.setTask k x).drainTo = m.drainTo ∧
    (m.setTask k x).fail2 = m.fail2 ∧ (m.setTask k x).fail8 = m.fail8 := by
  refine ⟨rfl, rfl, rfl, rfl, rfl, rfl, rfl, rfl, rfl, rfl, rfl, rfl, rfl, rfl, rfl, rfl, rfl, rfl, rfl, rfl, rfl, rfl, rfl, rfl, rfl, rfl, rfl, rfl, rfl, rfl, rfl, rfl, rfl, rfl, rfl, rfl, rfl, rfl, rfl, rfl, rfl, rfl, rfl, rfl, rfl, rfl, rfl, rfl⟩

@[simp] theorem Mach.setPosc_keeps (m : Mach) (k : Nat) (x : PosChan) :
    (m.setPosc k x).dict = m.dict ∧ (m.setPosc k x).ltc = m.ltc ∧
    (m.setPosc k x).free = m.free ∧ (m.setPosc k x).slotId = m.slotId ∧
    (m.setPosc k x).out = m.out ∧ (m.setPosc k x).lanes = m.lanes ∧
    (m.setPosc k x).quads = m.quads ∧ (m.setPosc k x).txLanes = m.txLanes ∧
    (m.setPosc k x).txPorts = m.txPorts ∧ (m.setPosc k x).ports = m.ports ∧
    (m.setPosc k x).streams = m.streams ∧ (m.setPosc k x).verdicts = m.verdicts ∧
    (m.setPosc k x).verdictNo = m.verdictNo ∧ (m.setPosc k x).deferred = m.deferred ∧
    (m.setPosc k x).admits = m.admits ∧ (m.setPosc k x).planers = m.planers ∧
    (m.setPosc k x).tabs = m.tabs ∧ (m.setPosc k x).ep = m.ep ∧
    (m.setPosc k x).chans = m.chans ∧ (m.setPosc k x).engine = m.engine ∧
    (m.setPosc k x).fports = m.fports ∧ (m.setPosc k x).fabMap = m.fabMap ∧
    (m.setPosc k x).fwds = m.fwds ∧ (m.setPosc k x).holds = m.holds ∧
    (m.setPosc k x).fseq = m.fseq ∧ (m.setPosc k x).flowSeq = m.flowSeq ∧
    (m.setPosc k x).hub = m.hub ∧ (m.setPosc k x).tasks = m.tasks ∧
    (m.setPosc k x).pins = m.pins ∧ (m.setPosc k x).pair = m.pair ∧
    (m.setPosc k x).readPairs = m.readPairs ∧ (m.setPosc k x).mgs = m.mgs ∧
    (m.setPosc k x).held = m.held ∧ (m.setPosc k x).mallet = m.mallet ∧
    (m.setPosc k x).vports = m.vports ∧ (m.setPosc k x).time = m.time ∧
    (m.setPosc k x).mb = m.mb ∧ (m.setPosc k x).gw = m.gw ∧
    (m.setPosc k x).server = m.server ∧ (m.setPosc k x).can = m.can ∧
    (m.setPosc k x).twi = m.twi ∧ (m.setPosc k x).twc = m.twc ∧
    (m.setPosc k x).tree = m.tree ∧ (m.setPosc k x).life = m.life ∧
    (m.setPosc k x).almanac = m.almanac ∧ (m.setPosc k x).drainTo = m.drainTo ∧
    (m.setPosc k x).fail2 = m.fail2 ∧ (m.setPosc k x).fail8 = m.fail8 := by
  refine ⟨rfl, rfl, rfl, rfl, rfl, rfl, rfl, rfl, rfl, rfl, rfl, rfl, rfl, rfl, rfl, rfl, rfl, rfl, rfl, rfl, rfl, rfl, rfl, rfl, rfl, rfl, rfl, rfl, rfl, rfl, rfl, rfl, rfl, rfl, rfl, rfl, rfl, rfl, rfl, rfl, rfl, rfl, rfl, rfl, rfl, rfl, rfl, rfl⟩

@[simp] theorem Mach.setMg_keeps (m : Mach) (k : Nat) (x : Sequencer) :
    (m.setMg k x).dict = m.dict ∧ (m.setMg k x).ltc = m.ltc ∧
    (m.setMg k x).free = m.free ∧ (m.setMg k x).slotId = m.slotId ∧
    (m.setMg k x).out = m.out ∧ (m.setMg k x).lanes = m.lanes ∧
    (m.setMg k x).quads = m.quads ∧ (m.setMg k x).txLanes = m.txLanes ∧
    (m.setMg k x).txPorts = m.txPorts ∧ (m.setMg k x).ports = m.ports ∧
    (m.setMg k x).streams = m.streams ∧ (m.setMg k x).verdicts = m.verdicts ∧
    (m.setMg k x).verdictNo = m.verdictNo ∧ (m.setMg k x).deferred = m.deferred ∧
    (m.setMg k x).admits = m.admits ∧ (m.setMg k x).planers = m.planers ∧
    (m.setMg k x).tabs = m.tabs ∧ (m.setMg k x).ep = m.ep ∧
    (m.setMg k x).chans = m.chans ∧ (m.setMg k x).engine = m.engine ∧
    (m.setMg k x).fports = m.fports ∧ (m.setMg k x).fabMap = m.fabMap ∧
    (m.setMg k x).fwds = m.fwds ∧ (m.setMg k x).holds = m.holds ∧
    (m.setMg k x).fseq = m.fseq ∧ (m.setMg k x).flowSeq = m.flowSeq ∧
    (m.setMg k x).hub = m.hub ∧ (m.setMg k x).tasks = m.tasks ∧
    (m.setMg k x).pins = m.pins ∧ (m.setMg k x).pair = m.pair ∧
    (m.setMg k x).pos = m.pos ∧ (m.setMg k x).readPairs = m.readPairs ∧
    (m.setMg k x).held = m.held ∧ (m.setMg k x).mallet = m.mallet ∧
    (m.setMg k x).vports = m.vports ∧ (m.setMg k x).time = m.time ∧
    (m.setMg k x).mb = m.mb ∧ (m.setMg k x).gw = m.gw ∧
    (m.setMg k x).server = m.server ∧ (m.setMg k x).can = m.can ∧
    (m.setMg k x).twi = m.twi ∧ (m.setMg k x).twc = m.twc ∧
    (m.setMg k x).tree = m.tree ∧ (m.setMg k x).life = m.life ∧
    (m.setMg k x).almanac = m.almanac ∧ (m.setMg k x).drainTo = m.drainTo ∧
    (m.setMg k x).fail2 = m.fail2 ∧ (m.setMg k x).fail8 = m.fail8 := by
  refine ⟨rfl, rfl, rfl, rfl, rfl, rfl, rfl, rfl, rfl, rfl, rfl, rfl, rfl, rfl, rfl, rfl, rfl, rfl, rfl, rfl, rfl, rfl, rfl, rfl, rfl, rfl, rfl, rfl, rfl, rfl, rfl, rfl, rfl, rfl, rfl, rfl, rfl, rfl, rfl, rfl, rfl, rfl, rfl, rfl, rfl, rfl, rfl, rfl⟩

@[simp] theorem Mach.setVport_keeps (m : Mach) (k : Nat) (x : ValvePort) :
    (m.setVport k x).dict = m.dict ∧ (m.setVport k x).ltc = m.ltc ∧
    (m.setVport k x).free = m.free ∧ (m.setVport k x).slotId = m.slotId ∧
    (m.setVport k x).out = m.out ∧ (m.setVport k x).lanes = m.lanes ∧
    (m.setVport k x).quads = m.quads ∧ (m.setVport k x).txLanes = m.txLanes ∧
    (m.setVport k x).txPorts = m.txPorts ∧ (m.setVport k x).ports = m.ports ∧
    (m.setVport k x).streams = m.streams ∧ (m.setVport k x).verdicts = m.verdicts ∧
    (m.setVport k x).verdictNo = m.verdictNo ∧ (m.setVport k x).deferred = m.deferred ∧
    (m.setVport k x).admits = m.admits ∧ (m.setVport k x).planers = m.planers ∧
    (m.setVport k x).tabs = m.tabs ∧ (m.setVport k x).ep = m.ep ∧
    (m.setVport k x).chans = m.chans ∧ (m.setVport k x).engine = m.engine ∧
    (m.setVport k x).fports = m.fports ∧ (m.setVport k x).fabMap = m.fabMap ∧
    (m.setVport k x).fwds = m.fwds ∧ (m.setVport k x).holds = m.holds ∧
    (m.setVport k x).fseq = m.fseq ∧ (m.setVport k x).flowSeq = m.flowSeq ∧
    (m.setVport k x).hub = m.hub ∧ (m.setVport k x).tasks = m.tasks ∧
    (m.setVport k x).pins = m.pins ∧ (m.setVport k x).pair = m.pair ∧
    (m.setVport k x).pos = m.pos ∧ (m.setVport k x).readPairs = m.readPairs ∧
    (m.setVport k x).mgs = m.mgs ∧ (m.setVport k x).held = m.held ∧
    (m.setVport k x).mallet = m.mallet ∧ (m.setVport k x).time = m.time ∧
    (m.setVport k x).mb = m.mb ∧ (m.setVport k x).gw = m.gw ∧
    (m.setVport k x).server = m.server ∧ (m.setVport k x).can = m.can ∧
    (m.setVport k x).twi = m.twi ∧ (m.setVport k x).twc = m.twc ∧
    (m.setVport k x).tree = m.tree ∧ (m.setVport k x).life = m.life ∧
    (m.setVport k x).almanac = m.almanac ∧ (m.setVport k x).drainTo = m.drainTo ∧
    (m.setVport k x).fail2 = m.fail2 ∧ (m.setVport k x).fail8 = m.fail8 := by
  refine ⟨rfl, rfl, rfl, rfl, rfl, rfl, rfl, rfl, rfl, rfl, rfl, rfl, rfl, rfl, rfl, rfl, rfl, rfl, rfl, rfl, rfl, rfl, rfl, rfl, rfl, rfl, rfl, rfl, rfl, rfl, rfl, rfl, rfl, rfl, rfl, rfl, rfl, rfl, rfl, rfl, rfl, rfl, rfl, rfl, rfl, rfl, rfl, rfl⟩

/-! ### Resources: the one that is set, the others, and the entries -/

@[simp] theorem Mach.setLane_same (m : Mach) (k : Nat) (x : Lane) : (m.setLane k x).lane k = x := SMap.get_set_same _ _ _ _
theorem Mach.setLane_other (m : Mach) (k : Nat) (x : Lane) {j : Nat} (h : j ≠ k) : (m.setLane k x).lane j = m.lane j :=
  SMap.get_set_other _ _ _ h _
@[simp] theorem Mach.setLane_val (m : Mach) (k : Nat) (x : Lane) (e : Entry) (j : Nat) : (m.setLane k x).val e j = m.val e j := rfl
@[simp] theorem Mach.setLane_rd (m : Mach) (k : Nat) (x : Lane) (e : Entry) (j : Nat) : (m.setLane k x).rd e j = m.rd e j := rfl
@[simp] theorem Mach.setVal_lane (m : Mach) (e : Entry) (k : Nat) (v : Val) (j : Nat) : (m.setVal e k v).lane j = m.lane j := rfl
@[simp] theorem Mach.wr_lane (m : Mach) (e : Entry) (k n j : Nat) : (m.wr e k n).lane j = m.lane j := rfl
@[simp] theorem Mach.inc_lane (m : Mach) (e : Entry) (k n j : Nat) : (m.inc e k n).lane j = m.lane j := rfl

@[simp] theorem Mach.setQuad_same (m : Mach) (k : Nat) (x : Quad) : (m.setQuad k x).quad k = x := SMap.get_set_same _ _ _ _
theorem Mach.setQuad_other (m : Mach) (k : Nat) (x : Quad) {j : Nat} (h : j ≠ k) : (m.setQuad k x).quad j = m.quad j :=
  SMap.get_set_other _ _ _ h _
@[simp] theorem Mach.setQuad_val (m : Mach) (k : Nat) (x : Quad) (e : Entry) (j : Nat) : (m.setQuad k x).val e j = m.val e j := rfl
@[simp] theorem Mach.setQuad_rd (m : Mach) (k : Nat) (x : Quad) (e : Entry) (j : Nat) : (m.setQuad k x).rd e j = m.rd e j := rfl
@[simp] theorem Mach.setVal_quad (m : Mach) (e : Entry) (k : Nat) (v : Val) (j : Nat) : (m.setVal e k v).quad j = m.quad j := rfl
@[simp] theorem Mach.wr_quad (m : Mach) (e : Entry) (k n j : Nat) : (m.wr e k n).quad j = m.quad j := rfl
@[simp] theorem Mach.inc_quad (m : Mach) (e : Entry) (k n j : Nat) : (m.inc e k n).quad j = m.quad j := rfl

@[simp] theorem Mach.setTxLane_same (m : Mach) (k : Nat) (x : LaneTx) : (m.setTxLane k x).txLane k = x := SMap.get_set_same _ _ _ _
theorem Mach.setTxLane_other (m : Mach) (k : Nat) (x : LaneTx) {j : Nat} (h : j ≠ k) : (m.setTxLane k x).txLane j = m.txLane j :=
  SMap.get_set_other _ _ _ h _
@[simp] theorem Mach.setTxLane_val (m : Mach) (k : Nat) (x : LaneTx) (e : Entry) (j : Nat) : (m.setTxLane k x).val e j = m.val e j := rfl
@[simp] theorem Mach.setTxLane_rd (m : Mach) (k : Nat) (x : LaneTx) (e : Entry) (j : Nat) : (m.setTxLane k x).rd e j = m.rd e j := rfl
@[simp] theorem Mach.setVal_txLane (m : Mach) (e : Entry) (k : Nat) (v : Val) (j : Nat) : (m.setVal e k v).txLane j = m.txLane j := rfl
@[simp] theorem Mach.wr_txLane (m : Mach) (e : Entry) (k n j : Nat) : (m.wr e k n).txLane j = m.txLane j := rfl
@[simp] theorem Mach.inc_txLane (m : Mach) (e : Entry) (k n j : Nat) : (m.inc e k n).txLane j = m.txLane j := rfl

@[simp] theorem Mach.setTxPort_same (m : Mach) (k : Nat) (x : PortTx) : (m.setTxPort k x).txPort k = x := SMap.get_set_same _ _ _ _
theorem Mach.setTxPort_other (m : Mach) (k : Nat) (x : PortTx) {j : Nat} (h : j ≠ k) : (m.setTxPort k x).txPort j = m.txPort j :=
  SMap.get_set_other _ _ _ h _
@[simp] theorem Mach.setTxPort_val (m : Mach) (k : Nat) (x : PortTx) (e : Entry) (j : Nat) : (m.setTxPort k x).val e j = m.val e j := rfl
@[simp] theorem Mach.setTxPort_rd (m : Mach) (k : Nat) (x : PortTx) (e : Entry) (j : Nat) : (m.setTxPort k x).rd e j = m.rd e j := rfl
@[simp] theorem Mach.setVal_txPort (m : Mach) (e : Entry) (k : Nat) (v : Val) (j : Nat) : (m.setVal e k v).txPort j = m.txPort j := rfl
@[simp] theorem Mach.wr_txPort (m : Mach) (e : Entry) (k n j : Nat) : (m.wr e k n).txPort j = m.txPort j := rfl
@[simp] theorem Mach.inc_txPort (m : Mach) (e : Entry) (k n j : Nat) : (m.inc e k n).txPort j = m.txPort j := rfl

@[simp] theorem Mach.setPort_same (m : Mach) (k : Nat) (x : Port) : (m.setPort k x).port k = x := SMap.get_set_same _ _ _ _
theorem Mach.setPort_other (m : Mach) (k : Nat) (x : Port) {j : Nat} (h : j ≠ k) : (m.setPort k x).port j = m.port j :=
  SMap.get_set_other _ _ _ h _
@[simp] theorem Mach.setPort_val (m : Mach) (k : Nat) (x : Port) (e : Entry) (j : Nat) : (m.setPort k x).val e j = m.val e j := rfl
@[simp] theorem Mach.setPort_rd (m : Mach) (k : Nat) (x : Port) (e : Entry) (j : Nat) : (m.setPort k x).rd e j = m.rd e j := rfl
@[simp] theorem Mach.setVal_port (m : Mach) (e : Entry) (k : Nat) (v : Val) (j : Nat) : (m.setVal e k v).port j = m.port j := rfl
@[simp] theorem Mach.wr_port (m : Mach) (e : Entry) (k n j : Nat) : (m.wr e k n).port j = m.port j := rfl
@[simp] theorem Mach.inc_port (m : Mach) (e : Entry) (k n j : Nat) : (m.inc e k n).port j = m.port j := rfl

@[simp] theorem Mach.setStrm_same (m : Mach) (k : Nat) (x : Stream) : (m.setStrm k x).strm k = x := SMap.get_set_same _ _ _ _
theorem Mach.setStrm_other (m : Mach) (k : Nat) (x : Stream) {j : Nat} (h : j ≠ k) : (m.setStrm k x).strm j = m.strm j :=
  SMap.get_set_other _ _ _ h _
@[simp] theorem Mach.setStrm_val (m : Mach) (k : Nat) (x : Stream) (e : Entry) (j : Nat) : (m.setStrm k x).val e j = m.val e j := rfl
@[simp] theorem Mach.setStrm_rd (m : Mach) (k : Nat) (x : Stream) (e : Entry) (j : Nat) : (m.setStrm k x).rd e j = m.rd e j := rfl
@[simp] theorem Mach.setVal_strm (m : Mach) (e : Entry) (k : Nat) (v : Val) (j : Nat) : (m.setVal e k v).strm j = m.strm j := rfl
@[simp] theorem Mach.wr_strm (m : Mach) (e : Entry) (k n j : Nat) : (m.wr e k n).strm j = m.strm j := rfl
@[simp] theorem Mach.inc_strm (m : Mach) (e : Entry) (k n j : Nat) : (m.inc e k n).strm j = m.strm j := rfl

@[simp] theorem Mach.setPlaner_same (m : Mach) (k : Nat) (x : Planer) : (m.setPlaner k x).planer k = x := SMap.get_set_same _ _ _ _
theorem Mach.setPlaner_other (m : Mach) (k : Nat) (x : Planer) {j : Nat} (h : j ≠ k) : (m.setPlaner k x).planer j = m.planer j :=
  SMap.get_set_other _ _ _ h _
@[simp] theorem Mach.setPlaner_val (m : Mach) (k : Nat) (x : Planer) (e : Entry) (j : Nat) : (m.setPlaner k x).val e j = m.val e j := rfl
@[simp] theorem Mach.setPlaner_rd (m : Mach) (k : Nat) (x : Planer) (e : Entry) (j : Nat) : (m.setPlaner k x).rd e j = m.rd e j := rfl
@[simp] theorem Mach.setVal_planer (m : Mach) (e : Entry) (k : Nat) (v : Val) (j : Nat) : (m.setVal e k v).planer j = m.planer j := rfl
@[simp] theorem Mach.wr_planer (m : Mach) (e : Entry) (k n j : Nat) : (m.wr e k n).planer j = m.planer j := rfl
@[simp] theorem Mach.inc_planer (m : Mach) (e : Entry) (k n j : Nat) : (m.inc e k n).planer j = m.planer j := rfl

@[simp] theorem Mach.setChan_same (m : Mach) (k : Nat) (x : Chan) : (m.setChan k x).chan k = x := SMap.get_set_same _ _ _ _
theorem Mach.setChan_other (m : Mach) (k : Nat) (x : Chan) {j : Nat} (h : j ≠ k) : (m.setChan k x).chan j = m.chan j :=
  SMap.get_set_other _ _ _ h _
@[simp] theorem Mach.setChan_val (m : Mach) (k : Nat) (x : Chan) (e : Entry) (j : Nat) : (m.setChan k x).val e j = m.val e j := rfl
@[simp] theorem Mach.setChan_rd (m : Mach) (k : Nat) (x : Chan) (e : Entry) (j : Nat) : (m.setChan k x).rd e j = m.rd e j := rfl
@[simp] theorem Mach.setVal_chan (m : Mach) (e : Entry) (k : Nat) (v : Val) (j : Nat) : (m.setVal e k v).chan j = m.chan j := rfl
@[simp] theorem Mach.wr_chan (m : Mach) (e : Entry) (k n j : Nat) : (m.wr e k n).chan j = m.chan j := rfl
@[simp] theorem Mach.inc_chan (m : Mach) (e : Entry) (k n j : Nat) : (m.inc e k n).chan j = m.chan j := rfl

@[simp] theorem Mach.setFport_same (m : Mach) (k : Nat) (x : FPort) : (m.setFport k x).fport k = x := SMap.get_set_same _ _ _ _
theorem Mach.setFport_other (m : Mach) (k : Nat) (x : FPort) {j : Nat} (h : j ≠ k) : (m.setFport k x).fport j = m.fport j :=
  SMap.get_set_other _ _ _ h _
@[simp] theorem Mach.setFport_val (m : Mach) (k : Nat) (x : FPort) (e : Entry) (j : Nat) : (m.setFport k x).val e j = m.val e j := rfl
@[simp] theorem Mach.setFport_rd (m : Mach) (k : Nat) (x : FPort) (e : Entry) (j : Nat) : (m.setFport k x).rd e j = m.rd e j := rfl
@[simp] theorem Mach.setVal_fport (m : Mach) (e : Entry) (k : Nat) (v : Val) (j : Nat) : (m.setVal e k v).fport j = m.fport j := rfl
@[simp] theorem Mach.wr_fport (m : Mach) (e : Entry) (k n j : Nat) : (m.wr e k n).fport j = m.fport j := rfl
@[simp] theorem Mach.inc_fport (m : Mach) (e : Entry) (k n j : Nat) : (m.inc e k n).fport j = m.fport j := rfl

@[simp] theorem Mach.setPin_same (m : Mach) (k : Nat) (x : Pin) : (m.setPin k x).pin k = x := SMap.get_set_same _ _ _ _
theorem Mach.setPin_other (m : Mach) (k : Nat) (x : Pin) {j : Nat} (h : j ≠ k) : (m.setPin k x).pin j = m.pin j :=
  SMap.get_set_other _ _ _ h _
@[simp] theorem Mach.setPin_val (m : Mach) (k : Nat) (x : Pin) (e : Entry) (j : Nat) : (m.setPin k x).val e j = m.val e j := rfl
@[simp] theorem Mach.setPin_rd (m : Mach) (k : Nat) (x : Pin) (e : Entry) (j : Nat) : (m.setPin k x).rd e j = m.rd e j := rfl
@[simp] theorem Mach.setVal_pin (m : Mach) (e : Entry) (k : Nat) (v : Val) (j : Nat) : (m.setVal e k v).pin j = m.pin j := rfl
@[simp] theorem Mach.wr_pin (m : Mach) (e : Entry) (k n j : Nat) : (m.wr e k n).pin j = m.pin j := rfl
@[simp] theorem Mach.inc_pin (m : Mach) (e : Entry) (k n j : Nat) : (m.inc e k n).pin j = m.pin j := rfl

@[simp] theorem Mach.setTask_same (m : Mach) (k : Nat) (x : Task) : (m.setTask k x).task k = x := SMap.get_set_same _ _ _ _
theorem Mach.setTask_other (m : Mach) (k : Nat) (x : Task) {j : Nat} (h : j ≠ k) : (m.setTask k x).task j = m.task j :=
  SMap.get_set_other _ _ _ h _
@[simp] theorem Mach.setTask_val (m : Mach) (k : Nat) (x : Task) (e : Entry) (j : Nat) : (m.setTask k x).val e j = m.val e j := rfl
@[simp] theorem Mach.setTask_rd (m : Mach) (k : Nat) (x : Task) (e : Entry) (j : Nat) : (m.setTask k x).rd e j = m.rd e j := rfl
@[simp] theorem Mach.setVal_task (m : Mach) (e : Entry) (k : Nat) (v : Val) (j : Nat) : (m.setVal e k v).task j = m.task j := rfl
@[simp] theorem Mach.wr_task (m : Mach) (e : Entry) (k n j : Nat) : (m.wr e k n).task j = m.task j := rfl
@[simp] theorem Mach.inc_task (m : Mach) (e : Entry) (k n j : Nat) : (m.inc e k n).task j = m.task j := rfl

@[simp] theorem Mach.setPosc_same (m : Mach) (k : Nat) (x : PosChan) : (m.setPosc k x).posc k = x := SMap.get_set_same _ _ _ _
theorem Mach.setPosc_other (m : Mach) (k : Nat) (x : PosChan) {j : Nat} (h : j ≠ k) : (m.setPosc k x).posc j = m.posc j :=
  SMap.get_set_other _ _ _ h _
@[simp] theorem Mach.setPosc_val (m : Mach) (k : Nat) (x : PosChan) (e : Entry) (j : Nat) : (m.setPosc k x).val e j = m.val e j := rfl
@[simp] theorem Mach.setPosc_rd (m : Mach) (k : Nat) (x : PosChan) (e : Entry) (j : Nat) : (m.setPosc k x).rd e j = m.rd e j := rfl
@[simp] theorem Mach.setVal_posc (m : Mach) (e : Entry) (k : Nat) (v : Val) (j : Nat) : (m.setVal e k v).posc j = m.posc j := rfl
@[simp] theorem Mach.wr_posc (m : Mach) (e : Entry) (k n j : Nat) : (m.wr e k n).posc j = m.posc j := rfl
@[simp] theorem Mach.inc_posc (m : Mach) (e : Entry) (k n j : Nat) : (m.inc e k n).posc j = m.posc j := rfl

@[simp] theorem Mach.setMg_same (m : Mach) (k : Nat) (x : Sequencer) : (m.setMg k x).mg k = x := SMap.get_set_same _ _ _ _
theorem Mach.setMg_other (m : Mach) (k : Nat) (x : Sequencer) {j : Nat} (h : j ≠ k) : (m.setMg k x).mg j = m.mg j :=
  SMap.get_set_other _ _ _ h _
@[simp] theorem Mach.setMg_val (m : Mach) (k : Nat) (x : Sequencer) (e : Entry) (j : Nat) : (m.setMg k x).val e j = m.val e j := rfl
@[simp] theorem Mach.setMg_rd (m : Mach) (k : Nat) (x : Sequencer) (e : Entry) (j : Nat) : (m.setMg k x).rd e j = m.rd e j := rfl
@[simp] theorem Mach.setVal_mg (m : Mach) (e : Entry) (k : Nat) (v : Val) (j : Nat) : (m.setVal e k v).mg j = m.mg j := rfl
@[simp] theorem Mach.wr_mg (m : Mach) (e : Entry) (k n j : Nat) : (m.wr e k n).mg j = m.mg j := rfl
@[simp] theorem Mach.inc_mg (m : Mach) (e : Entry) (k n j : Nat) : (m.inc e k n).mg j = m.mg j := rfl

@[simp] theorem Mach.setVport_same (m : Mach) (k : Nat) (x : ValvePort) : (m.setVport k x).vport k = x := SMap.get_set_same _ _ _ _
theorem Mach.setVport_other (m : Mach) (k : Nat) (x : ValvePort) {j : Nat} (h : j ≠ k) : (m.setVport k x).vport j = m.vport j :=
  SMap.get_set_other _ _ _ h _
@[simp] theorem Mach.setVport_val (m : Mach) (k : Nat) (x : ValvePort) (e : Entry) (j : Nat) : (m.setVport k x).val e j = m.val e j := rfl
@[simp] theorem Mach.setVport_rd (m : Mach) (k : Nat) (x : ValvePort) (e : Entry) (j : Nat) : (m.setVport k x).rd e j = m.rd e j := rfl
@[simp] theorem Mach.setVal_vport (m : Mach) (e : Entry) (k : Nat) (v : Val) (j : Nat) : (m.setVal e k v).vport j = m.vport j := rfl
@[simp] theorem Mach.wr_vport (m : Mach) (e : Entry) (k n j : Nat) : (m.wr e k n).vport j = m.vport j := rfl
@[simp] theorem Mach.inc_vport (m : Mach) (e : Entry) (k n j : Nat) : (m.inc e k n).vport j = m.vport j := rfl

/-! ### Dictionary entries -/

/-- Two entries of one block at different subindices never share a key. -/
theorem Entry.key_ne {e e' : Entry} (h : e.subs = 1) (h' : e'.subs = 1) (b : e.base = e'.base) (s : e.sub ≠ e'.sub) (k : Nat) :
    e.key k ≠ e'.key k := by simp [Entry.key, h, h', b, s]

@[simp] theorem Mach.emit_val (m : Mach) (o : Out) (e : Entry) (k : Nat) : (m.emit o).val e k = m.val e k := rfl
@[simp] theorem Mach.emit_rd (m : Mach) (o : Out) (e : Entry) (k : Nat) : (m.emit o).rd e k = m.rd e k := rfl
@[simp] theorem Mach.emit_out (m : Mach) (o : Out) : (m.emit o).out = m.out ++ [o] := rfl
@[simp] theorem Mach.setVal_val (m : Mach) (e : Entry) (k : Nat) (v : Val) : (m.setVal e k v).val e k = v :=
  SMap.get_set_same _ _ _ _
theorem Mach.setVal_val_other (m : Mach) (e : Entry) (k : Nat) (v : Val) {e' : Entry} {k' : Nat} (h : e'.key k' ≠ e.key k) :
    (m.setVal e k v).val e' k' = m.val e' k' := SMap.get_set_other _ _ _ h _
@[simp] theorem Mach.wr_rd (m : Mach) (e : Entry) (k n : Nat) : (m.wr e k n).rd e k = n % 2 ^ (8 * e.ty.bytes) := by
  simp [Mach.wr, Mach.rd, Val.toNat]
theorem Mach.wr_rd_other (m : Mach) (e : Entry) (k n : Nat) {e' : Entry} {k' : Nat} (h : e'.key k' ≠ e.key k) :
    (m.wr e k n).rd e' k' = m.rd e' k' := by
  simp [Mach.wr, Mach.rd, Mach.setVal_val_other m e k _ h]
@[simp] theorem Mach.inc_rd (m : Mach) (e : Entry) (k n : Nat) :
    (m.inc e k n).rd e k = (m.rd e k + n) % 2 ^ (8 * e.ty.bytes) := Mach.wr_rd _ _ _ _
theorem Mach.inc_rd_other (m : Mach) (e : Entry) (k n : Nat) {e' : Entry} {k' : Nat} (h : e'.key k' ≠ e.key k) :
    (m.inc e k n).rd e' k' = m.rd e' k' := Mach.wr_rd_other m e k _ h
@[simp] theorem Mach.wrB_rdB (m : Mach) (e : Entry) (k : Nat) (b : Bytes) : (m.wrB e k b).rdB e k = b := by
  simp [Mach.wrB, Mach.rdB, Val.toBytes]
@[simp] theorem Mach.toDefault_val (m : Mach) (e : Entry) (k : Nat) : (m.toDefault e k).val e k = e.dflt :=
  SMap.get_del_same _ _ _

end Sys2Proof.Machine
end

