-- ==== Sys2Proof/Laws/Outcome.lean ====
section
/-! SUPPORT. What the shared operations answer: which of them touch the module alone, and which also HBM. -/

namespace Sys2Proof.Machine

/-! ### Outcomes on the module and on HBM -/

theorem State.onMach_of_ok (s : State) {ok : Bool} (h : ok = true) (f : Mach → Mach) :
    s.onMach ok f = .next { s with m := f s.m } := by simp [State.onMach, h]

theorem State.onMach_next {s t : State} {ok : Bool} {f : Mach → Mach} (h : s.onMach ok f = .next t) :
    ok = true ∧ t = { s with m := f s.m } := by
  unfold State.onMach at h
  split at h
  · next hk => injection h with h; exact ⟨hk, h.symm⟩
  · cases h

theorem State.onAll_of_ok (s : State) {ok : Bool} (h : ok = true) (f : Memory → Mach → Memory × Mach) :
    s.onAll ok f = .next { s with hbm := (f s.hbm s.m).1, m := (f s.hbm s.m).2 } := by simp [State.onAll, h]

theorem State.onAll_next {s t : State} {ok : Bool} {f : Memory → Mach → Memory × Mach} (h : s.onAll ok f = .next t) :
    ok = true ∧ t = { s with hbm := (f s.hbm s.m).1, m := (f s.hbm s.m).2 } := by
  unfold State.onAll at h
  split at h
  · next hk => injection h with h; exact ⟨hk, h.symm⟩
  · cases h

@[simp] theorem Mach.when_true (m : Mach) (f : Mach → Mach) : m.when true f = f m := rfl
@[simp] theorem Mach.when_false (m : Mach) (f : Mach → Mach) : m.when false f = m := rfl

/-! ### States that differ in the module alone -/

theorem State.sameRest.refl (s : State) : s.sameRest s := ⟨rfl, rfl⟩
theorem State.sameRest.trans {s t u : State} (a : s.sameRest t) (b : t.sameRest u) : s.sameRest u :=
  ⟨b.1.trans a.1, b.2.trans a.2⟩
theorem State.sameRest.mach (s : State) (m : Mach) : s.sameRest { s with m := m } := ⟨rfl, rfl⟩
theorem State.sameRest.thenMach {s t : State} (a : s.sameRest t) (m : Mach) : s.sameRest { t with m := m } := a

theorem State.sameRest.ite {s t u : State} {c : Prop} [Decidable c] (a : s.sameRest t) (b : s.sameRest u) :
    s.sameRest (if c then t else u) := by split <;> assumption

theorem State.onMach_sameRest {s t : State} {ok : Bool} {f : Mach → Mach} (h : s.onMach ok f = .next t) : s.sameRest t := by
  rw [(State.onMach_next h).2]; exact .mach s _

theorem State.ran_sameRest {s : State} {o : Host.Outcome State Fault Refusal} (h : ∀ t, o = .next t → s.sameRest t) :
    s.sameRest (s.ran o) := by
  unfold State.ran
  split
  · exact h _ rfl
  · exact .refl s

theorem State.ran_onMach_sameRest (s u : State) (hu : s.sameRest u) (ok : Bool) (f : Mach → Mach) :
    s.sameRest (s.ran (u.onMach ok f)) :=
  State.ran_sameRest fun _ h => hu.trans (State.onMach_sameRest h)

/-! ### Dictionary writes touch the module alone -/

theorem State.writeStreams_sameRest (s : State) (path : Nat) (e : Entry) (k : Nat) (data : Bytes) :
    s.sameRest (s.writeStreams path e k data) := by
  unfold State.writeStreams
  extract_lets
  repeat' first | with_reducible refine State.sameRest.ite ?_ ?_ | split
  all_goals first | exact .mach s _ | exact State.ran_onMach_sameRest s s (.refl s) _ _

theorem State.writeIo_sameRest (s : State) (path : Nat) (e : Entry) (k : Nat) (data : Bytes) :
    s.sameRest (s.writeIo path e k data) := by
  unfold State.writeIo
  extract_lets
  repeat' first | with_reducible refine State.sameRest.ite ?_ ?_ | split
  all_goals first
    | exact .mach s _
    | exact State.ran_onMach_sameRest s s (.refl s) _ _
    | exact State.ran_onMach_sameRest s _ (.mach s _) _ _

theorem State.writeLinks_sameRest (s : State) (path : Nat) (e : Entry) (k : Nat) (data : Bytes) :
    s.sameRest (s.writeLinks path e k data) := by
  unfold State.writeLinks
  extract_lets
  repeat' first | with_reducible refine State.sameRest.ite ?_ ?_ | split
  all_goals first | exact .mach s _ | exact State.ran_onMach_sameRest s s (.refl s) _ _

/-- A dictionary write changes the module alone. -/
theorem State.write_sameRest (s : State) (path index sub : Nat) (data : Bytes) : s.sameRest (s.write path index sub data) := by
  unfold State.write
  repeat' first | with_reducible refine State.sameRest.ite ?_ ?_ | split
  all_goals first
    | exact .refl s
    | exact .mach s _
    | exact State.writeStreams_sameRest s path _ _ data
    | exact State.writeIo_sameRest s path _ _ data
    | exact State.writeLinks_sameRest s path _ _ data

theorem State.keepBuffer_sameRest (s : State) (path : Nat) (a : Option Accum) (index sub : Nat) :
    s.sameRest (s.keepBuffer path a index sub).1 := by
  unfold State.keepBuffer
  split
  · exact .refl s
  · split
    · exact .refl s
    · exact .mach s _

theorem State.writePart_sameRest (s : State) (path : Nat) (acc : Option Accum) (index sub offset : Nat) (last : Bool)
    (data : Bytes) : s.sameRest (s.writePart path acc index sub offset last data).1 := by
  unfold State.writePart
  extract_lets
  split
  · exact State.write_sameRest s path index sub data
  · split
    · exact .mach s _
    · split
      · refine State.sameRest.trans ?_ (State.write_sameRest _ path index sub _)
        exact .thenMach (State.sameRest.ite (.mach s _) (.refl s)) _
      · exact .thenMach (State.sameRest.ite (.mach s _) (.refl s)) _

/-! ### The mailbox, the fabric path, CAN FD and the gateway -/

/-- A buffer is kept or discarded, and then the module changes. -/
theorem State.kept_sameRest (s u : State) (h : s.sameRest u) (path : Nat) (a : Option Accum) (index sub : Nat) (m : Mach) :
    s.sameRest { (u.keepBuffer path a index sub).1 with m := m } :=
  State.sameRest.thenMach (h.trans (State.keepBuffer_sameRest u path a index sub)) m

/-- The same, and then a part of a write is made. -/
theorem State.keptWrite_sameRest (s u : State) (h : s.sameRest u) (path : Nat) (a : Option Accum) (index sub : Nat) (m : Mach)
    (path' : Nat) (acc : Option Accum) (index' sub' offset : Nat) (last : Bool) (data : Bytes) :
    s.sameRest (({ (u.keepBuffer path a index sub).1 with m := m } : State).writePart path' acc index' sub' offset last data).1 :=
  .trans (State.kept_sameRest s u h path a index sub m) (State.writePart_sameRest _ path' acc index' sub' offset last data)

theorem State.mbServe_sameRest (s : State) (r : DictReq) : s.sameRest (s.mbServe r) := by
  unfold State.mbServe
  refine .ite ?_ ?_
  · exact State.kept_sameRest s _ (.mach s _) 0 _ _ _ _
  · refine .ite (State.keptWrite_sameRest s _ (.mach s _) 0 _ _ _ _ 0 _ _ _ _ _ _) ?_
    dsimp only
    split <;> exact .thenMach (State.keptWrite_sameRest s _ (.mach s _) 0 _ _ _ _ 0 _ _ _ _ _ _) _

theorem State.mbTake_sameRest (s : State) : s.sameRest s.mbTake := by
  unfold State.mbTake
  split
  · exact .refl s
  · refine .ite (.refl s) (.ite (.mach s _) (.ite ?_ (.mach s _)))
    exact State.mbServe_sameRest s _

theorem State.mbGo_sameRest (s : State) (op tag : Nat) : s.sameRest (s.mbGo op tag) := by
  unfold State.mbGo
  refine .ite (.mach s _) (.ite (.refl s) (.ite (.trans (.mach s _) (State.mbTake_sameRest _)) (.mach s _)))

theorem State.serveFabric_sameRest (s : State) (src : Nat) (b : Bytes) : s.sameRest (s.serveFabric src b).2.2 := by
  unfold State.serveFabric
  extract_lets
  split
  · exact State.kept_sameRest s _ (.mach s _) 2 _ _ _ _
  · split
    · exact State.kept_sameRest s _ (.mach s _) 2 _ _ _ _
    · split
      · refine .thenMach (State.sameRest.trans ?_ (State.writePart_sameRest _ 2 _ _ _ _ _ _)) _
        exact State.kept_sameRest s _ (.mach s _) 2 _ _ _ _
      · exact State.kept_sameRest s _ (.mach s _) 2 _ _ _ _

theorem State.onDictRequest_sameRest (s : State) (f : FabMsg) : s.sameRest (s.onDictRequest f) := by
  unfold State.onDictRequest
  split
  · exact .refl s
  · extract_lets
    split
    · exact .refl s
    · split
      · exact .mach s _
      · split <;> exact .thenMach (State.serveFabric_sameRest s _ _) _

theorem State.usdoWrite_sameRest (s : State) (index sub : Nat) (data : Bytes) : s.sameRest (s.usdoWrite index sub data) := by
  unfold State.usdoWrite
  dsimp only
  split <;> exact .thenMach (State.sameRest.trans (.mach s _) (State.write_sameRest _ 1 index sub data)) _

theorem State.gwServe_sameRest (s : State) (r : DictReq) : s.sameRest (s.gwServe r) := by
  unfold State.gwServe
  refine .ite ?_ ?_
  · exact State.kept_sameRest s _ (.mach s _) 3 _ _ _ _
  · dsimp only
    split <;> exact .thenMach (State.keptWrite_sameRest s _ (.mach s _) 3 _ _ _ _ 3 _ _ _ _ _ _) _

theorem State.applyOrphans_sameRest (s : State) : s.sameRest s.applyOrphans := by
  unfold State.applyOrphans
  refine .thenMach ?_ _
  generalize s.m.pair.orphans = l
  induction l generalizing s with
  | nil => exact .refl s
  | cons w l ih => exact .trans (.thenMach (State.write_sameRest s 4 _ _ _) _) (ih _)

theorem State.settleWides_sameRest (s : State) : s.sameRest s.settleWides := by
  unfold State.settleWides
  exact .thenMach (State.sameRest.ite (.refl s) (State.applyOrphans_sameRest s)) _

theorem State.gwGo_sameRest (s : State) (op tag : Nat) : s.sameRest (s.gwGo op tag) := by
  unfold State.gwGo
  refine .ite (.refl s) (.ite (.mach s _) (.ite (.mach s _) ?_))
  exact State.gwServe_sameRest s _

theorem State.pointerStore_sameRest (s : State) (p : Nat) (b : Byte) : s.sameRest (s.pointerStore p b) := by
  unfold State.pointerStore
  refine .ite (.mach s _) (.ite (.mach s _) (.ite (.mach s _) (.ite (.mach s _) (.ite (.mach s _) (.ite ?_ (.ite (.mach s _) (.refl s)))))))
  exact State.gwGo_sameRest s _ _

theorem State.twiWrite_sameRest (s : State) (v : Nat) : s.sameRest (s.twiWrite v) := by
  unfold State.twiWrite
  refine .ite (.refl s) (.ite (.mach s _) (.ite (.refl s) (.ite (.mach s _) ?_)))
  exact .thenMach (State.sameRest.thenMach (State.pointerStore_sameRest s _ _) _) _

/-! ### BAR0 -/

theorem State.writeWord_sameRest (s : State) (o v : Nat) : s.sameRest (s.writeWord o v) := by
  unfold State.writeWord
  refine .ite (State.ran_onMach_sameRest s s (.refl s) _ _) ?_
  refine .ite (.mach s _) (.ite (.mach s _) (.ite (.mach s _) (.ite (.mach s _) (.ite (.mach s _) (.ite (.mach s _) (.ite (.mach s _) ?_))))))
  refine .ite (State.mbGo_sameRest s _ _) (.ite (.mach s _) (.ite (.mach s _) ?_))
  refine .ite (State.ran_onMach_sameRest s s (.refl s) _ _) (.ite (State.ran_onMach_sameRest s s (.refl s) _ _) ?_)
  exact .ite (State.ran_onMach_sameRest s s (.refl s) _ _) (.ite (.mach s _) (.refl s))

/-! ### What reception does to HBM -/

theorem Memory.wf_ite {h k : Memory} {c : Prop} [Decidable c] (a : h.wf = true) (b : k.wf = true) :
    (if c then h else k).wf = true := by split <;> assumption

theorem writeLine_wf {h : Memory} (w : h.wf = true) (m : Mach) (s : Nat) (l : LineOut) (p : Nat) :
    (Mach.writeLine h m s l p).1.wf = true := by
  unfold Mach.writeLine
  dsimp only
  exact Memory.wf_writeBytes (Memory.wf_ite w (Memory.wf_ite (Memory.wf_writeBytes w _ _) (Memory.wf_writeBytes w _ _))) _ _

theorem applyRx_wf (s : Nat) (l : List RxOut) {hm : Memory × Mach} (w : hm.1.wf = true) : (applyRx s l hm).1.wf = true := by
  induction l generalizing hm with
  | nil => exact w
  | cons o os ih =>
    unfold applyRx
    apply ih
    cases o
    case line l => dsimp only; exact writeLine_wf w _ _ _ _
    all_goals (dsimp only; exact w)

theorem onPixel_wf {h : Memory} (w : h.wf = true) (m : Mach) (p : Nat) (k : Hdr) (bad : Bool) (t1 t2 : TW64) :
    (onPixel h m p k bad t1 t2).1.wf = true := by
  unfold onPixel
  extract_lets
  split
  · exact applyRx_wf _ _ w
  · split <;> exact w

theorem Memory.wf_iteFst {a b : Memory × Mach} {c : Prop} [Decidable c] (x : a.1.wf = true) (y : b.1.wf = true) :
    (if c then a else b).1.wf = true := by split <;> assumption

theorem receive_wf (p : Nat) (b : Bytes) (hd pd : Bool) (t1 t2 : TW64) {h : Memory} (w : h.wf = true) (m : Mach) :
    (receive p b hd pd t1 t2 h m).1.wf = true := by
  unfold receive
  extract_lets
  refine Memory.wf_iteFst w (Memory.wf_iteFst w (Memory.wf_iteFst w (Memory.wf_iteFst w (Memory.wf_iteFst w (Memory.wf_iteFst w ?_)))))
  refine Memory.wf_iteFst w (Memory.wf_iteFst w ?_)
  exact onPixel_wf w _ _ _ _ _ _

theorem giveFar_wf (s : Nat) (c : RxCfg) (l : LineOut) {h : Memory} (w : h.wf = true) (m : Mach) :
    (giveFar s c l h m).1.wf = true := applyRx_wf _ _ w

theorem endFar_wf (s : Nat) (c : RxCfg) {h : Memory} (w : h.wf = true) (m : Mach) :
    (endFar s c h m).1.wf = true := by
  unfold endFar
  split
  · exact w
  · exact giveFar_wf _ _ _ w _

theorem onLine_wf (f : FabMsg) {h : Memory} (w : h.wf = true) (m : Mach) : (onLine f h m).1.wf = true := by
  unfold onLine
  split
  · exact w
  · next s _ =>
    split
    · exact w
    · extract_lets c time arr frame line part last missing same
      have hw : (if same then (h, m) else endFar s c h m).1.wf = true :=
        Memory.wf_iteFst w (endFar_wf s c w m)
      revert hw
      generalize (if same then (h, m) else endFar s c h m) = r
      intro hw
      obtain ⟨h1, m1⟩ := r
      dsimp only at hw ⊢
      split
      · exact giveFar_wf _ _ _ hw _
      · exact hw

theorem onPos_wf (s f l pos : Nat) {h : Memory} (w : h.wf = true) (m : Mach) : (onPos s f l pos h m).1.wf = true := by
  unfold onPos
  dsimp only
  split
  · dsimp only; exact Memory.wf_writeBytes w _ _
  · exact w

theorem foldl_wf (f : Memory × Mach → Nat → Memory × Mach) (hf : ∀ r i, r.1.wf = true → (f r i).1.wf = true) (l : List Nat)
    {r : Memory × Mach} (w : r.1.wf = true) : (l.foldl f r).1.wf = true := by
  induction l generalizing r with
  | nil => exact w
  | cons i t ih => exact ih (hf r i w)

theorem onPosStamp_wf (f : FabMsg) {h : Memory} (w : h.wf = true) (m : Mach) : (onPosStamp f h m).1.wf = true := by
  unfold onPosStamp
  refine Memory.wf_iteFst w (foldl_wf _ (fun r i hr => ?_) _ w)
  exact Memory.wf_iteFst (onPos_wf _ _ _ _ hr _) hr

/-! ### Frames: the queue stays, and HBM keeps its canonical form -/

/-- The queue is unchanged, and HBM keeps the canonical form. -/
def State.keepsForm (s t : State) : Prop := t.pending = s.pending ∧ (s.hbm.wf = true → t.hbm.wf = true)

theorem State.sameRest.keepsForm {s t : State} (h : s.sameRest t) : s.keepsForm t := ⟨h.1, fun w => h.2 ▸ w⟩
theorem State.keepsForm.refl (s : State) : s.keepsForm s := ⟨rfl, id⟩
theorem State.keepsForm.trans {s t u : State} (a : s.keepsForm t) (b : t.keepsForm u) : s.keepsForm u :=
  ⟨b.1.trans a.1, fun w => b.2 (a.2 w)⟩

theorem State.keepsForm.ite {s t u : State} {c : Prop} [Decidable c] (a : s.keepsForm t) (b : s.keepsForm u) :
    s.keepsForm (if c then t else u) := by split <;> assumption
theorem State.keepsForm.mach (s : State) (m : Mach) : s.keepsForm { s with m := m } := (State.sameRest.mach s m).keepsForm
theorem State.keepsForm.thenMach {s t : State} (a : s.keepsForm t) (m : Mach) : s.keepsForm { t with m := m } := a

theorem State.onWide_sameRest (s : State) (a path num key : Nat) (data : Bytes) : s.sameRest (s.onWide a path num key data) := by
  have h := State.write_sameRest s 4 (key / 256 % 65536) (key % 256) data
  unfold State.onWide
  exact .ite (.thenMach h _) (.ite (.thenMach h _) (.thenMach h _))

theorem State.onConfig_sameRest (s : State) (f : FabMsg) : s.sameRest (s.onConfig f) := by
  unfold State.onConfig
  refine .ite (.refl s) (.ite (.ite (.refl s) (.ite (.mach s _) (.ite (.mach s _) ?_))) (.ite ?_ (.ite ?_ (.refl s))))
  · exact .trans (.trans (.mach s _) (State.onWide_sameRest _ _ _ _ _ _)) (State.settleWides_sameRest _)
  · exact .trans (.mach s _) (State.settleWides_sameRest _)
  · exact State.ran_onMach_sameRest s s (.refl s) _ _

theorem State.pairKind_keepsForm (s : State) (p : Nat) (f : FabMsg) : s.keepsForm (s.pairKind p f) := by
  unfold State.pairKind
  refine .ite (.mach s _) (.ite (.mach s _) (.ite (.mach s _) (.ite (.mach s _) (.ite (.mach s _) (.ite ?_ ?_)))))
  · exact ⟨rfl, fun w => onPosStamp_wf f w s.m⟩
  · refine .ite (.mach s _) (.ite (.mach s _) (.ite ?_ (.ite (.mach s _) (.ite (.mach s _) (.refl s)))))
    exact (State.onConfig_sameRest s f).keepsForm

theorem State.onPairFrame_keepsForm (s : State) (p : Nat) (f : FabMsg) : s.keepsForm (s.onPairFrame p f) := by
  unfold State.onPairFrame
  refine .ite (.refl s) (.ite (.mach s _) (.ite ?_ (.trans (.mach s _) (State.pairKind_keepsForm _ p f))))
  exact .thenMach (State.keepsForm.ite (.mach s _) (.trans (.mach s _) (State.pairKind_keepsForm _ p f))) _

theorem State.deliver_keepsForm (s : State) (p : Nat) (t : TW64) (f : FabMsg) : s.keepsForm (s.deliver p t f) := by
  unfold State.deliver
  refine .ite (.mach s _) (.ite (.mach s _) (.ite (.mach s _) (.ite (.mach s _) (.ite (.mach s _) (.ite (.mach s _) (.ite ?_ ?_))))))
  · exact ⟨rfl, fun w => onLine_wf f w s.m⟩
  · refine .ite (.mach s _) (.ite (.mach s _) (.ite (.mach s _) (.ite (.mach s _) (.ite (.mach s _) (.ite ?_ ?_)))))
    · exact (State.onDictRequest_sameRest s f).keepsForm
    · refine .ite (.mach s _) (.ite (.mach s _) (.ite (.mach s _) (.ite (.mach s _) (.ite (.mach s _) (.ite ?_ (.refl s))))))
      exact State.onPairFrame_keepsForm s p f

theorem State.frameIn_keepsForm (s : State) (p : Nat) (b : Bytes) (damaged : Bool) (t : TW64) :
    s.keepsForm (s.frameIn p b damaged t) := by
  unfold State.frameIn
  simp only
  split
  · exact State.keepsForm.trans (State.sameRest.mach s _).keepsForm (State.deliver_keepsForm _ p t _)
  · exact (State.sameRest.mach s _).keepsForm

/-- A frame command answers a next state or names a port that does not exist. -/
theorem State.kindIn_cases (s : State) (kind p : Nat) (b : Bytes) (t : TW64) :
    (p < 96 ∧ (s.kindIn kind p b t = .next s ∨ s.kindIn kind p b t = .next (s.frameIn p b false t))) ∨
    (¬ p < 96 ∧ s.kindIn kind p b t = .fault .noSuchResource) := by
  unfold State.kindIn
  split
  · next h => split <;> simp [h]
  · next h => exact .inr ⟨h, rfl⟩

theorem State.timeIn_cases (s : State) (msg p : Nat) (b : Bytes) (t : TW64) :
    (p < 96 ∧ (s.timeIn msg p b t = .next s ∨ s.timeIn msg p b t = .next (s.frameIn p b false t))) ∨
    (¬ p < 96 ∧ s.timeIn msg p b t = .fault .noSuchResource) := by
  unfold State.timeIn
  split
  · next h => split <;> simp [h]
  · next h => exact .inr ⟨h, rfl⟩

theorem State.pairIn_cases (s : State) (kind : Nat) (b : Bytes) (t : TW64) :
    s.pairIn kind b t = .next s ∨ ∃ p, s.m.xlinkPort = some p ∧ s.pairIn kind b t = .next (s.frameIn p b false t) := by
  unfold State.pairIn
  split
  · next p hp => split <;> simp [hp]
  · exact .inl rfl

theorem State.kindIn_keepsForm {s u : State} {kind p : Nat} {b : Bytes} {t : TW64} (h : s.kindIn kind p b t = .next u) :
    s.keepsForm u := by
  rcases s.kindIn_cases kind p b t with ⟨_, e | e⟩ | ⟨_, e⟩ <;> rw [e] at h <;> cases h
  · exact State.keepsForm.refl s
  · exact s.frameIn_keepsForm p b false t

theorem State.timeIn_keepsForm {s u : State} {msg p : Nat} {b : Bytes} {t : TW64} (h : s.timeIn msg p b t = .next u) :
    s.keepsForm u := by
  rcases s.timeIn_cases msg p b t with ⟨_, e | e⟩ | ⟨_, e⟩ <;> rw [e] at h <;> cases h
  · exact State.keepsForm.refl s
  · exact s.frameIn_keepsForm p b false t

theorem State.pairIn_keepsForm {s u : State} {kind : Nat} {b : Bytes} {t : TW64} (h : s.pairIn kind b t = .next u) :
    s.keepsForm u := by
  rcases s.pairIn_cases kind b t with e | ⟨p, _, e⟩ <;> rw [e] at h <;> cases h
  · exact State.keepsForm.refl s
  · exact s.frameIn_keepsForm p b false t

end Sys2Proof.Machine
end

