-- ==== Sys2Proof/Laws/Commands.lean ====
section
/-! SUPPORT. What a write of an entry does once its gate is known to be open or shut (R403, R426, R428, R435, R438), and the outcome of a
command whose resources exist. -/

namespace Sys2Proof.Machine

/-! ### The gate of a write -/

theorem State.mayWrite_iff {s : State} {path index sub value : Nat} :
    s.mayWrite path index sub value = true ↔ path < 5 ∧ s.m.serves path = true ∧ s.m.permitted path index sub value = true := by
  simp [State.mayWrite, and_assoc]

theorem Mach.command_unserved {m : Mach} {path : Nat} (h : m.serves path = false) (index sub : Nat) (data : Bytes) (ok : Bool)
    (f : Mach → Mach) : m.command path index sub data ok f = m := by simp [Mach.command, h]

theorem Mach.command_wrongState {m : Mach} {path : Nat} (h : m.serves path = true) (index sub : Nat) (data : Bytes) (f : Mach → Mach) :
    m.command path index sub data false f = m.tally path index sub 8 data := by simp [Mach.command, h]

theorem Mach.command_barred {m : Mach} {path index sub : Nat} {data : Bytes} (h : m.serves path = true)
    (hp : m.permitted path index sub (leNat (data.take 8)) = false) (f : Mach → Mach) :
    m.command path index sub data true f = m.tally path index sub 9 data := by simp [Mach.command, h, hp]

theorem Mach.command_open {m : Mach} {path index sub : Nat} {data : Bytes} {ok : Bool} (h : m.serves path = true) (hk : ok = true)
    (hp : m.permitted path index sub (leNat (data.take 8)) = true) (f : Mach → Mach) :
    m.command path index sub data ok f = m.wide path index sub data f := by simp [Mach.command, h, hk, hp]

theorem Mach.keyed_open {m : Mach} {path : Nat} {e : Entry} {k key : Nat} {data : Bytes} {ok : Bool} (hv : writtenInt e.ty data = key)
    (h : m.serves path = true) (hk : ok = true) (hp : m.permitted path (e.at k).1 (e.at k).2 (leNat (data.take 8)) = true)
    (f : Mach → Mach) : m.keyed path e k data ok key f = m.wide path (e.at k).1 (e.at k).2 data f := by
  simp only [Mach.keyed, hv, if_true]; exact Mach.command_open h hk hp f

theorem Mach.writeEntry_open {m : Mach} {path : Nat} {e : Entry} {k : Nat} {data : Bytes} (h : m.serves path = true)
    (he : e.acc ≠ .ro ∧ e.acc ≠ .const) (hb : m.blocked e k = false)
    (hp : m.permitted path (e.at k).1 (e.at k).2 (leNat (data.take 8)) = true) (after : Mach → Mach → Mach) :
    m.writeEntry path e k data after = m.wide path (e.at k).1 (e.at k).2 data fun m => after m (m.putEntry path e k data) := by
  have hn : ¬(e.acc = .ro ∨ e.acc = .const) := fun c => c.elim he.1 he.2
  simp only [Mach.writeEntry, h, if_neg hn]
  exact Mach.command_open h (by simp [hb]) hp _

/-- A write that is not passed across the pair has its own effect alone (R403). -/
theorem Mach.wide_own {m : Mach} {path index sub : Nat} (h : pairWide index sub = false ∨ m.xlinkUp = false ∨ path = 4) (data : Bytes)
    (f : Mach → Mach) : m.wide path index sub data f = f m := by
  rcases h with h | h | h <;> simp [Mach.wide, Mach.isWide, h]

/-! ### Completion -/

/-- A command on the module whose resources exist completes, with what its effect makes of the module. -/
theorem completesWith_onMach {c : Instr} {s : State} {ok : Bool} {f : Mach → Mach} {m : Mach} (hc : exec c s = s.onMach ok f)
    (hk : ok = true) (hm : f s.m = m) : completesWith c s m := by
  rw [completesWith, hc, State.onMach_of_ok s hk, hm]

end Sys2Proof.Machine
end

