-- ==== Sys2Proof/Tests/Slice0.lean ====
section
/-! SUPPORT. Tests: an ill-formed command for each check of WellFormed, small steps whose results are taken from the spec's own examples
and tables, and for each statement with hypotheses a state and operands that meet them. -/

set_option Elab.async false

namespace Sys2Proof.Tests
open Sys2Proof.Machine

/-! ### Ill-formed commands are refused -/

theorem test_bad_path : (Instr.commit 5 0).wellFormed = false := by decide
theorem test_bad_lane : (Instr.signalAcquired 96).wellFormed = false := by decide
theorem test_bad_quad : (Instr.quadPllLock 24).wellFormed = false := by decide
theorem test_bad_port : (Instr.linkSettle 96).wellFormed = false := by decide
theorem test_bad_stream : (Instr.commit 0 256).wellFormed = false := by decide
theorem test_bad_planer : (Instr.stripeStart 16).wellFormed = false := by decide
theorem test_bad_profile : (Instr.tableActivate 64 1).wellFormed = false := by decide
theorem test_bad_table_kind : (Instr.tableActivate 0 4).wellFormed = false ∧ (Instr.tableActivate 0 0).wellFormed = false := by decide
theorem test_bad_target_sub : (Instr.mgTargetWrite 0 0 5 []).wellFormed = false := by decide
theorem test_bad_task_sub : (Instr.taskConfigWrite 0 0 5 []).wellFormed = false := by decide
theorem test_bad_vector : (Instr.msixPendingSend 2048).wellFormed = false := by decide
theorem test_bad_channel : (Instr.doorbell 128 0).wellFormed = false := by decide
theorem test_bad_position : (Instr.ampDwellExpiry 8).wellFormed = false := by decide
theorem test_bad_sequencer : (Instr.mgTimeTarget 32).wellFormed = false := by decide
theorem test_bad_ring : (Instr.decision 8 (zeros 32) 0).wellFormed = false := by decide
theorem test_bad_valve_port : (Instr.valveUpdate 8 []).wellFormed = false := by decide
theorem test_bad_pin : (Instr.dinEdge 32 true 0).wellFormed = false := by decide
theorem test_bad_task : (Instr.relayPublish 256).wellFormed = false := by decide
theorem test_bad_island : (Instr.islandRecovered 54).wellFormed = false := by decide
theorem test_bad_sensor : (Instr.twcPoll 8).wellFormed = false := by decide
theorem test_bad_slot : (Instr.powerOn 8).wellFormed = false := by decide
theorem test_bad_code : (Instr.posSample 0 2048 0 0).wellFormed = false ∧ (Instr.posSample 0 0 (-2049) 0).wellFormed = false := by decide
theorem test_bad_eye : (Instr.eyeMeasureDone 0 1024 0 0 0).wellFormed = false ∧ (Instr.eyeMeasureDone 0 0 0 0 256).wellFormed = false := by
  decide
theorem test_bad_block : (Instr.blockReceive 0 true (zeros 31)).wellFormed = false := by decide
theorem test_bad_levels : (Instr.codewordReceive 0 [0]).wellFormed = false ∧
    (Instr.codewordReceive 0 (List.replicate 2649 0 ++ [4])).wellFormed = false := by decide +kernel
theorem test_bad_valve_bits : (Instr.valveUpdate 0 (List.replicate 4097 true)).wellFormed = false := by decide +kernel
theorem test_bad_temperature : (Instr.almanacSample [65536]).wellFormed = false := by decide
theorem test_bad_data : (Instr.tblData 0 (zeros 65537)).wellFormed = false := by decide +kernel
theorem test_bad_packet : (Instr.pixelPacket 0 (zeros 65569) false false 0 0).wellFormed = false := by decide +kernel
theorem test_bad_frame : (Instr.credit 0 (zeros 65569)).wellFormed = false := by decide +kernel
theorem test_good_commands : (Instr.commit 4 255).wellFormed = true ∧ (Instr.taskConfigWrite 3 255 6 [1]).wellFormed = true ∧
    (Instr.posSample 7 (-2048) 2047 0).wellFormed = true ∧ (Instr.powerOn 7).wellFormed = true := by decide

/-! ### Small machines -/

/-- The machine at reset, changed. -/
def at0 (f : Mach → Mach) : State := { State.reset with m := f State.reset.m }
/-- A READY machine whose network, host, hub and I/O islands run, changed. -/
def at4 (f : Mach → Mach) : State := at0 fun m => f ([0x30, 0x31, 0x32, 0x34].foldl (fun m i => m.wr E.ISLAND_STATE i 1) (m.wr E.MODULE_STATE 0 4))


/-! ### States and operands that meet the hypotheses -/

theorem witness_EmptyQueueIsATick : State.reset.pending = [] ∧ State.reset.m.life.supply = false ∧
    (at0 fun m => { m with life.supply := true }).pending = [] ∧ (at0 fun m => { m with life.supply := true }).m.life.supply = true ∧
    (at0 fun m => { m with life.supply := true }).m.pair.orphans = [] ∧ (at0 fun m => { m with life.supply := true }).m.pair.expired = false := by
  decide +kernel
theorem witness_EveryStepKeepsHbmCanonical :
    State.reset.hbmOk = true ∧ ∃ t, step State.reset = .next t := ⟨by decide, _, rfl⟩
theorem witness_WellFormedCommandsComplete : (Instr.refValidReturn true false).wellFormed = true := by decide
theorem witness_WellFormedQueuesRunSafely : (State.reset.withPending [.refHoldover, .twcRetry]).commandsOk = true := by decide
theorem witness_CommandsLeaveTheQueue : ∃ t, exec .supplyInRange State.reset = .next t := ⟨_, rfl⟩
theorem witness_OnlyMissingResourcesStop : exec (.quadPllLock 24) State.reset = .fault .noSuchResource := rfl
theorem witness_OnlyReceptionAndPowerTouchHbm :
    touchesHbm .supplyInRange = false ∧ ∃ t, exec .supplyInRange State.reset = .next t := ⟨rfl, _, rfl⟩
theorem witness_HbmRunsReadAsWritten : (Memory.wf [(0, 1), (2 ^ 37 - 1, 255)]) = true := by decide
theorem witness_EntriesReadAsWritten : E.RATE.key 0 ≠ E.OFS.key 0 ∧ E.LANE_STATE.key 95 ≠ E.LANE_STATE.key 94 := by decide

theorem witness_ReferenceCommands :
    State.reset.m.rd E.REF_SELECTED < 2 ∧ State.reset.m.rd E.REF_POLICY < 2 ∧ refChoice (State.reset.m.rd E.REF_POLICY) false false = none ∧
    refChoice (State.reset.m.rd E.REF_POLICY) false true = some 1 := by decide +kernel

/-- Lane 95 of a running quad, SEEKING, in its last dwell. -/
def laneDwell : State := at4 fun m => ((m.wr E.QUAD_ROLE 23 1).wr E.ISLAND_STATE 23 1).wr E.LANE_STATE 95 1 |>.setLane 95
  { passRun := true, passSlips := 513 }
/-- The same with every offset tried. -/
def laneTried : State := { laneDwell with m := laneDwell.m.setLane 95 { passRun := true, passSlips := 514 } }
/-- The same with block lock. -/
def laneFound : State := { laneDwell with m := laneDwell.m.wr E.BLK_LOCK 95 1 }
/-- Lane 95 in a state of its own, waiting between passes and measuring. -/
def laneIn (k : Nat) : State := at4 fun m => (((m.wr E.QUAD_ROLE 23 1).wr E.ISLAND_STATE 23 1).wr E.LANE_STATE 95 k).wr E.LOOP_MODE 95 3
  |>.setLane 95 { passWait := true, measuring := true, half := some true, pairs := 62, decoding := true, badCw := 106 }

theorem witness_LaneEvents :
    (laneIn 0).m.quadOn 23 = true ∧ (laneIn 0).m.laneState 95 = 0 ∧ (laneIn 1).m.laneState 95 ≠ 0 ∧
    (laneFound.m.lane 95).passRun = true ∧ laneFound.m.laneState 95 = 1 ∧ laneFound.m.rd E.BLK_LOCK 95 = 1 ∧
    (laneTried.m.lane 95).passRun = true ∧ laneTried.m.rd E.BLK_LOCK 95 ≠ 1 ∧ 514 ≤ (laneTried.m.lane 95).passSlips ∧
    laneDwell.m.laneState 95 = 1 ∧ laneDwell.m.rd E.BLK_LOCK 95 ≠ 1 ∧ (laneDwell.m.lane 95).passSlips < 514 ∧
    ((laneIn 2).m.lane 95).passWait = true ∧ (laneIn 2).m.laneState 95 = 2 ∧ (laneIn 2).m.rd E.BLK_LOCK 95 = 0 ∧ 106 ≤ ((laneIn 3).m.lane 95).badCw ∧
    (laneIn 3).m.laneState 95 = 3 ∧ ((laneIn 3).m.lane 95).measuring = true ∧ (laneIn 3).m.rd E.LOOP_MODE 95 = 3 := by decide +kernel

/-- A marker of the lane in its layout of R36, with its check byte. -/
def marker : Bytes := let b := [0xA5, 0x5A] ++ zeros 29; b ++ leBytes 1 (crc8 b)

/-- Lane 95 LOCKED, in loop mode 3, with blocks that wait and a place of markers at hand or not. -/
def laneRx (since : Option Nat) (blocks : List RxBlock) : State :=
  { laneIn 2 with m := (laneIn 2).m.setLane 95 { decoding := true, since := since, rxBlocks := blocks } }
/-- A block that waits. -/
def oneBlock : RxBlock := { h := false, payload := zeros 32, damaged := false }

theorem witness_LaneReception :
    (∀ v ∈ [0, 3], v < 4) ∧ (zeros 32).length = 32 ∧
    (laneRx (some 4) [oneBlock]).m.laneState 95 ≠ 0 ∧ ((laneRx (some 4) [oneBlock]).m.lane 95).rxBlocks = [oneBlock] ∧
    (laneRx (some 4) [oneBlock]).m.markerPlace 95 oneBlock = false ∧ 2 ≤ (laneRx (some 16383) [oneBlock]).m.laneState 95 ∧
    ((laneRx (some 16383) [oneBlock]).m.nextBlock 95 false (zeros 32)).1 = some oneBlock ∧
    (laneRx (some 16383) [oneBlock]).m.markerPlace 95 oneBlock = true ∧ markerOk marker = true ∧ markerOk (zeros 32) = false ∧
    ((laneIn 3).m.lane 95).half = some true ∧ idleBlock ((0x0F : Byte) :: zeros 31) = true ∧ ((laneIn 3).m.lane 95).pairs < 63 ∧
    ((laneRx none []).m.lane 95).half = none ∧ (laneRx none []).m.rd E.LOOP_MODE 95 = 3 := by decide +kernel

/-- The levels of a codeword time, 0 but for the last fifty. -/
def levels (v : Nat) : List Nat := List.replicate 2600 0 ++ List.replicate 50 v
/-- What lane 95 makes of them. -/
def levelsDecoded (v : Nat) : Option Nat :=
  ((laneIn 3).m.rxIndices 95 (levels v)).bind fun g => (rsDecode ((laneIn 3).m.rxCodeword 95 g)).map Prod.snd
set_option maxRecDepth 100000 in
theorem witness_LaneReception_codewords :
    (levels 0).length = 2650 ∧ (levels 0).all (decide <| · < 4) = true ∧ (laneIn 3).m.laneState 95 ≠ 0 ∧ ((laneIn 3).m.lane 95).decoding = true ∧
    ((laneIn 3).m.rxIndices 95 (levels 0)).isSome = true ∧ levelsDecoded 0 = some 0 := by decide +kernel
set_option maxRecDepth 100000 in
theorem witness_LaneReception_broken : (levels 1).length = 2650 ∧ (levels 1).all (decide <| · < 4) = true ∧
    ((laneIn 3).m.rxIndices 95 (levels 1)).isSome = true ∧ levelsDecoded 1 = none := by decide +kernel

theorem witness_LaneAndRegisterWrites :
    (laneIn 1).mayWrite 4 (0x2100 + 95) 9 1 = true ∧ (at4 fun m => m.wr E.SEARCH_MODE 95 1).m.rd E.SEARCH_MODE 95 = 1 ∧
    (laneIn 1).mayWrite 4 (0x2100 + 95) 8 1 = true ∧ findEntry 0x2000 24 = some (E.QUAD_ROLE, 23) ∧
    (laneIn 1).mayWrite 4 (E.QUAD_ROLE.at 23).1 (E.QUAD_ROLE.at 23).2 2 = true ∧ (laneIn 1).m.blocked E.QUAD_ROLE 23 = false ∧
    (laneIn 1).m.blocked E.LOOP_MODE 95 = false ∧ (laneIn 1).mayWrite 4 (E.LOOP_MODE.at 95).1 (E.LOOP_MODE.at 95).2 3 = true ∧
    findEntry (E.LOOP_MODE.at 95).1 (E.LOOP_MODE.at 95).2 = some (E.LOOP_MODE, 95) ∧
    (laneIn 1).mayWrite 4 (0x2800 + 95) 4 3 = true ∧ (laneIn 1).m.rd E.REG_STATUS 95 ≠ 1 := by decide +kernel

/-- Port 95 on a camera quad at a state, with a beacon, a transaction, a packet and a trigger out. -/
def camPort (st tries : Nat) : State := at4 fun m => ((m.wr E.QUAD_ROLE 23 1).wr E.PORT_STATE 95 st).setPort 95
  { heard := true, beacon := some { bid := 65535, t1 := 0, sent := true, delayValid := false, delay := 0 }, beaconTries := tries,
    reg := some { kind := 1, addr := 0, count := 1, data := [], phase := 2 }, tx := [{ pri := 1, dt := 0x3B, payload := zeros 20 }],
    trigs := [{ tid := 65535, mg := 31, payload := zeros 20, immediate := true, resends := tries, sent := true }] }
/-- Port 95 on a fabric quad at a state. -/
def fabPort (st : Nat) : State := at4 fun m => (m.wr E.QUAD_ROLE 23 2).wr E.PORT_STATE 95 st

theorem witness_PortEvents :
    (camPort 3 0).m.rd E.PORT_STATE 95 = 3 ∧ (camPort 3 0).m.isFabricPort 95 = false ∧ (fabPort 3).m.rd E.PORT_STATE 95 = 3 ∧
    (fabPort 3).m.isFabricPort 95 = true ∧ ((fabPort 3).m.fport 95).hello = none ∧
    ((((fabPort 3).m.setFport 95 { hello := some (zeros 32) }).fport 95).hello = some (zeros 32)) ∧
    (camPort 7 0).m.rd E.PORT_STATE 95 = 7 ∧ (camPort 4 0).m.linked 95 = true ∧ ((camPort 4 0).m.port 95).ident = false ∧
    (((camPort 4 0).m.port 95).reg.map RegTxn.phase = some 2) ∧ (camPort 4 0).m.talking 95 = true ∧
    (pickDown (((camPort 4 0).m.port 95).tx.filter fun x =>
      (((camPort 4 0).m.port 95).heard || x.dt == 0x38) && ((camPort 4 0).m.auth || x.dt != 0x3B))).isSome = true ∧
    (((camPort 4 2).m.port 95).trigs.find? (fun x => x.tid == 65535 && x.sent)).map TrigPend.resends = some 2 ∧
    (((camPort 4 3).m.port 95).trigs.find? (fun x => x.tid == 65535 && x.sent)).map TrigPend.resends = some 3 ∧
    (camPort 4 2).m.auth = true ∧ ((fabPort 3).m.port 95).reg = none ∧
    ((camPort 4 0).m.port 95).heard = true ∧ ((camPort 4 2).m.port 95).beacon.map Beacon.sent = some true ∧
    ((camPort 4 2).m.port 95).beaconTries < 3 ∧ 3 ≤ ((camPort 4 3).m.port 95).beaconTries := by decide +kernel

/-- The same in a pair whose module holds no authority, with a write waiting to leave, or with a transaction at its start. -/
def barredPort (dt phase : Nat) : State :=
  { camPort 4 2 with m := ((camPort 4 2).m.wr E.PAIR_ENABLE 0 1).setPort 95 { (camPort 4 2).m.port 95 with
      tx := [{ pri := 3, dt := dt, payload := zeros 20 }], reg := some { kind := 2, addr := 0, count := 1, data := zeros 4, phase := phase } } }
theorem witness_PortEvents_barred :
    (barredPort 0x39 1).m.auth = false ∧ (barredPort 0x39 1).m.talking 95 = true ∧
    ((pickDown (((barredPort 0x39 1).m.port 95).tx.filter fun x =>
        (((barredPort 0x39 1).m.port 95).heard || x.dt == 0x38) && ((barredPort 0x39 1).m.auth || x.dt != 0x3B))).map DownPkt.dt = some 0x39) ∧
    (((barredPort 0x39 1).m.port 95).reg.map RegTxn.phase = some 1) ∧ (((barredPort 0x39 1).m.port 95).reg.map RegTxn.kind = some 2) ∧
    (((barredPort 0x3A 1).m.port 95).trigs.find? (fun x => x.tid == 65535 && x.sent)).map TrigPend.resends = some 2 := by decide +kernel

/-- A packet header of a data type with its check, and `n` more bytes. -/
def header (dt n : Nat) : Bytes := let b := leBytes 4 (dt * 16) ++ zeros 18; b ++ leBytes 2 (crc16 b) ++ zeros n

theorem witness_CameraPackets :
    (camPort 4 0).m.talking 95 = true ∧ (camPort 4 0).m.isFabricPort 95 = false ∧ 24 ≤ (header 0x33 3).length ∧
    headerOk (header 0x33 3) = true ∧ lengthFits (header 0x33 3) = true ∧ cameraDt (readHdr (header 0x33 3)).dt = true ∧
    (camPort 4 0).m.rd E.PORT_STATE 95 ≠ 7 ∧ (camPort 7 0).m.talking 95 = true ∧ (readHdr (header 0x30 0)).dt = 0x30 ∧
    (readHdr (header 0x01 0)).dt < 0x30 ∧ headerOk (header 0x01 0) = true ∧ (zeros 23).length < 24 ∧ headerOk (zeros 22 ++ [1, 0]) = false ∧
    (false || !(readHdr (header 0x33 3)).crcOk) = false ∧ 0x30 ≤ (readHdr (header 0x33 3)).dt ∧
    lengthFits (header 0x01 4) = false ∧ headerOk (header 0x01 4) = true ∧ cameraDt (readHdr (header 0x03 0)).dt = false ∧
    headerOk (header 0x03 0) = true := by decide +kernel

/-- Stream 255 with a contract state and reason. -/
def contract (st why : Nat) : State := at4 fun m => (m.wr E.CONTRACT_STATE 255 st).wr E.SUSPEND_REASON 255 why

theorem witness_ContractCommands :
    (contract 0 0).mayWrite 4 (0x3200 + 255) 2 1 = true ∧ (contract 0 0).m.cmdAllowed 255 1 = true ∧
    (contract 2 0).mayWrite 4 (0x3200 + 255) 2 2 = true ∧ (contract 2 0).m.cmdAllowed 255 2 = true ∧
    (contract 3 0).mayWrite 4 (0x3200 + 255) 2 3 = true ∧ (contract 3 0).m.cmdAllowed 255 3 = true ∧
    (contract 4 1).mayWrite 4 (0x3200 + 255) 2 4 = true ∧ (contract 4 1).m.cmdAllowed 255 4 = true ∧
    (contract 0 0).mayWrite 4 (0x3200 + 255) 2 5 = true ∧ (contract 0 0).m.cmdAllowed 255 5 = true := by decide +kernel

/-- A verdict is due for stream 255. -/
def due (own : Option (Nat × Nat × Nat × Nat)) (route paired : Nat) (again : Bool := false) : State := at4 fun m =>
  { (m.wr E.PAIR_ENABLE 0 paired) with
    verdicts := [{ stream := 255, change := false, terms := [], own := own, route := route, again := again }] }

theorem witness_VerdictEvents :
    (due none 0 0).m.verdicts = { stream := 255, change := false, terms := [], own := none, route := 0 } :: [] ∧
    (due (some (0, 0, 0, 0)) 0 1).m.verdicts = { stream := 255, change := false, terms := [], own := some (0, 0, 0, 0), route := 0 } :: [] ∧
    (due (some (0, 0, 0, 0)) 0 1).m.paired = true ∧ (due none 0 1).m.paired = true ∧
    (due none 0 0).m.wantsRoute { stream := 255, change := false, terms := [], own := none, route := 0 } = false ∧
    (due none 2 0 true).m.wantsRoute { stream := 255, change := false, terms := [], own := none, route := 2, again := true } = false ∧
    (due none 1 0).m.verdicts = { stream := 255, change := false, terms := [], own := none, route := 1 } :: [] ∧
    (due none 2 0 true).m.verdicts = { stream := 255, change := false, terms := [], own := none, route := 2, again := true } :: [] ∧
    (contract 4 3).m.rd E.AUTO_RESUME = 1 ∧ (contract 4 3).m.waitsPort 255 = true := by decide +kernel

/-- Stream 255 waits for a remote port. -/
def farStream : State := at4 fun m => ((m.wr E.CONTRACT_STATE 255 4).wr E.SUSPEND_REASON 255 1).setStrm 255
  { force := (contractFields.map fun e => if e = E.SOURCE_NODE then 1 else 0), waitSlot := false, paramsWait := true }

theorem witness_VerdictEvents_resume :
    farStream.m.rd E.AUTO_RESUME = 1 ∧ farStream.m.waitsPort 255 = true ∧ farStream.m.portUp (farStream.m.force 255) = true ∧
    farStream.m.cameraFits (farStream.m.force 255) = true := by decide +kernel

/-- A stripe of stream 255 placed on planer 15. -/
def stripe15 (started : Bool) : Stripe :=
  { sequ := 0, row0 := 0, n0 := 0, frame := 0, line := 0, closed := true, released := true, terms := List.replicate 38 1, planer := 15,
    prof := {}, cut := {}, gens := (0, 0, 0), started := started }
/-- Planer 15 with that stripe waiting or running, a replay slice or none, a million windows after power came. -/
def planer15 (started slice : Bool) (left : Nat) : State := at4 fun m =>
  ((({ m with ltc := 28000000000 } : Mach).wr E.ISLAND_STATE 39 1).setStrm 255 { stripes := [stripe15 started] }).setPlaner 15
    { run := if started then some (255, 0) else none, slice := slice, replays := [(255, 0, 0)], replayCycles := left }

theorem witness_PlanerEvents :
    ((planer15 false false 0).m.planer 15).run = none ∧ ((planer15 false false 0).m.planer 15).slice = false ∧
    (planer15 false false 0).m.rd E.PLANER_STATE 15 ≠ 4 ∧ (planer15 false false 0).m.rd E.ISLAND_STATE (24 + 15) = 1 ∧
    ((planer15 false false 0).m.choose 15).isSome = true ∧ (planer15 true false 0).m.running 15 = some (255, stripe15 true) ∧
    ((planer15 true false 0).m.planer 15).slice = false ∧ ((planer15 true false 0).m.planer 15).replays = (255, 0, 0) :: [] ∧
    ((planer15 true false 0).m.planer 15).replayCycles = 0 ∧ ((planer15 true true 9).m.planer 15).slice = true ∧
    (planer15 true false 0).m.ltc.toNat % 28000 = 0 ∧
    ((planer15 true true 9).m.planer 15).sliceAt + 1400 ≤ (planer15 true true 9).m.ltc.toNat ∧
    (let p := stripe15 true
     let x := (planer15 true false 0).m
     let cycles := (x.ltc.toNat - (x.planer 15).startLtc) * 5 / 4 - (x.planer 15).sliceCycles
     (p.rows + 12) * cdiv (Terms.rowPixels p.terms) 16 + 32 * bn (x.planer 15).kerf ≤ cycles ∧
       4 * cdiv (Terms.c p.terms) 1000 * 7 < cycles * 4) ∧
    State.reset.m.placedOn 15 = false := by decide +kernel

/-- A closed stripe whose lookahead has not come. -/
def waiting : Stripe := { stripe15 false with released := false }
/-- Streams that wait: for lookahead, and for a set slot. -/
def waits : State := at4 fun m =>
  (((m.setStrm 0 { stripes := [waiting] }).setStrm 1 { waitSlot := true }).setStrm 2 { rx := { squall := true }, enabled := true }).setStrm 255
    { force := (contractFields.map fun e => if e = E.SOURCE_NODE then 1 else 0), paramsWait := true }

theorem witness_StreamEvents :
    (waits.m.strm 0).stripes.find? (fun q => q.closed && !q.released) = some waiting ∧ (waits.m.strm 255).waitSlot = false ∧
    (waits.m.force 255).remote = true ∧ (waits.m.strm 255).paramsWait = true ∧ (waits.m.strm 255).slots.length < 8 ∧
    (waits.m.force 254).remote = false ∧ (waits.m.strm 254).paramsWait = false ∧ (waits.m.strm 254).waitSlot = false ∧
    (waits.m.strm 1).waitSlot = true ∧ (waits.m.strm 2).rx.squall = true ∧ (waits.m.strm 2).enabled = true := by decide +kernel

/-- Profile tables being loaded, or with a swap pending. -/
def tables (st : Nat) (p : Option (Nat × Nat × Bytes)) : State := at4 fun m => { m.wr E.TBL_STATE 0 st with tabs.pending := p }

theorem witness_StreamAndTableWrites :
    (tables 0 none).mayWrite 4 (E.PARAMS_APPLY.at 255).1 (E.PARAMS_APPLY.at 255).2 1 = true ∧ writtenInt E.PARAMS_APPLY.ty [1] = 1 ∧
    ((tables 0 none).m.strm 255).paramsWait = false ∧ (tables 0 none).mayWrite 4 (E.BG_CMD.at 255).1 (E.BG_CMD.at 255).2 1 = true ∧
    writtenInt E.BG_CMD.ty [1] = 1 ∧ (tables 0 none).mayWrite 4 0x3AF0 3 8 = true ∧ (tables 0 none).m.rd E.TBL_STATE = 0 ∧
    (tables 1 none).mayWrite 4 0x3AF0 5 7 = true ∧ (tables 1 none).m.rd E.TBL_STATE = 1 ∧ (tables 1 none).mayWrite 4 0x3AF0 6 1 = true ∧
    (tables 1 none).mayWrite 4 0x3AF0 6 2 = true ∧ (tables 2 (some (63, 3, []))).m.tabs.pending = some (63, 3, []) ∧
    (tables 2 (some (63, 3, []))).m.profileUsed 63 = false ∧ (tables 0 none).m.tabs.pending = none := by decide +kernel

/-- Position channel 7 in a mode. -/
def pos7 (mode : Nat) (x : PosChan) : State := at4 fun m => ((m.wr E.POS_MODE 7 mode).wr E.POS_STATUS 7 0).setPosc 7 x |>.wr E.DIV_PIN 7 30

theorem witness_PositionCommands :
    (pos7 1 {}).m.rd E.POS_MODE 7 = 1 ∧ (pos7 1 {}).m.ioOn = true ∧ (pos7 2 {}).m.ioOn = true ∧
    ((pos7 1 { low := 65535 }).m.posc 7).inside < (pos7 1 {}).m.rd E.AMP_DWELL 7 ∧
    (pos7 1 {}).m.rd E.AMP_DWELL 7 ≤ ((pos7 1 { low := 65535 }).m.posc 7).low ∧
    ((pos7 1 { low := 65535 }).m.posc 7).high < (pos7 1 {}).m.rd E.AMP_DWELL 7 ∧
    ((pos7 1 { low := 65535 }).m.posc 7).lost < (pos7 1 {}).m.rd E.AMP_DWELL 7 ∧
    ((pos7 1 { low := 65535 }).m.posc 7).back < (pos7 1 {}).m.rd E.AMP_DWELL 7 ∧
    (pos7 2 {}).m.rd E.POS_MODE 7 = 2 ∧ ((pos7 2 {}).m.posc 7).framed = true ∧ ((pos7 2 { framed := false }).m.posc 7).framed = false ∧
    (pos7 2 {}).m.ssiWord 7 0 = none ∧ (pos7 2 {}).m.ssiWord 7 1 = some 0 ∧
    ((pos7 2 { last := some 0, jumps := 2 }).m.posc 7).jumps < 3 ∧
    (signedOf ((pos7 2 {}).m.rd E.SSI_BITS 7) (0 + 2 ^ 32 - 0)).natAbs ≤ (pos7 2 {}).m.rd E.SSI_JUMP 7 ∧
    (pos7 2 {}).m.rd E.SSI_JUMP 7 < (signedOf ((pos7 2 {}).m.rd E.SSI_BITS 7) (0 + 2 ^ 32 - 8388608)).natAbs ∧
    ((pos7 2 { last := some 0, jumps := 3 }).m.posc 7).last = some 0 ∧ 10 ≤ ((pos7 2 { rejects := 10 }).m.posc 7).rejects ∧
    (pos7 1 {}).m.pst 7 2 = false ∧ (pos7 1 {}).m.pst 7 0 = false ∧
    (pos7 1 { q := 1 }).m.divOn 7 = true ∧ (pos7 1 { q := 1 }).m.auth = true ∧ ((pos7 1 { q := -1 }).m.posc 7).q < 0 := by decide +kernel
/-- Channel 7 at the end of a gate, in frequency mode or not; `first`: of the gate before. -/
def gate7 (freq first : Bool) (next : Bool := false) : State :=
  let g := (pos7 1 {}).m.gateLen 7
  let s := pos7 1 { clock := 2 * g, gateAt := if first then 0 else g, freqNext := next }
  { s with m := s.m.setPst 7 2 freq }
theorem witness_PositionCommands_gate :
    (∀ f ∈ [false, true], ∀ b ∈ [false, true], ∀ n ∈ [false, true],
      (gate7 f b n).m.rd E.POS_MODE 7 = 1 ∧ (gate7 f b n).m.ioOn = true ∧ ((gate7 f b n).m.posc 7).clock % (gate7 f b n).m.gateLen 7 = 0 ∧
      ((gate7 f b n).m.posc 7).clock ≠ ((gate7 f b n).m.posc 7).gateAt ∧ (gate7 f b n).m.pst 7 2 = f ∧ ((gate7 f b n).m.posc 7).freqNext = n) ∧
    ((gate7 true true).m.posc 7).clock ≠ ((gate7 true true).m.posc 7).gateAt + (gate7 true true).m.gateLen 7 ∧
    ((gate7 true false).m.posc 7).clock = ((gate7 true false).m.posc 7).gateAt + (gate7 true false).m.gateLen 7 := by decide +kernel
theorem witness_PositionCommands_writes :
    (pos7 1 {}).mayWrite 4 (E.POS_MODE.at 7).1 (E.POS_MODE.at 7).2 2 = true ∧ (pos7 1 {}).m.blocked E.POS_MODE 7 = false ∧
    (pos7 1 {}).mayWrite 4 (E.POS_CMD.at 7).1 (E.POS_CMD.at 7).2 1 = true ∧ writtenInt E.POS_CMD.ty [1] = 1 ∧
    (pos7 1 {}).mayWrite 4 (E.POS_CMD.at 7).1 (E.POS_CMD.at 7).2 2 = true ∧ writtenInt E.POS_CMD.ty [2] ≠ 1 := by decide +kernel

/-- Sequencer 31 in a state and mode. -/
def mg31 (st mode : Nat) (x : Sequencer) (next : Nat := 0) : State := at4 fun m =>
  (((m.wr E.MG_STATE 31 st).wr E.MG_MODE 31 mode).wr E.MG_NEXT 31 next).setMg 31 x

theorem witness_SequencerCommands :
    (mg31 0 3 {}).mayWrite 4 (0x4800 + 31) 0x14 1 = true ∧ (mg31 0 3 {}).m.mgActive 31 = false ∧ (mg31 0 3 {}).m.ioOn = true ∧
    (mg31 0 3 {}).mayWrite 4 (0x4800 + 31) 0x14 2 = true ∧ 3 ≤ (mg31 0 3 {}).m.rd E.MG_MODE 31 ∧
    ((mg31 0 3 { outs := [(0, 1)] }).m.mg 31).outs = (0, 1) :: [] ∧ (mg31 1 3 {}).m.mgActive 31 = true ∧
    ((mg31 1 3 {}).m.mg 31).outs = [] ∧ ((mg31 1 3 {}).m.mg 31).fireNow = false ∧
    ((mg31 2 3 { fireNow := true }).m.mg 31).fireNow = true ∧ (mg31 2 3 {}).m.mgActive 31 = true ∧
    0 ≤ twDiff (mg31 0 3 {}).m.now 0 ∧ (mg31 1 3 {}).m.rd E.MG_NEXT 31 = 0 ∧ 0 ≤ twDiff (mg31 1 3 {}).m.now ((mg31 1 3 {}).m.mgInstant 31 0) ∧
    (mg31 1 3 {} (2 ^ 40)).m.rd E.MG_NEXT 31 = 2 ^ 40 ∧
    twDiff (mg31 1 3 {} (2 ^ 40)).m.now ((mg31 1 3 {} (2 ^ 40)).m.mgInstant 31 (2 ^ 40)) < 0 ∧
    (mg31 1 1 {}).mayWrite 4 (E.MG_TARGET_POS.at 31).1 (E.MG_TARGET_POS.at 31).2 5 = true ∧ (mg31 1 1 {}).m.blocked E.MG_TARGET_POS 31 = false ∧
    (mg31 1 3 {}).mayWrite 4 (E.MG_TARGET_TIME.at 31).1 (E.MG_TARGET_TIME.at 31).2 5 = true ∧
    (mg31 1 3 {}).m.blocked E.MG_TARGET_TIME 31 = false ∧ (mg31 1 3 {}).mayWrite 4 (E.MG_COUNT.at 31).1 (E.MG_COUNT.at 31).2 5 = true ∧
    (mg31 1 3 {}).m.blocked E.MG_COUNT 31 = false := by decide +kernel

/-- A decision for a valve port. -/
def choice (kind last : Nat) : Decision := { id := 0, first := 1, last := last, port := 7, kind := kind, pulse := 0, offset := 0, fire := 0, tag := 0 }
/-- Valve port 7 enabled, with UPDATE_PERIOD at its default. -/
def vp7 (x : ValvePort) : State := at4 fun m =>
  ((((((m.wr E.VP_ENABLE 7 1).setVport 7 x).wr E.MALLET_ENABLE 0 1).wr E.DEC_CHANNEL 7 127).wr E.CH_CLASS 127 2).wr E.RING_DIR 127 1).wr E.MAX_AHEAD 0 1
    |>.setChan 127 { entries := [(0, zeros 32)] }

theorem witness_DecisionTable :
    2 ≤ (choice 2 1).kind ∧ (choice 0 0).last < (choice 0 0).first ∧ State.reset.m.rd E.VP_ENABLE 7 = 0 ∧ (choice 1 1).kind < 2 ∧
    (vp7 {}).m.rd E.VP_ENABLE 7 ≠ 0 ∧ (choice 1 1).first ≤ (choice 1 1).last ∧
    ((vp7 {}).m.rd E.MAX_AHEAD * 256000000 : Nat) < twDiff 10000000000 0 ∧ twDiff 0 0 ≤ ((vp7 {}).m.rd E.MAX_AHEAD * 256000000 : Nat) ∧
    twDiff (0 - BitVec.ofNat 64 (2 * (vp7 {}).m.vpPeriod 7)) 0 < 0 ∧
    0 ≤ twDiff (BitVec.ofNat 64 (2 * (vp7 {}).m.vpPeriod 7) - BitVec.ofNat 64 (2 * (vp7 {}).m.vpPeriod 7)) 0 ∧
    twDiff (BitVec.ofNat 64 (2 * (vp7 {}).m.vpPeriod 7)) 0 ≤ ((vp7 {}).m.rd E.MAX_AHEAD * 256000000 : Nat) := by decide +kernel
theorem witness_OnTimeGuard : (guardValve 3 2 true 2 0).1 = true ∧ (guardValve 3 2 true 3 0).2.1 = true ∧ (guardValve 3 2 false 0 0).1 = false := by
  decide
theorem witness_MalletCommands :
    (zeros 32).length = 32 ∧ (vp7 {}).m.ioOn = true ∧ (vp7 {}).m.rd E.MALLET_ENABLE = 1 ∧ (vp7 {}).m.follows = false ∧
    ((vp7 {}).m.chan ((vp7 {}).m.rd E.DEC_CHANNEL 7)).entries = (0, zeros 32) :: [] ∧
    0 ≤ twDiff (vp7 { grid := true }).m.now ((vp7 { grid := true }).m.vport 7).un ∧
    (vp7 {}).m.rd E.DEC_CHANNEL 7 < 128 ∧ (vp7 {}).m.chClass ((vp7 {}).m.rd E.DEC_CHANNEL 7) = 2 ∧
    (vp7 {}).m.rd E.RING_DIR ((vp7 {}).m.rd E.DEC_CHANNEL 7) = 1 ∧ ((vp7 { grid := true, fault := true }).m.vport 7).grid = true ∧
    ((vp7 { grid := true, fault := true }).m.vport 7).fault = true ∧
    (vp7 {}).mayWrite 4 (E.VP_ENABLE.at 7).1 (E.VP_ENABLE.at 7).2 0 = true ∧ (vp7 {}).m.blocked E.VP_ENABLE 7 = false := by decide +kernel
theorem witness_MalletCommands_fault :
    let s := vp7 { grid := true, bad := 2 }
    let r := vp7 { grid := true, bad := 1 }
    (s.m.vport 7).grid = true ∧ 0 ≤ twDiff s.m.now (s.m.vport 7).un ∧ (s.m.vport 7).fault = false ∧
    ((s.m.valveUpdate 7 []).vport 7).fault = true ∧
    (r.m.vport 7).grid = true ∧ 0 ≤ twDiff r.m.now (r.m.vport 7).un ∧ ((r.m.valveUpdate 7 []).vport 7).fault = false := by decide +kernel
theorem witness_GrayCodeReadsBack : 15 < 2 ^ 4 := by decide
theorem witness_PositionTargetsReached : (2 ^ 32 - 1) < 2 ^ 32 ∧ posReached 0 5 none 5 = true ∧ posReached 1 0 none (2 ^ 32 - 1) = false := by decide

/-! ### Time, the hub, the host link and the engine -/

/-- Put a number in the table of entries. -/
def putN (m : Mach) (e : Entry) (k n : Nat) : Mach := { m with dict := SMap.put (e.key k) (.num n) m.dict }
/-- A node that is its own grandmaster, with a TIME_SOURCE. -/
def clock (src : Nat) (x : TimeBase) : State := at4 fun m =>
  { putN (putN (m.wr E.TIME_SOURCE 0 src) E.MODULE_EUI 0 5) E.GM_EUI 0 5 with time := x }
/-- The same state a good while later. -/
def later (s : State) : State := { s with m := { s.m with ltc := 2 ^ 50 } }
/-- A child of port 95. -/
def child : State := at4 fun m =>
  let m := (m.wr E.TIME_SOURCE 0 3).wr E.PARENT_PORT 0 95
  { m with time := { announced := [{ port := 95, cls := 1, priority := 2, eui := 9, hops := 0, era := 0, at_ := 0 }], child := some { port := 95, seq := 3 } } }

/-- A change of time that takes over at a tick. -/
def changeAt (a : Nat) : TimeChange := { anchor := a, step := 1, rate := 2 ^ 48, host := true }

theorem witness_TimeCommands :
    (clock 0 { change := some (changeAt 8) }).m.due (changeAt 8) = false ∧ (later (clock 0 {})).m.due (changeAt 8) = true ∧
    (clock 0 {}).mayWrite 4 0x5010 5 1 = true ∧ (clock 0 {}).m.rd E.TIME_SOURCE = 0 ∧ (clock 0 {}).m.rd E.GM_EUI = (clock 0 {}).m.rd E.MODULE_EUI ∧
    (clock 0 {}).m.time.change = none ∧ (clock 0 {}).mayWrite 4 0x5010 5 2 = true ∧ child.m.announce.isSome = true ∧
    child.m.time.announced.length = 1 ∧ (∀ a ∈ child.m.time.announced, a.at_ + 3 * child.m.rd E.SYNC_PERIOD * 1000 ≤ (later child).m.ns) ∧
    (later child).m.rd E.SYNC_PERIOD = child.m.rd E.SYNC_PERIOD ∧ child.m.time.child = some { port := 95, seq := 3 } ∧
    0 + 200000 ≤ (later child).m.ns ∧ child.m.rd E.PARENT_PORT ≠ 0xFF ∧
    (later child).m.time.parentAt + 3 * (later child).m.rd E.SYNC_PERIOD * 1000 ≤ (later child).m.ns ∧
    (clock 0 {}).m.time.ppsAt = none ∧ (clock 0 {}).m.rd E.PPS_IN_VALID = 0 ∧ (clock 0 {}).m.rd E.PPS_IN_EDGE = 0 ∧
    0 + 1400002000 < (later (clock 0 { ppsAt := some 0 })).m.ltc.toNat ∧
    (let m := { (at4 fun m => m.wr E.PPS_OUT_WIDTH 0 900000).m with ltc := 1400000004 }
     m.rd E.PPS_OUT_WIDTH ≠ 0 ∧ m.time.ppsOut = none ∧ m.ioOn = true ∧ m.ltc.toNat % 4 = 0 ∧
     ((m.now.toNat : Int) - m.rdI E.PPS_OUT_OFFSET * 256) % 256000000000 < twDiff m.now (m.twOf (m.ltc.toNat - 4))) ∧
    (clock 0 { high := true }).m.time.high = true ∧ (clock 0 { high := true }).m.now.msb = false ∧ (clock 0 {}).m.time.high = false ∧
    3 ≤ (clock 0 {}).m.rd E.MODULE_STATE ∧
    (let m := (later (clock 0 { ppsOut := some 0 })).m; m.rd E.PPS_OUT_WIDTH * 7000 ≤ (m.ltc.toNat - 0) * 5) ∧
    (at4 fun m => m.wr E.PTM_ENABLE 0 1).m.rd E.PTM_ENABLE = 1 ∧ (clock 0 { ptmRun := true }).m.time.ptmRun = true ∧
    (clock 0 {}).m.time.ptmRun = false ∧ (clock 0 {}).m.rd E.TIME_SOURCE ≠ 3 := by decide +kernel
theorem witness_ChangesKeepTimeContinuous :
    let c : TimeChange := { anchor := 2 ^ 64 - 1, step := 0 - 1, rate := 2 ^ 64 - 1, host := false }
    c.anchor < 2 ^ 64 ∧ c.rate < 2 ^ 64 := by decide

/-- Pin 31 at a level, with its edge selection. -/
def pin31 (edge : Nat) (up : Bool) : State := at4 fun m => (m.wr E.DIN_EDGE 31 edge).setPin 31 { input := up }
/-- Task 255 with a relayed and a deferred event. -/
def task255 : State := at4 fun m => m.setTask 255
  { relays := [({ ch := 7, src := 0, data := 0, stamp := 0 }, 9)], lastAt := some 0, deferred := some { ch := 8, src := 0, data := 0, stamp := 0 } }

theorem witness_HubCommands :
    (pin31 1 false).mayWrite 4 (E.SW_PUBLISH.at 0).1 (E.SW_PUBLISH.at 0).2 5 = true ∧ (pin31 1 false).m.ioOn = true ∧ (pin31 3 true).m.ioOn = true ∧
    ((pin31 1 false).m.pin 31).input = false ∧ (pin31 3 true).m.rd E.DIN_EDGE 31 = 3 ∧ ((pin31 3 true).m.pin 31).input = true ∧
    (pin31 2 false).m.rd E.DIN_EDGE 31 = 2 ∧ (pin31 0 false).m.rd E.DIN_EDGE 31 = 0 ∧ 9 ≤ (later task255).m.ltc.toNat ∧ (∀ e ∈ (task255.m.task 255).relays, task255.m.ltc.toNat < e.2) ∧
    (task255.m.task 255).deferred ≠ none ∧
    (later task255).m.rd E.TASK_HOLDOFF 255 * 7 ≤ ((later task255).m.ltc.toNat - 0) * 5 ∧ (loopEntries.find? fun e => e.sub == 6) = some E.SLOT1 := by decide +kernel

/-- A READY machine whose data link is up, with an endpoint and the power on. -/
def linked (x : Endpoint) : State := at4 fun m => { m with ep := { x with up := true }, life := { m.life with supply := true, sense := true } }

theorem witness_HostLinkCommands :
    ((linked {}).m.wr E.MODULE_STATE 0 0).starting = true ∧
    (linked {}).m.life.supply = true ∧ (linked {}).m.trains 6 16 true = true ∧ (linked {}).m.trains 1 4 false = true ∧
    (linked {}).m.trains 6 16 false = false ∧ (linked {}).m.sameLink 0 0 false = true ∧ (linked {}).m.ep.up = true ∧ (linked {}).m.rd E.ISLAND_STATE 0x31 = 1 ∧
    ((linked {}).m.wr E.ISLAND_STATE 0x31 0).rd E.ISLAND_STATE 0x31 ≠ 1 ∧ (linked {}).m.ep.flr = false ∧ (linked {}).m.ep.d3 = false ∧ (linked {}).m.configured = true ∧
    (linked { flr := true }).m.ep.flr = true ∧ (linked { bme := true }).m.ep.bme = true ∧ (linked { drain := true }).m.ep.drain = true ∧
    (linked { drain := true }).m.ep.reads = [] ∧ (linked { d3 := true }).m.ep.d3 = true ∧
    (let s := linked { msixEnable := true, bme := true, pba := [2047], msix := [(2047, { mask := false })] }
     s.m.ep.msixEnable = true ∧ 2047 ∈ s.m.ep.pba ∧ s.m.msixHeld 2047 = false) := by decide +kernel
theorem witness_MsixRows :
    (linked {}).m.ep.msixEnable = false ∧
    (let m := (linked { msixEnable := true, bme := true, msix := [(2047, { mask := false })] }).m
     2047 ∉ m.ep.pba ∧ m.ep.msixFmask = false ∧ (m.msixEntry 2047).mask = false ∧ (m.msixEntry 0).mask = true ∧ m.ep.d3 = false ∧ m.mayMaster = true) := by
  decide +kernel
theorem witness_BarCommands :
    (linked {}).m.bar0 = true ∧ barAccessOk 2 4 = false ∧
    (zeros 4).length = 4 ∧ 0x1010 % 4 = 0 ∧ (zeros 8).length = 8 ∧ 0x1008 % 8 = 0 := by decide +kernel

/-- Reads outstanding. -/
def reading (what : ReadWhat) (wanted : Bool) : State :=
  linked { reads := [{ tag := 3, chan := 127, what := what, addr := 64, len := 32, wanted := wanted }], quarantine := [9] }

theorem witness_CompletionCommands :
    (reading (.desc 64) true).m.readOf 4 = none ∧ (reading (.desc 64) true).m.readOf 3 ≠ none ∧
    ((reading (.desc 64) true).m.readOf 3).any (fun r => r.wanted && r.len == (zeros 32).length) = true ∧
    9 ∈ (reading .probe true).m.ep.quarantine ∧ (reading .probe true).m.probeRead.isSome = true ∧
    (at4 fun m => m.wr E.MODULE_STATE 0 8).m.rd E.MODULE_STATE = 8 ∧
    (∃ x ∈ (at4 fun m => m.setChan 127 { state := 5 }).m.chans, x.2.state = 5) := by
  refine ⟨by decide +kernel, by decide +kernel, by decide +kernel, by decide +kernel, by decide +kernel, by decide +kernel, ?_⟩
  exact ⟨(127, { state := 5 }), by decide +kernel, by decide +kernel⟩

/-- A unit that waits. -/
def unit5 : Machine.Unit := { kind := 5, data := zeros 64 }
/-- The same waiting for room in the host's ring. -/
def unitW : Machine.Unit := { unit5 with headAt := some 0 }
/-- Channel 127 as a ring of a direction, with the engine allowed to ask. -/
def chan127 (cls dir : Nat) (x : Chan) : State :=
  let s := linked { bme := true }
  { s with m := (((s.m.wr E.CH_CLASS 127 cls).wr E.RING_DIR 127 dir).setChan 127 x).wr E.RING_ORDER 127 16 }
/-- Stream 255 with a delivery whose veneer, or whose trailer, is due on channel 127. -/
def veneer (posted : Bool) : State :=
  let s := chan127 2 0 { state := 1, cred := 2 ^ 40, queue := [{ kind := if posted then 2 else 1, stream := 255, deliv := 1, data := zeros 64 }] }
  { s with m := s.m.setStrm 255 { delivs := [{ id := 1, frame := 0, line := 0, close := 0, cond := 0, tag := 0, time := 0, pos := 0, rows := 1, terms := List.replicate 38 127, preLeft := 0, lateLeft := 0, posted := posted }] } }

theorem witness_EngineCommands_writes :
    (chan127 2 0 {}).m.bar0 = true ∧ (chan127 2 0 {}).m.paired = false ∧
    (at4 fun m => (m.wr E.PAIR_ENABLE 0 1).wr E.PAIR_ROLE 0 2).m.follows = true ∧
    (at4 fun m => ((m.wr E.PAIR_ENABLE 0 1).wr E.PAIR_ROLE 0 1).wr E.PAIR_FLAGS 0 0x20).m.leads = true ∧
    (chan127 2 0 {}).mayWrite 4 (0x5800 + 127) 0x0D 1 = true ∧ ((chan127 2 0 {}).m.chan 127).state = 0 ∧
    (chan127 2 0 { state := 3 }).mayWrite 4 (0x5800 + 127) 0x0D 2 = true ∧ ((chan127 2 0 { state := 3 }).m.chan 127).state = 3 ∧
    (chan127 2 0 { state := 4 }).mayWrite 4 (0x5800 + 127) 0x0D 3 = true ∧ ((chan127 2 0 { state := 4 }).m.chan 127).state = 4 := by
  decide +kernel
theorem witness_EngineCommands_fetch :
    let s := chan127 2 1 { state := 1, sw := 3, hw := 2 ^ 32 - 5 }
    let s := { s with m := (s.m.wr E.MALLET_ENABLE 0 1).wr E.DEC_CHANNEL 7 127 }
    let x := s.m.chan 127
    s.m.malletReads 127 = true ∧
    s.m.chClass 127 = 2 ∧ s.m.rd E.RING_DIR 127 = 1 ∧ x.fetching = false ∧ x.state = 1 ∧ s.m.rd E.ENGINE_STATE = 0 ∧ s.m.mayRequest = true ∧
    (x.sw + 2 ^ 32 - x.hw) % 2 ^ 32 = 8 ∧ 8 ≤ s.m.ringSlots 127 := by decide +kernel
theorem witness_EngineCommands_units :
    (let s := chan127 2 0 { state := 1, cred := 2 ^ 40, queue := [unit5] }
     let m := s.m.headBacks 127
     m.headUnit 127 = some unit5 ∧ unit5.kind = 5 ∧ m.canTake 127 unit5 = true ∧ m.limiterLets 127 unit5 (m.nextLength 127 unit5) = true) ∧
    (let s := later (chan127 2 0 { state := 3, queue := [unitW] })
     s.m.headUnit 127 = some unitW ∧ s.m.canTake 127 unitW = false ∧ s.m.waitedOut 127 unitW = true) ∧
    (∃ d u, ((veneer false).m.strm 255).delivs.find? (fun d => !d.posted) = some d ∧ Terms.dma d.terms 0 = 127 ∧
      ((veneer false).m.headBacks 127).headUnit 127 = some u ∧ u.kind = 1 ∧ u.stream = 255 ∧ u.deliv = d.id ∧ ((veneer false).m.headBacks 127).canTake 127 u = true ∧
      ((veneer false).m.headBacks 127).limiterLets 127 u (((veneer false).m.headBacks 127).nextLength 127 u) = true) ∧
    (∃ d u, ((veneer true).m.strm 255).delivs.find? (fun d => d.posted && decide (d.lateLeft = 0) && (veneer true).m.trailerHead 255 d) = some d ∧ Terms.dma d.terms 0 = 127 ∧
      ((veneer true).m.headBacks 127).headUnit 127 = some u ∧ ((veneer true).m.headBacks 127).canTake 127 u = true ∧
      ((veneer true).m.headBacks 127).limiterLets 127 u (((veneer true).m.headBacks 127).nextLength 127 u) = true) := by
  refine ⟨by decide +kernel, by decide +kernel, ?_, ?_⟩
  · exact ⟨_, _, rfl, rfl, rfl, rfl, rfl, rfl, by decide +kernel, by decide +kernel⟩
  · exact ⟨_, _, rfl, rfl, rfl, by decide +kernel, by decide +kernel⟩

/-! ### The fabric and the pair -/

/-- Port 95 as a LINKED fabric port of node 7. -/
def fab (x : FPort) : State := at4 fun m => (((((m.wr E.QUAD_ROLE 23 2).wr E.PORT_STATE 95 4).wr E.PORT_WIDTH 95 2).wr E.XLINK_PORTS 0 0xFF5F).setFport 95 x).wr E.FAB_ADDR 0 7
/-- A frame of a class and kind to every neighbour, with a payload. -/
def frame (tc kind : Nat) (payload : Bytes) : FabMsg := { tc := tc, kind := kind, dst := 0xFFFF, src := 0xFFFF, payload := payload }
/-- A CREDIT behind an EVENT, and a LINE without credits. -/
def full : FPort := { tx := [frame 1 0x20 (zeros 16), frame 7 0x02 [], frame 2 0x30 (zeros 8)], sent := [0, 0, 2048, 0, 0], gave := [1, 2, 3, 4, 5] }

theorem witness_FabricPortCommands :
    (fab full).m.fabricUp 95 = true ∧ (fab full).m.rd E.FAB_PORT_FAULT 95 < 3 ∧ (fab full).m.isFabricPort 95 = true ∧
    (fab full).m.rd E.PORT_STATE 95 = 4 ∧ (let m := (fab {}).m.wr E.PORT_STATE 95 3; m.rd E.PORT_STATE 95 = 3 ∧ (m.fport 95).hello = none) ∧
    (fab full).m.waits 95 2 = true ∧
    (let s := later (fab { full with starved := [(2, 0)] })
     ((s.m.fport 95).starved.any fun k => k.1 == 2 && decide (k.2 + 2000000 ≤ s.m.ns)) = true ∧ s.m.waits 95 2 = true) ∧ (∃ f, (fab full).m.nextFrame 95 = some f ∧ f.kind ≠ 0x10) ∧
    (∃ f, (fab { tx := [frame 0 0x10 [2, 9]] }).m.nextFrame 95 = some f ∧ f.kind = 0x10 ∧ leAt f.payload 0 1 = 2) ∧
    (let m : Mach := { (fab {}).m with tree := { sent := some { eui := 1, priority := 1, pin := 0, recs := [] } } }
     4 ≤ m.rd E.MODULE_STATE ∧ m.tree.rootPort = none ∧ m.tree.sent.isSome = true) ∧
    (let h : Hold := { node := 3, flow := 4, to_ := 7, verdict := 1, outPort := 95, inPort := 96, d := 1 }
     (!h.committed && h.node == 3 && h.flow == 4 && (h.outPort == 95 || h.inPort == 95)) = true ∧ 3 ≠ (fab {}).m.fabAddr) := by
  refine ⟨by decide +kernel, by decide +kernel, by decide +kernel, by decide +kernel, by decide +kernel, by decide +kernel, by decide +kernel, ?_, ?_,
    by decide +kernel, by decide +kernel⟩
  · exact ⟨frame 7 0x02 [], by decide +kernel, by decide +kernel⟩
  · exact ⟨frame 0 0x10 [2, 9], by decide +kernel, by decide +kernel, by decide +kernel⟩
theorem witness_NextFrameIsMostUrgent : (fab full).m.nextFrame 95 = some (frame 7 0x02 []) := by decide +kernel

/-- A byte string changed at one place. -/
def flipAt (b : Bytes) (i : Nat) : Bytes := putBytes b i [b.getD i 0 ^^^ 1]

theorem witness_FabricReceptionChecks :
    (State.reset.m.fabricUp 95 = false) ∧
    (let m := (fab {}).m
     let m0 := m.setPort 95 { m.port 95 with rx := (m.port 95).rx.eraseP fun k => k.bytes == zeros 27 }
     m0.fabricUp 95 = true) ∧
    (zeros 27).length < 28 ∧ 28 ≤ (frame 7 2 []).bytes.length ∧ frameHcrc (flipAt (frame 7 2 []).bytes 3) = false ∧
    frameHcrc (frame 7 2 []).bytes = true ∧ frameFits ((frame 7 2 []).bytes ++ zeros 4) = false ∧ frameFits ((frame 7 2 []).bytes ++ zeros 3) = true ∧
    frameValid (frame 6 2 []).bytes = false := by decide +kernel

/-- A node that takes a flow at port 95. -/
def flowIn : State := at4 fun m =>
  { (((m.wr E.QUAD_ROLE 23 2).wr E.PORT_STATE 95 4).wr E.FAB_ADDR 0 7) with holds := [{ node := 0xFFFF, flow := 0, to_ := 7, verdict := 1, outPort := 96, inPort := 95, d := 1, line := 4096, committed := true, fill := 8192 * 10 ^ 11 }] }
/-- Every kind for a node, with its class. -/
def kinds : List (Nat × Nat) :=
  [(1, 7), (2, 7), (3, 3), (4, 3), (0x20, 1), (0x30, 2), (0x31, 2), (0x40, 3), (0x41, 3), (0x42, 3), (0x43, 3), (0x48, 3), (0x49, 3), (0x50, 4),
   (0x51, 4), (0x52, 4), (0x53, 4)]

theorem witness_FabricFrameCommands :
    (kinds.all fun k => (flowIn.m.receiveFrame 95 (frame k.2 k.1 []).bytes false).1.any fun f =>
      f.kind == k.1 && frameKind (frame k.2 k.1 []).bytes == k.1) = true := by decide +kernel
theorem witness_FabricFrameCommands_time :
    ([1, 2, 3, 4, 5].all fun k =>
      let b := (frame 0 0x10 (timePayload k 9 0 0 0 0 0 0)).bytes
      (flowIn.m.receiveFrame 95 b false).1.any fun f => f.kind == 0x10 && frameKind b == 0x10 && leAt b 28 1 == k) = true := by decide +kernel

theorem witness_PairFrameCommands :
    (fab {}).m.xlinkPort = some 95 ∧
    ([(0x60, 3), (0x61, 2), (0x62, 2), (0x63, 2), (0x64, 2), (0x65, 2), (0x66, 2), (0x67, 3), (0x68, 3), (0x69, 3), (0x6A, 2)].all fun k =>
      ((fab {}).m.receiveFrame 95 (frame k.2 k.1 []).bytes false).1.any fun f =>
        f.kind == k.1 && frameKind (frame k.2 k.1 []).bytes == k.1) = true := by decide +kernel

/-- A module of a pair in a role, state and set of flags, whose cross-link port is 95. -/
def paired (role st flags : Nat) (x : Pair) : State := at4 fun m =>
  { (((((((((m.wr E.QUAD_ROLE 23 2).wr E.PORT_STATE 95 4).wr E.PORT_WIDTH 95 2).wr E.XLINK_PORTS 0 0xFF5F).wr E.PAIR_ENABLE 0 1).wr E.PAIR_ROLE 0 role).wr
      E.MODULE_STATE 0 st).wr E.PAIR_FLAGS 0 flags).wr E.FAB_ADDR 0 7) with pair := x }

theorem witness_PairFrameCommands_handling :
    (fab {}).m.paired = false ∧ (paired 1 4 0 {}).m.paired = true ∧ 4 ≤ (paired 1 4 0 {}).m.rd E.MODULE_STATE ∧ 95 ∈ (paired 1 4 0 {}).m.xlinkPorts ∧
    94 ∉ (paired 1 4 0 {}).m.xlinkPorts ∧ ((paired 1 4 0 { rxNext := some 5 }).m.heardPair.pairSeen 4).1 = true ∧
    ((paired 1 4 0 { rxNext := some 5 }).m.heardPair.pairSeen 5).1 = false ∧ (paired 1 4 0 {}).m.heardPair.flagOn 8 = false ∧
    (paired 1 4 0x100 {}).m.heardPair.flagOn 8 = true := by decide +kernel

/-- A PAIR_STATE of a STANDBY partner with the host link up and some streams fed. -/
def standbyPartner : Bytes := leBytes 4 (2 + 2 ^ 7 + 5 * 2 ^ 16) ++ zeros 60
/-- The active module with such a partner. -/
def active (x : Pair) : State := paired 1 7 0x24 { x with partner := some standbyPartner }

theorem witness_PairCommands_time :
    (paired 1 7 0x24 {}).m.paired = true ∧ 4 ≤ (paired 1 7 0x24 {}).m.rd E.MODULE_STATE ∧ (paired 1 7 0x24 {}).m.leads = true ∧
    (let m := (later (paired 1 7 0x24 {})).m.setStrm 255 { digests := [{ frame := 2, line := 3, own := some 5 }] }
     (m.strm 255).digestOf 2 3 = some { frame := 2, line := 3, own := some 5 } ∧ 0 + 2000000 ≤ m.ns) ∧
    (paired 1 7 0x24 {}).m.xlinkPort = some 95 ∧
    (let m := (later (paired 2 5 0x20 {})).m.setChan 127 { queue := [unit5] }
     m.follows = true ∧ oldestUnit m.unnamed = some (127, unit5) ∧ unit5.readyAt + 50000000 ≤ m.ns) ∧
    (paired 2 5 0x28 {}).m.flagOn 3 = true ∧ (paired 1 4 0 {}).m.flagOn 3 = false ∧ (paired 1 4 0 {}).m.pair.guardDone = false ∧
    (later (paired 1 4 0 {})).m.guardOver = true ∧ (later (paired 1 4 0 {})).m.flagOn 3 = false ∧
    (paired 1 4 0 {}).m.role ≠ 2 ∧ (fab {}).m.paired = false ∧ (fab {}).m.flagOn 3 = false ∧ (later (paired 1 4 0 { clash := some 0 })).m.clashOver = true ∧
    (paired 1 4 0x20 {}).m.flagOn 5 = true ∧ (paired 1 4 0x20 {}).m.xlinkSilent = true ∧ (paired 3 6 0x20 {}).m.role = 3 ∧ (paired 3 6 0x20 {}).m.rd E.MODULE_STATE = 6 := by
  decide +kernel
/-- A STANDBY module that may take over: the partner's OWN has been low for long, and the last mark is fresh. -/
theorem witness_PairCommands_takeover :
    let s := later (paired 2 5 1 { markAt := some (2 ^ 50) })
    s.m.rd E.MODULE_STATE = 5 ∧ s.m.flagOn 3 = false ∧ s.m.pair.guardDone = false ∧ s.m.guardOver = true ∧ s.m.role = 2 ∧
    { s.m with pair.guardDone := true }.mayOwn = true ∧ { s.m with pair.guardDone := true }.markFresh = true := by decide +kernel
theorem witness_PairCommands_switch :
    (active {}).m.ep.up = false ∧ bitOf ((active {}).m.partnerWord 0) 7 = true ∧ (active {}).m.maySwitch 4 = true ∧
    (active {}).m.maySwitch 5 = true ∧ (active {}).m.maySwitch 6 = true ∧ (active {}).m.fed < bitsOf ((active {}).m.partnerWord 0) 23 16 ∧
    (active {}).mayWrite 4 0x6400 0x0E 1 = true ∧ (active {}).m.role = 1 ∧ (active {}).m.flagOn 2 = true ∧ (active {}).m.partnerStandby = true ∧
    (paired 4 9 0 {}).mayWrite 4 0x6400 0x0E 2 = true ∧ (paired 4 9 0 {}).m.role = 4 ∧ (paired 4 9 0 {}).m.rd E.MODULE_STATE = 9 ∧
    (paired 5 4 0 {}).mayWrite 4 0x6400 0x0E 3 = true ∧ (paired 5 4 0 {}).m.role = 5 ∧ (paired 5 4 0 {}).m.flagOn 3 = false := by decide +kernel
/-- The active module with a stream whose position channel is LOST here alone. -/
theorem witness_PairCommands_position :
    (((((active {}).m.wr E.POS_MODE 7 1).setPst 7 5 true).wr E.CONTRACT_STATE 255 3).wr E.POS_SRC 255 7).posShort = true := by decide +kernel

/-! ### The dictionary, its paths and the module's life -/

/-- A module of a pair in slot B with the cross-link up. -/
def slotB : Mach := { (paired 1 4 0x20 {}).m with slotId := 1 }

theorem witness_DictionaryWrites :
    State.reset.m.serves 0 = false ∧ (at4 id).m.serves 0 = true ∧ ((at4 id).m.wr E.CAN_WRITE 0 0).permitted 1 0x5000 1 0 = false ∧
    (at4 id).m.permitted 4 0x5000 1 0 = true ∧ pairWide 0x3100 1 = true ∧ pairWide 0x5000 1 = false ∧ (fab {}).m.xlinkUp = false ∧
    (paired 1 4 0x20 {}).m.xlinkUp = true ∧ (paired 1 4 0x20 {}).m.slotA = true ∧ slotB.xlinkUp = true ∧ slotB.slotA = false ∧
    (paired 1 4 0x20 {}).m.serves 0 = true ∧ (paired 1 4 0x20 {}).m.permitted 0 0x3100 1 0 = true ∧
    ((findEntry 0x1018 0x03).any fun e => e.1.acc == .ro || e.1.acc == .const) = true ∧
    findEntry 0x0FFF 9 = none ∧ findEntry 0x4407 E.AMP_DWELL.sub = some (E.AMP_DWELL, 7) ∧ (at4 id).m.blocked E.AMP_DWELL 7 = false := by
  decide +kernel
theorem witness_TallyTellsOfTheWrite : 4 < 5 ∧ 0xFFFF < 2 ^ 16 ∧ 0xFF < 2 ^ 8 ∧ 9 < 2 ^ 8 := by decide

/-- A node with a request of its own outstanding. -/
def asking (resends : Nat) : State := at4 fun m =>
  let q : DictReq := { op := 1, index := 0x1000, sub := 1, offset := 0, length := 4, last := true, data := [], tag := 5, node := 9 }
  { m with server := { own := some { id := 1, node := 9, payload := zeros 16, resends := resends } }, mb := { m.mb with run := some q } }
/-- A node that sends in bulk. -/
def bulk (resends : Nat) : State := at4 fun m =>
  { m with life.send := some { object := 2, node := 9, num := 1, total := 4096, resends := resends } }

theorem witness_DictionaryCommands :
    (at4 id).mayWrite 4 (E.RESTORE_DEFAULTS.at 0).1 (E.RESTORE_DEFAULTS.at 0).2 0x64616F6C = true ∧
    writtenInt E.RESTORE_DEFAULTS.ty (leBytes 4 0x64616F6C) = 0x64616F6C ∧ (at4 fun m => m.wr E.STORE_PENDING 0 1).m.rd E.STORE_PENDING = 1 ∧
    (at4 fun m => { m with mb.ctrl := 5 }).m.mb.ctrl % 4 = 1 ∧ (at4 fun m => { m with mb.ctrl := 2 }).m.mb.ctrl % 4 = 2 ∧
    (at4 fun m => { m with mb.ctrl := 3 }).m.mb.ctrl % 4 = 3 ∧ (asking 1).m.server.own ≠ none ∧ (asking 1).m.mb.run ≠ none ∧
    ((asking 1).m.server.own.any fun q => q.resends == 1) = true ∧ ((asking 2).m.server.own.any fun q => q.resends == 2) = true ∧
    ((later (bulk 4)).m.life.send.any fun q => q.resends == 4 && decide (q.at_ + 2000000 ≤ (later (bulk 4)).m.ns)) = true ∧
    ((later (bulk 5)).m.life.send.any fun q => q.resends == 5 && decide (q.at_ + 2000000 ≤ (later (bulk 5)).m.ns)) = true ∧
    (let q : DictReq := { op := 2, index := 0x3100, sub := 1, offset := 0, length := 4, last := true, data := [], tag := 5, node := 9, wait := some 3 }
     let s : Mach := { (at4 id).m with mb.run := some q }
     s.mb.run.bind DictReq.wait = some 3 ∧ s.gw.run = none ∧ s.can.waits = [] ∧ s.server.waiting = [] ∧ s.wideOver 3 = true) ∧
    (linked {}).m.bar0 = true ∧ (linked {}).m.mb.status % 4 ≠ 1 ∧ (at4 id).m.bar0 = false := by decide +kernel

/-- A node on CAN FD. -/
def canNode (x : CanNode) : Mach := { ((linked {}).m.wr E.HEARTBEAT_TIME 0 1000).wr E.CAN_STATE 0 0 with can := { x with on := true } }

theorem witness_CanCommands :
    (canNode {}).can.on = true ∧ (canNode {}).rd E.CAN_STATE ≠ 2 ∧ (canNode {}).serves 1 = true ∧
    (((canNode {}).countRequest 1).dictRead 1 0x0FFF 1 0 65536).1 = 1 ∧ (((canNode {}).countRequest 1).dictRead 1 0x7000 1 0 65536).1 ≠ 1 ∧
    (canNode { usdo := some { index := 1, sub := 2, size := 3, data := [] } }).can.usdo ≠ none ∧ (canNode {}).rd E.HEARTBEAT_TIME ≠ 0 ∧
    (canNode {}).can.emcyAt = none ∧ bitOf (((canNode {}).wr E.EMCY_COBID 0 0x81).rd E.EMCY_COBID) 31 = false ∧ (canNode {}).causesNow = [] ∧
    (∀ b, (canNode { usdo := some { index := 1, sub := 2, size := 3, data := [], upload := b } }).can.usdo.all fun u => u.lost = false ∧ u.upload = b) ∧
    (canNode { usdo := some { index := 1, sub := 2, size := 3, data := [], lost := true } }).can.usdo.all (fun u => u.lost) ∧
    (canNode { causes := [(1, 2)] }).can.causes ≠ [] ∧
    { canNode {} with life.hot := true }.causesNow = [(0x4200, 0x6C000B)] ∧ ((canNode {}).wr E.CAN_STATE 0 2).rd E.CAN_STATE = 2 ∧
    (at4 id).mayWrite 4 (E.CAN_ENABLE.at 0).1 (E.CAN_ENABLE.at 0).2 0 = true ∧ (at4 id).m.blocked E.CAN_ENABLE 0 = false := by decide +kernel

/-- A two-wire target in a mode. -/
def target (x : TwiTarget) : State := at4 fun m => { m with twi := x }

theorem witness_TargetCommands :
    (target {}).m.rd E.MODULE_STATE ≠ 0 ∧ (target {}).m.twi.waking = false ∧ (target {}).m.rd E.TWI_ADDRESS + 1 ≠ (target {}).m.rd E.TWI_ADDRESS ∧
    (target {}).m.benchRuns = true ∧ (target { mode := 1 }).m.twi.mode = 1 ∧ (target { mode := 2 }).m.twi.mode = 2 ∧
    (target { mode := 3 }).m.twi.released = false ∧ (target { mode := 3 }).m.twi.refusing = false ∧
    (let m := (target { mode := 1 }).m.wr E.MODULE_STATE 0 2; m.rd E.MODULE_STATE = 2 ∧ m.life.awake = false ∧ m.twi.refusing = false) ∧
    (target { mode := 1, starting := true, waking := true }).m.twi.starting = true ∧
    (target {}).mayWrite 4 0x6800 0x04 7 = true ∧ (at4 fun m => { m with gw.flags := 5 }).m.gw.flags % 4 = 1 ∧
    (at4 fun m => { m with gw.flags := 2 }).m.gw.flags % 4 = 2 ∧ (at4 fun m => { m with gw.flags := 3 }).m.gw.flags % 4 = 3 := by decide +kernel

/-- The two-wire controller with a transfer. -/
def twcAt (now : Option Nat) (phase : Nat) : State := at4 fun m => { m.wr E.SENSOR_ADDR 7 0x48 with twc := { now := now, phase := phase } }

theorem witness_ControllerCommands :
    (twcAt none 0).m.benchRuns = true ∧ (twcAt none 0).m.rd E.SENSOR_ADDR 7 ≠ 0xFF ∧ (twcAt none 0).m.twc.now ≠ some 8 ∧
    8 ∉ (twcAt none 0).m.twc.queue ∧ (twcAt (some 8) 1).m.twc.phase = 1 ∧ (twcAt (some 8) 1).m.twc.now = some (7 + 1) ∧
    (twcAt (some 0) 1).m.twc.now = some 0 ∧ (twcAt (some 8) 4).m.twc.now.isSome = true ∧ (twcAt (some 8) 4).m.twc.phase = 4 ∧
    (twcAt (some 8) 2).m.twc.phase = 2 ∧ (twcAt (some 8) 3).m.twc.phase = 3 := by decide +kernel

/-- A module in a state, with its life's fields. -/
def life (st : Nat) (f : Life → Life) : State := at4 fun m => { m.wr E.MODULE_STATE 0 st with life := f m.life }

theorem witness_LifeCommands :
    State.reset.m.rd E.MODULE_STATE = 0 ∧ State.reset.m.powered = false ∧
    (life 0 fun x => { x with supply := true }).m.rd E.MODULE_STATE = 0 ∧ (life 0 fun x => { x with supply := true }).m.powered = true ∧
    (life 4 fun x => { x with sense := true }).m.life.sense = true ∧
    (life 8 fun x => { x with removal := some 0 }).m.life.removal = some 0 ∧ (life 8 id).m.ns ≤ 0 + 10 ^ 7 ∧ (life 8 id).m.life.outRange = false ∧
    (life 8 id).m.life.bootless = false ∧ (life 2 id).m.rd E.MODULE_STATE = 2 ∧ (life 2 id).mayWrite 4 0x6C00 0x02 1 = true ∧
    (life 9 id).mayWrite 4 0x6C00 0x02 2 = true ∧ (life 9 id).m.rd E.MODULE_STATE = 9 ∧ (life 3 id).mayWrite 4 0x6C00 0x02 3 = true ∧
    (life 3 id).m.rd E.MODULE_STATE = 3 ∧ (life 2 id).mayWrite 4 (E.BOOT_POLICY.at 0).1 (E.BOOT_POLICY.at 0).2 0 = true ∧
    (life 2 id).m.blocked E.BOOT_POLICY 0 = false ∧
    (let m := { (life 8 id).m with drainTo := 1 }; m.rd E.MODULE_STATE = 8 ∧ m.ep.writes = [] ∧ (∀ x ∈ m.chans, x.2.queue = [] ∧ x.2.issued = [] ∧ x.2.redo = [])) ∧
    (let m := (later (life 2 id)).m; m.rd E.MODULE_STATE = 2 ∧ m.gw.run = none ∧ m.gw.endAt + 10 ^ 9 ≤ m.ns) := by decide +kernel

/-- A module one of whose islands has a state. -/
def island (i st : Nat) : State := at4 fun m => m.wr E.ISLAND_STATE i st

theorem witness_IslandAndAlmanacCommands :
    (island 0x34 1).m.beats 0x34 = true ∧ (island 0x31 1).m.beats 0x31 = true ∧ (island 0x31 2).m.rd E.ISLAND_STATE 0x31 = 2 ∧ (island 0x2F 1).m.paired = false ∧
    (let m := (paired 1 7 4 {}).m.wr E.ISLAND_STATE 0x2F 1; m.beats 0x2F = true ∧ m.paired = true ∧ m.flagOn 2 = true) ∧
    (island 0x34 2).m.rd E.ISLAND_STATE 0x34 = 2 ∧ (linked {}).m.ep.up = true ∧
    (life 1 fun x => { x with supply := true }).m.powered = true ∧ (life 1 id).m.rd E.MODULE_STATE < 3 ∧ (life 1 id).m.life.trialUp = none ∧
    (life 1 fun x => { x with supply := true }).m.rd E.MODULE_STATE ≠ 2 ∧
    (at4 id).mayWrite 4 (E.CAL_CMD.at 0).1 (E.CAL_CMD.at 0).2 1 = true ∧ writtenInt E.CAL_CMD.ty [1] = 1 ∧
    (List.replicate 57 400).length = 57 ∧ (island (0x28 + 7) 1).m.rd E.ISLAND_STATE (0x28 + 7) ≠ 0 := by decide +kernel

theorem witness_FirmwareCommands :
    (at4 id).mayWrite 4 (E.FW_SIZE.at 0).1 (E.FW_SIZE.at 0).2 4096 = true ∧ (at4 id).m.blocked E.FW_SIZE 0 = false ∧
    (at4 id).mayWrite 4 0x7040 0x06 0 = true ∧ (at4 fun m => m.wr E.FW_STATE 0 1).m.rd E.FW_STATE % 4 = 1 ∧ (zeros 16).length ≤ 4096 ∧
    (at4 id).mayWrite 4 0x7040 0x07 1 = true ∧ (at4 id).mayWrite 4 0x7040 0x07 2 = true ∧ (at4 fun m => m.wr E.FW_STATE 0 2).m.rd E.FW_STATE % 4 = 2 ∧
    (at4 id).mayWrite 4 0x7040 0x07 3 = true ∧ (at4 id).mayWrite 4 0x7040 0x07 4 = true ∧ (at4 fun m => m.wr E.FW_STATE 0 3).m.rd E.FW_STATE % 4 ≠ 0 ∧
    (life 3 fun x => { x with trial := some 0 }).m.life.trial.isSome = true ∧ (life 3 id).m.life.trialUp = none ∧
    0 + 120 * 10 ^ 9 ≤ (later (life 3 id)).m.ns ∧
    (life 3 fun x => { x with trial := some 0, trialUp := some 0 }).m.life.trialUp = some 0 ∧ 0 + 600 * 10 ^ 9 ≤ (later (life 3 id)).m.ns ∧
    (at4 id).m.serves 0 = true ∧ (at4 id).m.permitted 0 0x7050 0x01 0 = true ∧ writtenInt E.FUSE_CMD.ty (leBytes 4 fuseFirst) = fuseFirst ∧
    writtenInt E.FUSE_CMD.ty (leBytes 4 fuseSecond) = fuseSecond ∧
    (life 4 fun x => { x with fuse := some (3, 0) }).m.life.fuse = some (3, 0) ∧ (life 4 id).m.ns ≤ 0 + 10 ^ 9 ∧
    (life 4 fun x => { x with blowing := true }).m.life.blowing = true := by decide +kernel

/-! ### Rules stated whole -/

theorem witness_ChannelEntriesOnlyWhileIdle :
    (at4 id).m.serves 4 = true ∧ E.SHUFFLE_MAP ∈ [E.CH_CLASS, E.RING_DIR, E.CH_ADDR, E.RING_ORDER, E.SLOT_BYTES, E.SHUFFLE_MODE, E.SHUFFLE_MAP] ∧
    ((chan127 2 0 { state := 5 }).m.chan 127).state ≠ 0 ∧ ((at4 id).m.chan 127).state = 0 ∧
    (at4 id).m.permitted 4 (0x5800 + 127) E.SHUFFLE_MAP.sub 0 = true := by decide +kernel

/-- A node with a route to address 3 by port 95, an EXPORT task and one accepted channel. -/
def exporter : Mach := ((((at4 id).m.wr E.TASK_KIND 255 5).wr E.TASK_PARAM 255 (3 + 3 * 2 ^ 16)).wrB E.ROUTE_TABLE 0 [0xFF, 0xFF, 0xFF, 95]).wrB
  E.FAB_EVENT_ACCEPT 0 (zeros 31 ++ [0x80])

theorem witness_ImportedEvents :
    exporter.rd E.TASK_KIND 255 = 5 ∧ exporter.route (exporter.rd E.TASK_PARAM 255 % 4096) = some 95 ∧ (zeros 16).length = 16 ∧
    bitOf (leNat (exporter.rdB E.FAB_EVENT_ACCEPT)) (255 % 256) = true ∧ bitOf (leNat (exporter.rdB E.FAB_EVENT_ACCEPT)) (254 % 256) = false := by
  decide +kernel
theorem witness_PointerRegions : 0x3F < 0x40 ∧ 0x60 ≤ 0x7F ∧ 0x7F < 0x80 ∧ 0xA0 ≤ 0xFF ∧ 0x80 ≤ 0x9F ∧ 0x9F < 0xA0 ∧ 0x40 ≤ 0x5F := by decide
theorem witness_DefaultMatrixIsIdentity : 7 < 8 ∧ [65535].length ≤ 8 ∧ ∀ v ∈ [65535], v < 65536 := by decide
theorem witness_NarrowSamples : 65535 < 65536 ∧ narrow8 65535 = 255 ∧ narrow8 65407 = 255 ∧ narrow12 65527 = 4095 ∧ narrow12 8 = 1 := by decide

theorem witness_CommandFrames :
    (∃ t, exec (.codewordReceive 95 []) State.reset = .next t) ∧ (∃ t, exec (.triggerAckTimeout 95 3) State.reset = .next t) ∧
    (∃ t, exec (.twiAddress 0x58 true) State.reset = .next t) ∧ (∃ t, exec .fuseBlown State.reset = .next t) ∧
    (∃ t, exec (.dictWrite 4 (E.AMP_DWELL.at 7).1 (E.AMP_DWELL.at 7).2 [1]) (at4 id) = .next t) ∧
    findEntry (E.AMP_DWELL.at 7).1 (E.AMP_DWELL.at 7).2 = some (E.AMP_DWELL, 7) ∧ (at4 id).m.xlinkUp = false := by
  refine ⟨⟨_, rfl⟩, ⟨_, rfl⟩, ⟨_, rfl⟩, ⟨_, rfl⟩, ⟨_, rfl⟩, by decide +kernel, by decide +kernel⟩

/-! ### Examples and values of the spec -/

/-- "123456789" in ASCII. -/
def digits : Bytes := [0x31, 0x32, 0x33, 0x34, 0x35, 0x36, 0x37, 0x38, 0x39]
/-- The check values of chapters 3 and 13. -/
theorem test_crcs : crc16 digits = 0x29B1 ∧ crc32c digits = 0xE3069283 ∧ crc64 0 digits = 0x6C40DF5F0B497347 := by decide +kernel
/-- Chapter 2: bit pairs and level indices, and the precoding of 1, 2, 3. -/
theorem test_levels : [pairIndex false false, pairIndex false true, pairIndex true true, pairIndex true false] = [0, 1, 2, 3] ∧
    (precode 0 [1, 2, 3]).1 = [1, 1, 2] ∧ unprecode 0 [1, 1, 2] = [1, 2, 3] := by decide
/-- Chapter 3: RAW12 0xABC and 0x123 travel as 0xBC, 0x3A, 0x12. -/
theorem test_raw12 : unpackBits 12 2 [0xBC, 0x3A, 0x12] = [0xABC, 0x123] := by decide
/-- Chapter 2: NET_RATE of a lane at no spread and at 0.30 %. -/
theorem test_net_rate : netRate 1 0 = 54094811 ∧ netRate 1 30 = 53932526 := by decide
/-- Chapter 12: at 128 bytes, 112 GB/s becomes 84. -/
theorem test_host_rate : linkE 6 16 512 = 112 ∧ linkE 6 16 128 = 84 := by decide
/-- Chapter 5: the rows that supply a halo. -/
theorem test_halo : ([-1, -2, -3, -4, -5, -6].map fun i => edgeSrc i 10 2) = [1, 0, 1, 0, 1, 0] ∧
    ([10, 11, 12].map fun i => edgeSrc i 10 2) = [8, 9, 8] := by decide
/-- Chapter 6: steps 2c and 2d and the black level of one G sample of S002. -/
theorem test_noise :
    let p : Params := { readParams frameDefault with ng := #[0, 4096], no := #[0, 1024] }
    let vs : List Int := [9870, 9902, 10015, 9958, 9890, 9977, 10060, 13940]
    asr ((10800 - 1024) * 16644 + 8192) 14 = 9931 ∧ p.var 1 9931 = 159920 ∧ step2c 1 p 96 9931 vs = (9931, 0) ∧
    step2d 1 p 32 192 9931 vs = 9945 := by decide +kernel
/-- Chapter 7: stage 6 of one pixel of S002, and its bytes. -/
theorem test_matrix :
    let z : List Int := [0, 0, 0, 0]
    let p : Params := { readParams frameDefault with mx := ([6144, -1024, -1024, 0] ++ z ++ [-512, 5120, -512, 0] ++ z ++ [-1024, -1024, 6144, 0] ++ z ++ [0, 0, 0, 4096] ++ z).toArray, mo := #[0, 0, 0, -512] }
    matrixPixel p 4 [6000, 10231, 4000, 8030] = ([5442, 11539, 1942, 7518], 0) ∧
    [19810, 28308, 11230, 7518].map narrow8 = [0x4D, 0x6F, 0x2C, 0x1D] := by decide +kernel
/-- Chapter 11: TW64 one millisecond after an anchor. -/
theorem test_time : twAt 256000000000 785365448411 4294967296 4296367296 = 256255999999#64 := by decide +kernel
/-- Chapter 10: the nearest update to 47,977.0 and to 47,985.0 µs on a grid of 10 µs. -/
theorem test_grid :
    let m := (at4 fun m => (m.wr E.UPDATE_PERIOD 0 10).setVport 0 { grid := true }).m
    m.near 0 (BitVec.ofNat 64 (47977 * 256000)) = BitVec.ofNat 64 (47980 * 256000) ∧
    m.near 0 (BitVec.ofNat 64 (47985 * 256000)) = BitVec.ofNat 64 (47990 * 256000) := by decide +kernel
/-- Chapter 10: valves 136 to 138 of 256 stand at bits 133 to 135 behind the marker 0xA537. -/
theorem test_valve_frame :
    let b := frameBits 0x37 ((List.range 256).map fun v => decide (136 ≤ v ∧ v ≤ 138))
    b.length = 272 ∧ ((List.range 272).filter fun i => decide (16 ≤ i) && b.getD i false) = [133, 134, 135] ∧
    ((List.range 16).foldl (fun r i => 2 * r + bn (b.getD i false)) 0) = 0xA537 := by decide +kernel
/-- Chapter 16: five clamped writes through the mailbox. -/
theorem test_five_writes :
    let w : List (Nat × Nat × Nat × Nat × Nat × Entry × Nat) :=
      [(0x3102, 0x0E, 2, 2000, 1, E.STRIPE_ROWS, 1024), (0x3102, 0x10, 2, 0x34, 3, E.OUTPUTS, 4), (0x5C00, 2, 1, 12, 1, E.MAX_LINK_WIDTH, 8),
       (0x5000, 8, 1, 7, 2, E.TIME_SOURCE, 2), (0x4002, 6, 2, 8, 1, E.BG_STALL, 0)]
    let r := w.foldl (fun (r : State × List Bool) k =>
      let s := r.1.write 0 k.1 k.2.1 (leBytes k.2.2.1 k.2.2.2.1)
      let i := if k.1 = 0x3102 ∨ k.1 = 0x4002 then 2 else 0
      (s, (s.m.rd k.2.2.2.2.2.1 i == k.2.2.2.2.2.2 && s.m.rd E.LAST_CLAMP_KIND == k.2.2.2.2.1) :: r.2)) (at4 id, [])
    r.2.all (· == true) = true ∧ r.1.m.rd E.CLAMP_TALLY = 5 ∧ r.1.m.rd E.LAST_CLAMPED = 0x00400206 := by decide +kernel
/-- Chapter 17: a sensor's first byte is the upper one. -/
theorem test_sensor : (match exec (.twcTransferDone [0x12, 0x34]) (twcAt (some 8) 1) with
    | .next t => t.m.rd E.SENSOR_VALUE 7 == 0x1234
    | _ => false) = true := by decide +kernel
/-- Chapter 9: Gray codes of 7 and 8 at four bits. -/
theorem test_gray : grayToBinary 4 false 0b0100 = 7 ∧ grayToBinary 4 false 0b1100 = 8 := by decide
/-- Chapter 12: a raised vector waits in the PBA while its entry is masked. -/
theorem test_msix_pending : ((linked { msixEnable := true, bme := true }).m.raise 2047).ep.pba = [2047] := by decide +kernel

end Sys2Proof.Tests
end

/-! Step 2a of the planer (ch. 6, "2a: black-level normalisation"). -/

namespace Sys2Proof

/-- `clampInt` is the three-way choice of R159: the low bound, the high bound, or the value itself. -/
theorem clampInt_eq_ite (a lo hi : Int) : clampInt a lo hi = if a < lo then lo else if hi < a then hi else a := rfl

/-- The shift of R171 as a floored division, by a numeral. -/
theorem asr_fourteen (a : Int) : asr a 14 = Int.fdiv a 16384 := by
  have h : ((2 ^ 14 : Nat) : Int) = 16384 := by norm_num
  rw [asr, h]

namespace Machine

/-- `d` of R171: the unpacked sample of the row and column that supply `(x, y)`, less BL at the site of `(x, y)`. -/
def Ctx.aboveBlack (c : Ctx) (x y : Int) : Int :=
  let row := c.row (c.rowSrc y)
  (c.prof.unpack c.bits (row.px.getD (c.colSrc x) 0) : Nat) - (row.set.bl.getD (c.prof.site x y) 0 : Nat)

/-- `BN[site]` of R171, from the set bound to the row that supplies `y`. -/
def Ctx.gainAt (c : Ctx) (x y : Int) : Nat := (c.row (c.rowSrc y)).set.bn.getD (c.prof.site x y) 0

/-- The value of step 2a, in the spec's own functions. -/
theorem Ctx.normal_fst (c : Ctx) (x y : Int) :
    (c.normal x y).1 = clampInt (asr (c.aboveBlack x y * c.gainAt x y + 8192) 14) (-8192) 65535 := rfl

/-- Settles O57: the value of step 2a is `clamp(asr(d × BN + 8,192, 14), -8,192, 65,535)`, and there the shift is a floored
division by 2^14 and the clamp a choice of three. -/
theorem blackLevel : Obligations.BlackLevel := by
  intro c x y row site d n
  have hn : asr (c.aboveBlack x y * c.gainAt x y + 8192) 14 = n := asr_fourteen _
  calc (c.normal x y).1
      _ = clampInt (asr (c.aboveBlack x y * c.gainAt x y + 8192) 14) (-8192) 65535 := c.normal_fst x y
      _ = clampInt n (-8192) 65535 := by rw [hn]
      _ = if n < -8192 then -8192 else if 65535 < n then 65535 else n := clampInt_eq_ite n _ _

end Machine
end Sys2Proof

/-! The defaults of a profile (R170) and the matrix of stage 6 (R195 to R197). -/

namespace Sys2Proof

/-! ### Numbers in strings of bytes (R9) -/

@[simp] theorem length_leBytes (k n : Nat) : (leBytes k n).length = k := by
  induction k generalizing n with
  | zero => rfl
  | succ k ih => simp [leBytes, ih]

@[simp] theorem leNat_leBytes (k n : Nat) : leNat (leBytes k n) = n % 256 ^ k := by
  induction k generalizing n with
  | zero => simp [leBytes, leNat, Nat.mod_one]
  | succ k ih =>
    calc leNat (leBytes (k + 1) n)
        _ = n % 256 + 256 * (n / 256 % 256 ^ k) := by simp [leBytes, leNat, ih]
        _ = n % 256 ^ (k + 1) := by rw [pow_succ', Nat.mod_mul]

@[simp] theorem length_zeros (k : Nat) : (zeros k).length = k := List.length_replicate

@[simp] theorem leNat_zeros (k : Nat) : leNat (zeros k) = 0 := by
  induction k with
  | zero => rfl
  | succ k ih => simpa [zeros, List.replicate_succ, leNat] using ih

@[simp] theorem leAt_zeros (n o k : Nat) : leAt (zeros n) o k = 0 := by
  have h : ((zeros n).drop o).take k = zeros (min k (n - o)) := by simp [zeros]
  rw [leAt, h, leNat_zeros]

/-- A field behind a head of `n` bytes is a field of the rest. -/
theorem leAt_append_right {a : Bytes} {n : Nat} (h : a.length = n) (b : Bytes) (o k : Nat) :
    leAt (a ++ b) (n + o) k = leAt b o k := by
  rw [leAt, ← h, List.drop_length_add_append, leAt]

/-- Of blocks of `c` bytes in a row, field `j` of `c` bytes is block `j`. -/
theorem leAt_flatten {c : Nat} (t : Bytes) {l : List Bytes} (hl : ∀ b ∈ l, b.length = c) {j : Nat} (hj : j < l.length) :
    leAt (l.flatten ++ t) (c * j) c = leNat l[j] := by
  induction l generalizing j with
  | nil => simp at hj
  | cons a l ih =>
    have ha : a.length = c := hl a (by simp)
    rw [List.flatten_cons, List.append_assoc]
    cases j with
    | zero => simp [leAt, ← ha]
    | succ j =>
      rw [Nat.mul_succ, Nat.add_comm, leAt_append_right ha]
      exact ih (fun b hb => hl b (by simp [hb])) (by simpa using hj)

/-! ### The arithmetic of R159 -/

theorem clampInt_of_mem {a lo hi : Int} (h : lo ≤ a) (h' : a ≤ hi) : clampInt a lo hi = a := by
  rw [clampInt_eq_ite, if_neg (by omega), if_neg (by omega)]

/-- The rounding of a product by 1.0 in s3.12 gives the factor back. -/
theorem asr_twelve_of_mul (v : Int) : asr (4096 * v + 2048) 12 = v := by
  have h : ((2 ^ 12 : Nat) : Int) = 4096 := by norm_num
  rw [asr, h, Int.fdiv_eq_ediv_of_nonneg _ (by norm_num)]
  omega

theorem signedOf_of_lt {w n : Nat} (h : 2 * n < 2 ^ w) : signedOf w n = n := by
  have hn : n % 2 ^ w = n := Nat.mod_eq_of_lt (by omega)
  simp [signedOf, hn, h]

namespace Machine

/-! ### The bytes of the default set -/

/-- The bytes of MX in the default set: 1.0 of s3.12 on the diagonal, 0 beside it. -/
def identityBytes : List Bytes := (List.range 64).map fun j => leBytes 2 (if j / 8 = j % 8 then 4096 else 0)

/-- The bytes of the default set below MX. -/
def frameDefaultHead : Bytes :=
  zeros 32 ++ rep 16 (leBytes 2 16384) ++ zeros 32 ++ zeros 64 ++ rep 8 (leBytes 2 4096) ++ zeros 80

theorem frameDefault_eq : frameDefault = frameDefaultHead ++ (identityBytes.flatten ++ zeros 128) :=
  List.append_assoc _ _ _

theorem length_rep (n : Nat) (b : Bytes) : (rep n b).length = n * b.length := by simp [rep]

theorem length_frameDefaultHead : frameDefaultHead.length = 256 := by simp [frameDefaultHead, length_rep]

theorem length_of_mem_identityBytes {b : Bytes} (h : b ∈ identityBytes) : b.length = 2 := by
  obtain ⟨j, -, rfl⟩ := List.mem_map.mp h
  exact length_leBytes 2 _

theorem length_flatten_identityBytes : identityBytes.flatten.length = 128 := by
  simp [identityBytes, Function.comp_def]

/-- MX of the default set, as it lies in the bytes (R195, R196). -/
theorem leAt_frameDefault_mx {o i : Nat} (ho : o < 8) (hi : i < 8) :
    leAt frameDefault (256 + 2 * (8 * o + i)) 2 = if o = i then 4096 else 0 := by
  have hj : 8 * o + i < identityBytes.length := by simp [identityBytes]; omega
  have hrow : (8 * o + i) / 8 = o := by omega
  have hcol : (8 * o + i) % 8 = i := by omega
  rw [frameDefault_eq, leAt_append_right length_frameDefaultHead, leAt_flatten _ (fun _ => length_of_mem_identityBytes) hj]
  simp only [identityBytes, List.getElem_map, List.getElem_range, leNat_leBytes, hrow, hcol]
  split <;> rfl

/-- MO of the default set, as it lies in the bytes (R195, R196). -/
theorem leAt_frameDefault_mo (o : Nat) : leAt frameDefault (384 + 4 * o) 4 = 0 := by
  have h : (frameDefaultHead ++ identityBytes.flatten).length = 384 := by
    rw [List.length_append, length_frameDefaultHead, length_flatten_identityBytes]
  rw [frameDefault_eq, ← List.append_assoc, leAt_append_right h, leAt_zeros]

/-! ### The set that the defaults hold -/

/-- Element `i` of a vector of `n` fields, read by `f`. -/
theorem getD_map_numbersAt (f : Nat → Int) (b : Bytes) (o k : Nat) {n i : Nat} (h : i < n) (d : Int) :
    ((numbersAt b o k n).map f).getD i d = f (leAt b (o + k * i) k) := by
  simp [numbersAt, h]

/-- MX of the defaults is the identity (R196). -/
theorem readParams_frameDefault_mx {o i : Nat} (ho : o < 8) (hi : i < 8) :
    (readParams frameDefault).mx.getD (8 * o + i) 0 = if o = i then 4096 else 0 := by
  calc (readParams frameDefault).mx.getD (8 * o + i) 0
      _ = signedOf 16 (leAt frameDefault (256 + 2 * (8 * o + i)) 2) := getD_map_numbersAt _ _ _ _ (by omega) _
      _ = signedOf 16 (if o = i then 4096 else 0) := by rw [leAt_frameDefault_mx ho hi]
      _ = if o = i then 4096 else 0 := by split <;> exact signedOf_of_lt (by norm_num)

/-- MO of the defaults is 0 (R196). -/
theorem readParams_frameDefault_mo {o : Nat} (ho : o < 8) : (readParams frameDefault).mo.getD o 0 = 0 := by
  calc (readParams frameDefault).mo.getD o 0
      _ = signedOf 32 (leAt frameDefault (384 + 4 * o) 4) := getD_map_numbersAt _ _ _ _ ho _
      _ = signedOf 32 0 := by rw [leAt_frameDefault_mo]
      _ = 0 := signedOf_of_lt (by norm_num)

/-- After reset every entry holds its default. -/
theorem reset_val (e : Entry) (k : Nat) : State.reset.m.val e k = e.dflt := rfl

/-! ### Stage 6 (R197) -/

/-- `acc` of R197: the bands weighted by row `o` of MX, and MO[o] at 12 more bits. -/
def Params.matrixAcc (s : Params) (o : Nat) (bands : List Nat) : Int :=
  (bands.zipIdx.foldl (fun (r : Int) b => r + s.mx.getD (8 * o + b.2) 0 * b.1) 0) + s.mo.getD o 0 * 4096

/-- A channel before its clamp (R197). -/
def Params.matrixValue (s : Params) (o : Nat) (bands : List Nat) : Int := asr (s.matrixAcc o bands + 2048) 12

theorem matrixPixel_eq (s : Params) (outCh : Nat) (bands : List Nat) :
    matrixPixel s outCh bands =
      ((List.range outCh).map fun o => (clampInt (s.matrixValue o bands) 0 65535).toNat,
        (((List.range outCh).map fun o =>
          bn (s.matrixValue o bands ≠ clampInt (s.matrixValue o bands) 0 65535)).foldl (· + ·) 0)) := by
  simp only [matrixPixel, List.map_map, List.foldl_map]
  rfl

/-- Where every channel is a 16-bit number before its clamp, stage 6 gives those numbers and counts no clamp. -/
theorem matrixPixel_of_unclamped {s : Params} {outCh : Nat} {bands : List Nat} {f : Nat → Nat}
    (hf : ∀ o < outCh, s.matrixValue o bands = f o) (hw : ∀ o < outCh, f o < 65536) :
    matrixPixel s outCh bands = ((List.range outCh).map f, 0) := by
  have hc : ∀ o < outCh, clampInt (s.matrixValue o bands) 0 65535 = f o := fun o ho => by
    have := hw o ho
    rw [hf o ho, clampInt_of_mem (by omega) (by omega)]
  have hch : ((List.range outCh).map fun o => (clampInt (s.matrixValue o bands) 0 65535).toNat) = (List.range outCh).map f :=
    List.map_congr_left fun o ho => by rw [hc o (List.mem_range.mp ho), Int.toNat_natCast]
  have hcl : ((List.range outCh).map fun o => bn (s.matrixValue o bands ≠ clampInt (s.matrixValue o bands) 0 65535)) =
      (List.range outCh).map fun _ => 0 :=
    List.map_congr_left fun o ho => by
      rw [hc o (List.mem_range.mp ho), hf o (List.mem_range.mp ho)]; simp [bn]
  rw [matrixPixel_eq, hch, hcl, ← List.sum_eq_foldl_nat]
  simp

/-- A sum over the numbered bands with weight 1.0 on band `o` alone is that band in s3.12. -/
theorem foldl_unitRow {w : Nat → Int} {o n : Nat} (hw : ∀ i < n, w i = if o = i then 4096 else 0) (bands : List Nat) (k : Nat)
    (hk : k + bands.length ≤ n) (r : Int) :
    (bands.zipIdx k).foldl (fun (r : Int) b => r + w b.2 * b.1) r =
      r + 4096 * (if k ≤ o then bands.getD (o - k) 0 else 0 : Nat) := by
  induction bands generalizing k r with
  | nil => simp
  | cons v bands ih =>
    rw [List.length_cons] at hk
    rw [List.zipIdx_cons, List.foldl_cons, ih (k + 1) (by omega), hw k (by omega)]
    rcases Nat.lt_trichotomy k o with h | rfl | h
    · have hs : o - k = (o - (k + 1)) + 1 := by omega
      simp [h.ne', h.le, Nat.succ_le_of_lt h, hs]
    · simp
    · simp [h.ne, h.not_ge, (h.trans (Nat.lt_succ_self k)).not_ge]

/-- With the defaults a channel is the band of its number. -/
theorem matrixValue_frameDefault {bands : List Nat} (hb : bands.length ≤ 8) {o : Nat} (ho : o < 8) :
    (readParams frameDefault).matrixValue o bands = (bands.getD o 0 : Nat) := by
  have hacc : (readParams frameDefault).matrixAcc o bands = 4096 * (bands.getD o 0 : Nat) := by
    have hrow := foldl_unitRow (n := 8) (fun i hi => readParams_frameDefault_mx ho hi) bands 0 (by omega) 0
    rw [Params.matrixAcc, hrow, readParams_frameDefault_mo ho]
    simp
  rw [Params.matrixValue, hacc, asr_twelve_of_mul]

theorem getD_lt_of_forall_mem {l : List Nat} {b : Nat} (hb : 0 < b) (h : ∀ v ∈ l, v < b) (i : Nat) : l.getD i 0 < b := by
  rcases Nat.lt_or_ge i l.length with hi | hi
  · rw [List.getD_eq_getElem _ _ hi]
    exact h _ (List.getElem_mem hi)
  · rwa [List.getD_eq_default _ _ hi]

/-- Settles O58: the bytes of the defaults read as the identity matrix, every profile holds them after reset, and stage 6 on the
identity matrix adds to each channel its own band alone. -/
theorem defaultMatrixIsIdentity : Obligations.DefaultMatrixIsIdentity := by
  refine ⟨fun o i ho hi => readParams_frameDefault_mx ho hi, fun o ho => readParams_frameDefault_mo ho, fun k _ => ?_,
    fun n bands hn hb hv => ?_⟩
  · rw [Mach.rdB, reset_val]
    rfl
  · exact matrixPixel_of_unclamped (fun o ho => matrixValue_frameDefault hb (by omega))
      (fun o _ => getD_lt_of_forall_mem (by norm_num) hv o)

/-! ### The narrower samples of stage 10 (R209) -/

/-- A quotient held to at most `m` reaches `m` where the dividend does so with its last full step. -/
theorem min_div_eq_ite {d : Nat} (hd : 0 < d) (a m : Nat) : Nat.min (a / d) m = if (m + 1) * d ≤ a then m else a / d := by
  split
  · next h => exact Nat.min_eq_right ((Nat.le_succ m).trans ((Nat.le_div_iff_mul_le hd).mpr h))
  · next h => exact Nat.min_eq_left (Nat.lt_succ_iff.mp ((Nat.div_lt_iff_lt_mul hd).mpr (not_le.mp h)))

theorem narrow8_eq_ite (v : Nat) : narrow8 v = if 65408 ≤ v then 255 else (v + 128) >>> 8 := by
  have h : (255 + 1) * 256 ≤ v + 128 ↔ 65408 ≤ v := by omega
  rw [narrow8, min_div_eq_ite (by norm_num), Nat.shiftRight_eq_div_pow]
  simp only [h, Nat.reducePow]

theorem narrow12_eq_ite (v : Nat) : narrow12 v = if 65528 ≤ v then 4095 else (v + 8) >>> 4 := by
  have h : (4095 + 1) * 16 ≤ v + 8 ↔ 65528 ≤ v := by omega
  rw [narrow12, min_div_eq_ite (by norm_num), Nat.shiftRight_eq_div_pow]
  simp only [h, Nat.reducePow]

theorem narrow8_lt (v : Nat) : narrow8 v < 256 := Nat.lt_succ_of_le (Nat.min_le_right _ _)

theorem narrow12_lt (v : Nat) : narrow12 v < 4096 := Nat.lt_succ_of_le (Nat.min_le_right _ _)

/-- Settles O59: the cap at the greatest sample is the spec's choice by the value, for each width. -/
theorem narrowSamples : Obligations.NarrowSamples :=
  fun v _ => ⟨narrow8_eq_ite v, narrow12_eq_ite v, narrow8_lt v, narrow12_lt v⟩

end Machine
end Sys2Proof

/-! Writes of plain entries by index and subindex (R423, R426), and the entries of a channel that its state closes (R338). -/

namespace Sys2Proof.Machine

/-! ### The rows of the dictionary -/

/-- Two rows share no index and subindex: their indices or their subindices lie apart. -/
def Entry.apart (e e' : Entry) : Bool :=
  decide (e.base + e.count ≤ e'.base ∨ e'.base + e'.count ≤ e.base ∨ e.sub + e.subs ≤ e'.sub ∨ e'.sub + e'.subs ≤ e.sub)

theorem Entry.apart_iff {e e' : Entry} : e.apart e' = true ↔
    e.base + e.count ≤ e'.base ∨ e'.base + e'.count ≤ e.base ∨ e.sub + e.subs ≤ e'.sub ∨ e'.sub + e'.subs ≤ e.sub :=
  decide_eq_true_iff

/-- What a row answers to `findEntry`: itself and the number of the entry that index and subindex name. -/
def Entry.found (index sub : Nat) (e : Entry) : Option (Entry × Nat) :=
  if e.subs = 1 then
    if e.base ≤ index ∧ index < e.base + e.count ∧ e.sub = sub then some (e, index - e.base) else none
  else if e.base = index ∧ e.sub ≤ sub ∧ sub < e.sub + e.subs then some (e, sub - e.sub) else none

theorem findEntry_eq_findSome? (index sub : Nat) : findEntry index sub = entryTable.findSome? (Entry.found index sub) := rfl

theorem Entry.found_of_subs_one {e : Entry} (h : e.subs = 1) {k : Nat} (hk : k < e.count) :
    e.found (e.base + k) e.sub = some (e, k) := by
  simp [Entry.found, h, hk]

theorem Entry.found_of_apart {e e' : Entry} (h : e.subs = 1) (h' : 0 < e'.count) (ha : e'.apart e = true) {k : Nat}
    (hk : k < e.count) : e'.found (e.base + k) e.sub = none := by
  rw [Entry.apart_iff] at ha
  unfold Entry.found
  split
  · exact if_neg (by omega)
  · exact if_neg (by omega)

/-- Every row of the dictionary stands for some entry. -/
theorem count_pos_of_mem_entryTable : ∀ e ∈ entryTable, 0 < e.count := by decide +kernel

/-- A row with one subindex that lies apart from all others is the row found at each of its indices. -/
theorem findEntry_of_apart {e : Entry} (hmem : e ∈ entryTable) (h : e.subs = 1) (ha : ∀ e' ∈ entryTable, e'.apart e = true ∨ e' = e)
    {k : Nat} (hk : k < e.count) : findEntry (e.base + k) e.sub = some (e, k) := by
  have hself : e.found (e.base + k) e.sub = some (e, k) := Entry.found_of_subs_one h hk
  rw [findEntry_eq_findSome?]
  cases hf : entryTable.findSome? (Entry.found (e.base + k) e.sub) with
  | none =>
    have hnone := List.findSome?_eq_none_iff.mp hf e hmem
    rw [hself] at hnone
    exact absurd hnone (Option.some_ne_none _)
  | some r =>
    obtain ⟨e', hmem', hr⟩ := List.exists_of_findSome?_eq_some hf
    rcases ha e' hmem' with hapart | rfl
    · rw [Entry.found_of_apart h (count_pos_of_mem_entryTable e' hmem') hapart hk] at hr
      exact absurd hr.symm (Option.some_ne_none _)
    · rw [← hr, hself]

/-- The index and subindex of entry `k` of a row with one subindex. -/
theorem Entry.at_of_subs_one {e : Entry} (h : e.subs = 1) (hs : e.sub < 256) (k : Nat) : e.at k = (e.base + k, e.sub) := by
  have hkey : e.key k = (e.base + k) * 256 + e.sub := if_pos h
  rw [Entry.at, hkey]
  ext <;> dsimp only <;> omega

/-! ### The gate of a write (R426, R438) -/

theorem Mach.command_of_closed {m : Mach} {path : Nat} (hs : m.serves path = true) (index sub : Nat) (data : Bytes) (f : Mach → Mach) :
    m.command path index sub data false f = m.tally path index sub 8 data := by
  simp [Mach.command, hs]

theorem Mach.command_of_permitted {m : Mach} {path index sub : Nat} {data : Bytes} (hs : m.serves path = true)
    (hp : m.permitted path index sub (leNat (data.take 8)) = true) (f : Mach → Mach) :
    m.command path index sub data true f = m.wide path index sub data f := by
  simp [Mach.command, hs, hp]

/-- A plain write of an entry that can be written passes the gate, which the owning chapter's present state may close. -/
theorem Mach.writePlain_eq_command {m : Mach} {path : Nat} (hs : m.serves path = true) {e : Entry} (hro : e.acc ≠ .ro)
    (hconst : e.acc ≠ .const) (k : Nat) (data : Bytes) :
    m.writePlain path e k data =
      m.command path (e.at k).1 (e.at k).2 data (!m.blocked e k) fun m => m.putEntry path e k data := by
  simp [Mach.writePlain, Mach.writeEntry, hs, hro, hconst]

/-! ### Writes to the engine, the fabric, the pair and the two-wire buses -/

/-- The entries of these subjects whose write has a further effect. -/
def linkActs : List Entry :=
  [E.CH_CMD, E.SHARE_EXTRA, E.HOST_SHARE_LIMIT, E.FAB_MEMBERS, E.MEMBERS_ENABLE, E.FAB_PRIORITY, E.FAB_ADDR_PIN, E.XLINK_PORTS,
   E.PAIR_ENABLE, E.PAIR_CMD, E.TWI_FLAG_CLEAR]

theorem State.writeLinks_of_not_mem {e : Entry} (h : e ∉ linkActs) (s : State) (path k : Nat) (data : Bytes) :
    s.writeLinks path e k data = { s with m := s.m.writePlain path e k data } := by
  simp only [linkActs, List.mem_cons, List.not_mem_nil, or_false, not_or] at h
  simp [State.writeLinks, h]

theorem State.write_of_findEntry_links {s : State} {path index sub : Nat} (hs : s.m.serves path = true) {e : Entry} {k : Nat}
    (hf : findEntry index sub = some (e, k)) (hro : e.acc ≠ .ro) (hconst : e.acc ≠ .const) (hlo : 0x5800 ≤ index)
    (hhi : index < 0x6C00) (data : Bytes) : s.write path index sub data = s.writeLinks path e k data := by
  have hbench : ¬(index < 0x2000 ∨ 0x6C00 ≤ index) := by omega
  have hlanes : ¬index < 0x3000 := by omega
  have hstreams : ¬index < 0x4400 := by omega
  have hio : ¬index < 0x5800 := by omega
  simp [State.write, hs, hf, hro, hconst, hbench, hlanes, hstreams, hio]

theorem exec_dictWrite {path : Nat} (h : path < 5) (index sub : Nat) (data : Bytes) (s : State) :
    exec (.dictWrite path index sub data) s = .next (s.write path index sub data) := if_pos h

/-! ### The entries of a channel that its state closes (R338) -/

/-- The entries of R338. -/
def idleOnly : List Entry :=
  [E.CH_CLASS, E.RING_DIR, E.CH_ADDR, E.RING_ORDER, E.SLOT_BYTES, E.SHUFFLE_MODE, E.SHUFFLE_MAP]

theorem idleOnly_row : ∀ e ∈ idleOnly, e.base = 0x5800 ∧ e.count = 128 ∧ e.subs = 1 ∧ e.sub < 256 ∧ e.acc = .rw := by decide

theorem idleOnly_not_mem_linkActs : ∀ e ∈ idleOnly, e ∉ linkActs := by decide

theorem idleOnly_subset_entryTable : ∀ e ∈ idleOnly, e ∈ entryTable := by decide +kernel

theorem idleOnly_apart : ∀ e ∈ idleOnly, ∀ e' ∈ entryTable, e'.apart e = true ∨ e' = e := by decide +kernel

theorem findEntry_idleOnly {e : Entry} (he : e ∈ idleOnly) {c : Nat} (hc : c < 128) :
    findEntry (0x5800 + c) e.sub = some (e, c) := by
  obtain ⟨hbase, hcount, hsubs, -, -⟩ := idleOnly_row e he
  rw [← hbase]
  exact findEntry_of_apart (idleOnly_subset_entryTable e he) hsubs (idleOnly_apart e he) (hcount ▸ hc)

/-- The lists of entries by which other chapters close a write hold none of R338's. -/
theorem idleOnly_not_mem_others : ∀ e ∈ idleOnly,
    e ∉ [E.OUT_CH, E.OUT_FORMAT, E.STATS_CH, E.STATS_EN, E.ZONES_X, E.ZONES_Y] ∧
    e ∉ [E.VP_LENGTH, E.VP_ROW, E.UPDATE_PERIOD, E.VP_ANCHOR, E.VP_CLKDIV] ∧ e ∉ [E.TBL_PROFILE, E.TBL_KIND, E.TBL_SIZE] := by
  decide

/-- Of R338's entries, the channel's state alone decides whether a write is closed. -/
theorem Mach.blocked_idleOnly {e : Entry} (he : e ∈ idleOnly) (m : Mach) (c : Nat) :
    m.blocked e c = ((m.chan c).state != 0) := by
  obtain ⟨hbase, -, -, -, hacc⟩ := idleOnly_row e he
  obtain ⟨hprofile, hvalves, htables⟩ := idleOnly_not_mem_others e he
  have hidle : [E.CH_CLASS, E.RING_DIR, E.CH_ADDR, E.RING_ORDER, E.SLOT_BYTES, E.SHUFFLE_MODE, E.SHUFFLE_MAP].contains e = true :=
    List.contains_iff_mem.mpr he
  rw [← List.contains_iff_mem, Bool.not_eq_true] at hprofile hvalves htables
  simp only [Mach.blocked, hacc, hbase, hidle, hprofile, hvalves, htables]
  simp

/-- A write of one of R338's entries by index and subindex is a command that the channel's state gates. -/
theorem dictWrite_idleOnly {s : State} {path c : Nat} {e : Entry} (hp : path < 5) (hc : c < 128) (hs : s.m.serves path = true)
    (he : e ∈ idleOnly) (data : Bytes) :
    completesWith (.dictWrite path (0x5800 + c) e.sub data) s
      (s.m.command path (0x5800 + c) e.sub data (!((s.m.chan c).state != 0)) fun m => m.putEntry path e c data) := by
  obtain ⟨hbase, -, hsubs, hsub, hacc⟩ := idleOnly_row e he
  have hro : e.acc ≠ .ro := by simp [hacc]
  have hconst : e.acc ≠ .const := by simp [hacc]
  rw [completesWith, exec_dictWrite hp,
    State.write_of_findEntry_links hs (findEntry_idleOnly he hc) hro hconst (by omega) (by omega),
    State.writeLinks_of_not_mem (idleOnly_not_mem_linkActs e he), Mach.writePlain_eq_command hs hro hconst,
    Mach.blocked_idleOnly he, Entry.at_of_subs_one hsubs hsub, hbase]

/-- Settles O54: the write is a command, whose gate is closed in every state but IDLE and open in IDLE. -/
theorem channelEntriesOnlyWhileIdle : Obligations.ChannelEntriesOnlyWhileIdle := by
  intro s path c e data hp hc hs he
  have hwrite := dictWrite_idleOnly hp hc hs he data
  refine ⟨fun hstate => ?_, fun hidle hperm => ?_⟩
  · have hclosed : (!((s.m.chan c).state != 0)) = false := by simp [hstate]
    rwa [hclosed, Mach.command_of_closed hs] at hwrite
  · have hopen : (!((s.m.chan c).state != 0)) = true := by simp [hidle]
    rwa [hopen, Mach.command_of_permitted hs hperm] at hwrite

end Sys2Proof.Machine

/-! EVENT frames: what an EXPORT task sends and how the receiver takes it (R305, R384). -/

namespace Sys2Proof

/-! ### Single bits of strings of bytes (R8, R9) -/

theorem bitOf_eq_testBit (n i : Nat) : bitOf n i = n.testBit i := by
  rw [Nat.testBit_eq_decide_div_mod_eq]
  rfl

theorem leNat_take (b : Bytes) (k : Nat) : leNat (b.take k) = leNat b % 256 ^ k := by
  induction b generalizing k with
  | nil => simp [leNat]
  | cons v b ih =>
    cases k with
    | zero => simp [leNat, Nat.mod_one]
    | succ k =>
      have hlow : (v.toNat + 256 * leNat b) % 256 = v.toNat := by omega
      have hhigh : (v.toNat + 256 * leNat b) / 256 = leNat b := by omega
      rw [List.take_succ_cons, leNat, leNat, ih, pow_succ', Nat.mod_mul, hlow, hhigh]

theorem leNat_drop (b : Bytes) (o : Nat) : leNat (b.drop o) = leNat b / 256 ^ o := by
  induction b generalizing o with
  | nil => simp [leNat]
  | cons v b ih =>
    cases o with
    | zero => simp
    | succ o =>
      have hhigh : (v.toNat + 256 * leNat b) / 256 = leNat b := by omega
      rw [List.drop_succ_cons, ih, leNat, pow_succ', ← Nat.div_div_eq_div_mul, hhigh]

/-- A field of a string of bytes is a run of digits, in base 256, of the number that the whole string holds. -/
theorem leAt_eq_div_mod (b : Bytes) (o k : Nat) : leAt b o k = leNat b / 256 ^ o % 256 ^ k := by
  rw [leAt, leNat_take, leNat_drop]

/-- Bit `i` of a string of bytes is bit `i % 8` of its byte `i / 8`. -/
theorem bitOf_byte (b : Bytes) (i : Nat) : bitOf (leAt b (i / 8) 1) (i % 8) = bitOf (leNat b) i := by
  have hpow : 256 ^ (i / 8) = 2 ^ (8 * (i / 8)) := (pow_mul 2 8 _).symm
  have hbyte : (256 : Nat) ^ 1 = 2 ^ 8 := rfl
  have hin : i % 8 < 8 := Nat.mod_lt i (by norm_num)
  rw [leAt_eq_div_mod, bitOf_eq_testBit, bitOf_eq_testBit, hpow, hbyte, Nat.testBit_mod_two_pow, Nat.testBit_div_two_pow,
    Nat.mod_add_div]
  simp [hin]

namespace Machine

/-! ### Sending (R305) -/

/-- A frame of the module's own leaves exactly where there is a route to its destination (R374). -/
@[simp] theorem Mach.sendTo_fst (m : Mach) (dst tc kind argA argB : Nat) (payload : Bytes) (flow : Nat) :
    (m.sendTo dst tc kind argA argB payload flow).1 = (m.route dst).isSome := by
  rw [Mach.sendTo]
  cases m.route dst with
  | none => rfl
  | some p => rfl

/-- The action of an EXPORT task: an EVENT frame where there is a route, or else one dropped action. -/
theorem Mach.act_export {m : Mach} {t : Nat} (h : m.rd E.TASK_KIND t = 5) (e : Event) :
    m.act t e =
      if (m.route (m.rd E.TASK_PARAM t % 4096)).isSome then
        (m.sendTo (m.rd E.TASK_PARAM t % 4096) 1 0x20 (m.rd E.TASK_PARAM t / 2 ^ 16 % 256) 0 e.record).2
      else m.inc E.TASK_DROPS t := by
  simp [Mach.act, h]

/-! ### Receiving (R384) -/

/-- FAB_EVENT_ACCEPT accepts imports on channel `c`: bit `c` of its 32 bytes. -/
def Mach.accepts (m : Mach) (c : Nat) : Bool := bitOf (leNat (m.rdB E.FAB_EVENT_ACCEPT)) c

/-- The event that an EVENT frame brings: producer kind 9 from the sender's address, one generation on. -/
def FabMsg.imported (f : FabMsg) : Event :=
  { ch := f.argA % 256, gen := bitsOf (leAt f.payload 0 4) 10 8 + 1, src := 0x9000 + f.src % 4096, data := leAt f.payload 4 4,
    stamp := BitVec.ofNat 64 (leAt f.payload 8 8) }

/-- An EVENT frame that holds a whole record is published or refused by the channel it names alone. -/
theorem Mach.onEvent_of_whole {f : FabMsg} (h : 16 ≤ f.payload.length) (m : Mach) :
    m.onEvent f = if m.accepts (f.argA % 256) then m.publish f.imported else m.inc E.IMPORTS_REFUSED 0 := by
  have hwhole : ¬f.payload.length < 16 := not_lt.mpr h
  have hbit : bitOf (leAt (m.rdB E.FAB_EVENT_ACCEPT) (f.argA % 256 / 8) 1) (f.argA % 256 % 8) = m.accepts (f.argA % 256) :=
    bitOf_byte _ _
  simp only [Mach.onEvent, if_neg hwhole, hbit]
  cases m.accepts (f.argA % 256) with
  | true => rfl
  | false => rfl

/-- Settles O55: an EXPORT task with a route sends its frame, and of a frame with a whole record the bit of the channel in
FAB_EVENT_ACCEPT decides. -/
theorem importedEvents : Obligations.ImportedEvents := by
  refine fun m => ⟨fun t e p hkind hroute => ?_, fun f hlen haccept => ?_, fun f hlen hrefuse => ?_⟩
  · rw [Mach.act_export hkind, hroute]
    rfl
  · rw [Mach.onEvent_of_whole hlen, Mach.accepts, haccept]
    rfl
  · rw [Mach.onEvent_of_whole hlen, Mach.accepts, hrefuse]
    rfl

end Machine
end Sys2Proof

/-! The pointer space of the two-wire target: what a read of each region sends and what a store there changes (R454). -/

namespace Sys2Proof

/-- Bytes that are not there read as 0, so zeros behind a list of bytes change none of them. -/
theorem getD_append_zeros (l : Bytes) (n i : Nat) : (l ++ zeros n).getD i 0 = l.getD i 0 := by
  rcases lt_or_ge i l.length with h | h
  · exact List.getD_append _ _ _ _ h
  · have hzero : (zeros n).getD (i - l.length) 0 = 0 := by simp [zeros]
    rw [List.getD_append_right _ _ _ _ h, hzero, List.getD_eq_default _ _ h]

namespace Machine

/-! ### Reads (R454) -/

theorem Mach.pointerByte_of_health {p : Nat} (h : p < 0x40) (m : Mach) : m.pointerByte p = m.twi.snapshot.getD p 0 :=
  if_pos h

theorem Mach.pointerByte_of_control {p : Nat} (hlo : 0x40 ≤ p) (hhi : p < 0x60) (m : Mach) :
    m.pointerByte p = m.gw.control.getD (p - 0x40) 0 := by
  rw [Mach.pointerByte, if_neg (by omega), if_pos hhi]

theorem Mach.pointerByte_of_data {p : Nat} (hlo : 0x80 ≤ p) (hhi : p < 0xA0) (m : Mach) :
    m.pointerByte p = m.gw.data.getD (p - 0x80) 0 := by
  rw [Mach.pointerByte, if_neg (by omega), if_neg (by omega), if_pos ⟨hlo, hhi⟩]

theorem Mach.pointerByte_of_reserved {p : Nat} (h : (0x60 ≤ p ∧ p < 0x80) ∨ 0xA0 ≤ p) (m : Mach) : m.pointerByte p = 0 := by
  rw [Mach.pointerByte, if_neg (by omega), if_neg (by omega), if_neg (by omega)]

/-! ### Stores (R454) -/

/-- GW_DATA at its full 32 bytes, with byte `i` replaced. -/
def Gateway.dataWith (g : Gateway) (i : Nat) (b : Byte) : Bytes := ((g.data ++ zeros 32).take 32).set i b

/-- A byte of GW_DATA after a store: the one stored at its place, and the one before elsewhere. -/
theorem Gateway.getD_dataWith (g : Gateway) (b : Byte) {i j : Nat} (hi : i < 32) (hj : j < 32) :
    (g.dataWith i b).getD j 0 = if i = j then b else g.data.getD j 0 := by
  have hlen : i < ((g.data ++ zeros 32).take 32).length := by simp [hi]
  have hold : ((g.data ++ zeros 32).take 32).getD j 0 = g.data.getD j 0 := by
    rw [← getD_append_zeros g.data 32 j, List.getD_eq_getElem?_getD, List.getElem?_take_of_lt hj, List.getD_eq_getElem?_getD]
  by_cases hij : i = j
  · subst hij
    rw [Gateway.dataWith, if_pos rfl, List.getD_eq_getElem?_getD, List.getElem?_set_self hlen, Option.getD_some]
  · rw [Gateway.dataWith, if_neg hij, List.getD_eq_getElem?_getD, List.getElem?_set_ne hij, ← List.getD_eq_getElem?_getD, hold]

/-- A store into the gateway's data changes GW_DATA alone. -/
theorem State.pointerStore_of_data {p : Nat} (hlo : 0x80 ≤ p) (hhi : p < 0xA0) (s : State) (b : Byte) :
    s.pointerStore p b = { s with m := { s.m with gw := { s.m.gw with data := s.m.gw.dataWith (p - 0x80) b } } } := by
  rw [State.pointerStore, if_neg (by omega), if_neg (by omega), if_neg (by omega), if_neg (by omega), if_neg (by omega),
    if_neg (by omega), if_pos ⟨hlo, hhi⟩]
  rfl

/-- Outside the gateway's control and data, a store is ignored. -/
theorem State.pointerStore_of_ignored {p : Nat} (h : p < 0x40 ∨ (0x60 ≤ p ∧ p < 0x80) ∨ 0xA0 ≤ p) (s : State) (b : Byte) :
    s.pointerStore p b = s := by
  rw [State.pointerStore, if_neg (by omega), if_neg (by omega), if_neg (by omega), if_neg (by omega), if_neg (by omega),
    if_neg (by omega), if_neg (by omega)]

/-- After a store into the gateway's data, every pointer reads as before but the one stored at, which reads the byte stored. -/
theorem State.pointerByte_pointerStore_of_data {p : Nat} (hlo : 0x80 ≤ p) (hhi : p < 0xA0) (s : State) (b : Byte) (q : Nat) :
    (s.pointerStore p b).m.pointerByte q = if q = p then b else s.m.pointerByte q := by
  rw [State.pointerStore_of_data hlo hhi]
  by_cases hq : 0x80 ≤ q ∧ q < 0xA0
  · obtain ⟨hqlo, hqhi⟩ := hq
    have hsame : p - 0x80 = q - 0x80 ↔ q = p := by omega
    rw [Mach.pointerByte_of_data hqlo hqhi, Mach.pointerByte_of_data hqlo hqhi, Gateway.getD_dataWith _ _ (by omega) (by omega)]
    simp only [hsame]
  · have hne : q ≠ p := by omega
    rw [if_neg hne, Mach.pointerByte, Mach.pointerByte, if_neg hq, if_neg hq]
    rfl

/-- Settles O56, region by region: what a read sends, and what a store leaves or changes. -/
theorem pointerRegions : Obligations.PointerRegions := by
  intro s p b _
  refine ⟨fun hhealth => ?_, fun hreserved => ?_, fun hlo hhi => ⟨?_, ?_, fun q _ hne => ?_⟩, fun hlo hhi => ?_⟩
  · exact ⟨Mach.pointerByte_of_health hhealth _, State.pointerStore_of_ignored (.inl hhealth) s b⟩
  · exact ⟨Mach.pointerByte_of_reserved hreserved _, State.pointerStore_of_ignored (.inr hreserved) s b⟩
  · exact Mach.pointerByte_of_data hlo hhi _
  · rw [State.pointerByte_pointerStore_of_data hlo hhi, if_pos rfl]
  · rw [State.pointerByte_pointerStore_of_data hlo hhi, if_neg hne]
  · exact Mach.pointerByte_of_control hlo hhi _

end Machine
end Sys2Proof

/-! The block: what a command answers (R13), and what it leaves of the queue and of HBM. -/

namespace Sys2Proof.Machine

/-! ### Frames that leave HBM alone (R387) -/

/-- The kind that the header of a frame gives is the one by which the frame is judged. -/
theorem readFrame_kind (b : Bytes) : (readFrame b).kind = frameKind b := by
  simp only [readFrame, bitsOf, frameKind, leAt_eq_div_mod, pow_one, pow_zero, Nat.div_one, Nat.reduceAdd, Nat.reduceSub,
    Nat.reducePow]
  omega

/-- The checks of R387 answer the frame that they judge, or none. -/
theorem Mach.judgeFrame_fst {m : Mach} {p : Nat} {b : Bytes} {f g : FabMsg} (h : (m.judgeFrame p b f).1 = some g) : g = f := by
  simp only [Mach.judgeFrame, Mach.discard] at h
  repeat' split at h
  all_goals simp_all

theorem Mach.receiveFrame_fst {m : Mach} {p : Nat} {b : Bytes} {d : Bool} {f : FabMsg}
    (h : (m.receiveFrame p b d).1 = some f) : f = readFrame b := by
  simp only [Mach.receiveFrame] at h
  repeat' split at h
  all_goals first
    | exact Mach.judgeFrame_fst h
    | cases h

theorem State.onMachIf_sameRest {s t : State} {c : Prop} [Decidable c] (m : Mach) (h : s.sameRest t) :
    s.sameRest (if c then { s with m := m } else t) := .ite (.mach s m) h

theorem State.pairKind_sameRest {f : FabMsg} (h : f.kind ≠ 0x65) (s : State) (p : Nat) : s.sameRest (s.pairKind p f) := by
  unfold State.pairKind
  dsimp only
  rw [if_neg h]
  iterate 5 refine State.onMachIf_sameRest _ ?_
  iterate 2 refine State.onMachIf_sameRest _ ?_
  exact .ite (State.onConfig_sameRest s f) (State.onMachIf_sameRest _ (State.onMachIf_sameRest _ (.refl s)))

theorem State.onPairFrame_sameRest {f : FabMsg} (h : f.kind ≠ 0x65) (s : State) (p : Nat) :
    s.sameRest (s.onPairFrame p f) := by
  unfold State.onPairFrame
  refine .ite (.refl s) (.ite (.mach s _) (.ite ?_ (.trans (.mach s _) (State.pairKind_sameRest h _ p))))
  exact .thenMach (State.sameRest.ite (.mach s _) (.trans (.mach s _) (State.pairKind_sameRest h _ p))) _

theorem State.deliver_sameRest {f : FabMsg} (hline : f.kind ≠ 0x30) (hpos : f.kind ≠ 0x65) (s : State) (p : Nat) (t : TW64) :
    s.sameRest (s.deliver p t f) := by
  unfold State.deliver
  dsimp only
  rw [if_neg hline]
  iterate 11 refine State.onMachIf_sameRest _ ?_
  refine .ite (State.onDictRequest_sameRest s f) ?_
  iterate 5 refine State.onMachIf_sameRest _ ?_
  exact .ite (State.onPairFrame_sameRest hpos s p) (.refl s)

/-- But for LINE and POS_STAMP, a frame changes the module alone. -/
theorem State.frameIn_sameRest {b : Bytes} (hline : frameKind b ≠ 0x30) (hpos : frameKind b ≠ 0x65) (s : State) (p : Nat) (d : Bool)
    (t : TW64) : s.sameRest (s.frameIn p b d t) := by
  unfold State.frameIn
  dsimp only
  split
  · next f hf =>
    have hkind : f.kind = frameKind b := by rw [Mach.receiveFrame_fst hf, readFrame_kind]
    exact .trans (.mach s _) (State.deliver_sameRest (hkind ▸ hline) (hkind ▸ hpos) _ p t)
  · exact .mach s _

/-! ### What a command answers -/

/-- An outcome of a command: a next state with the queue as it was and HBM in its form, and, where the command leaves HBM alone
(`hbm` false), with HBM as it was; or the fault of a missing resource, which only an ill-formed command (`ok` false) meets. -/
def State.answers (s : State) (ok hbm : Bool) (o : Host.Outcome State Fault Refusal) : Prop :=
  (∃ t, o = .next t ∧ s.keepsForm t ∧ (hbm = false → s.sameRest t)) ∨ (o = .fault .noSuchResource ∧ ok = false)

theorem State.answers_same {s t : State} (h : s.sameRest t) (ok hbm : Bool) : s.answers ok hbm (.next t) :=
  .inl ⟨t, rfl, h.keepsForm, fun _ => h⟩

theorem State.answers_form {s t : State} (h : s.keepsForm t) (ok : Bool) : s.answers ok true (.next t) :=
  .inl ⟨t, rfl, h, fun hf => absurd hf Bool.noConfusion⟩

theorem State.answers_onMach {s : State} {ok w : Bool} (h : w = true → ok = true) (hbm : Bool) (f : Mach → Mach) :
    s.answers w hbm (s.onMach ok f) := by
  cases ok with
  | true => exact State.answers_same (.mach s _) w hbm
  | false => exact .inr ⟨rfl, by simpa using h⟩

/-- A command on HBM and the module that leaves HBM alone. -/
theorem State.answers_onAll_same {s : State} {ok w : Bool} (h : w = true → ok = true) {f : Memory → Mach → Memory × Mach}
    (hf : ∀ hm m, (f hm m).1 = hm) (hbm : Bool) : s.answers w hbm (s.onAll ok f) := by
  cases ok with
  | true =>
    have hsame : s.sameRest { s with hbm := (f s.hbm s.m).1, m := (f s.hbm s.m).2 } := ⟨rfl, hf s.hbm s.m⟩
    exact State.answers_same hsame w hbm
  | false => exact .inr ⟨rfl, by simpa using h⟩

/-- A command on HBM and the module that keeps the canonical form. -/
theorem State.answers_onAll_form {s : State} {ok w : Bool} (h : w = true → ok = true) {f : Memory → Mach → Memory × Mach}
    (hf : ∀ hm m, Memory.wf hm = true → (f hm m).1.wf = true) : s.answers w true (s.onAll ok f) := by
  cases ok with
  | true =>
    have hform : s.keepsForm { s with hbm := (f s.hbm s.m).1, m := (f s.hbm s.m).2 } := ⟨rfl, hf s.hbm s.m⟩
    exact State.answers_form hform w
  | false => exact .inr ⟨rfl, by simpa using h⟩

/-- A frame of a kind that arrives on a port. -/
theorem State.answers_frame {s : State} {p : Nat} {w hbm : Bool} (h : w = true → p < 96) {t : State} (hf : s.keepsForm t)
    (hs : hbm = false → s.sameRest t) : s.answers w hbm (if p < 96 then .next t else .fault .noSuchResource) := by
  split
  · exact .inl ⟨t, rfl, hf, hs⟩
  · next hp => exact .inr ⟨rfl, Bool.eq_false_iff.mpr fun hw => hp (h hw)⟩

theorem State.answers_kindIn {kind p : Nat} {w hbm : Bool} (h : w = true → p < 96)
    (hk : hbm = false → kind ≠ 0x30 ∧ kind ≠ 0x65) (s : State) (b : Bytes) (t : TW64) : s.answers w hbm (s.kindIn kind p b t) := by
  refine State.answers_frame h (.ite (s.frameIn_keepsForm p b false t) (.refl s)) fun hb => ?_
  split
  · next he => exact State.frameIn_sameRest (he ▸ (hk hb).1) (he ▸ (hk hb).2) s p false t
  · exact .refl s

theorem State.answers_timeIn {msg p : Nat} {w : Bool} (h : w = true → p < 96) (hbm : Bool) (s : State) (b : Bytes) (t : TW64) :
    s.answers w hbm (s.timeIn msg p b t) := by
  refine State.answers_frame h (.ite (s.frameIn_keepsForm p b false t) (.refl s)) fun _ => ?_
  split
  · next he => exact State.frameIn_sameRest (by omega) (by omega) s p false t
  · exact .refl s

theorem State.answers_pairIn {kind : Nat} {hbm : Bool} (hk : hbm = false → kind ≠ 0x30 ∧ kind ≠ 0x65) (s : State) (b : Bytes)
    (t : TW64) (w : Bool) : s.answers w hbm (s.pairIn kind b t) := by
  unfold State.pairIn
  split
  · next p _ =>
    refine .inl ⟨_, rfl, .ite (s.frameIn_keepsForm p b false t) (.refl s), fun hb => ?_⟩
    split
    · next he => exact State.frameIn_sameRest (he ▸ (hk hb).1) (he ▸ (hk hb).2) s p false t
    · exact .refl s
  · exact State.answers_same (.refl s) w hbm

/-! ### The commands that are not on the module alone -/

theorem State.answers_usdoDownload (s : State) (index sub : Nat) (data : Bytes) (size : Nat) (ex un w hbm : Bool) :
    s.answers w hbm (execUsdoDownload index sub data size ex un s) :=
  State.answers_same (.ite (.refl s) (.ite (.mach s _) (.ite (State.usdoWrite_sameRest s index sub _) (.mach s _)))) w hbm

theorem State.answers_usdoSegment (s : State) (data : Bytes) (last w hbm : Bool) : s.answers w hbm (execUsdoSegment data last s) := by
  refine State.answers_same ?_ w hbm
  split
  · exact .refl s
  · exact .ite (.refl s) (.ite (.mach s _) (.ite (State.usdoWrite_sameRest s _ _ _) (.mach s _)))

theorem State.answers_wakingComplete (s : State) (failed : Nat) (present w : Bool) :
    s.answers w true (execWakingComplete failed present s) := by
  have hcleared : s.keepsForm { s with hbm := [], m := s.m.wakingDone failed present } := ⟨rfl, fun _ => rfl⟩
  exact State.answers_form (.ite (hcleared.trans (State.mbTake_sameRest _).keepsForm) (.refl s)) w

/-- A stripe that ends reads HBM and leaves it alone. -/
theorem State.answers_stripeFinish (s : State) {n : Nat} {w : Bool} (h : w = true → n < 16) (hbm : Bool) :
    s.answers w hbm (execStripeFinish n s) := by
  refine State.answers_onAll_same (by simpa using h) (fun hm m => ?_) hbm
  split
  · rfl
  · split <;> rfl

theorem State.answers_stripeWatchdog (s : State) {n : Nat} {w : Bool} (h : w = true → n < 16) (hbm : Bool) :
    s.answers w hbm (execStripeWatchdog n s) := by
  refine State.answers_onAll_same (by simpa using h) (fun hm m => ?_) hbm
  split
  · rfl
  · split <;> rfl

/-- A packet from a camera. -/
theorem State.answers_receive (s : State) {p : Nat} {w : Bool} (h : w = true → p < 96) (b : Bytes) (hd pd : Bool) (t1 t2 : TW64) :
    s.answers w true (s.onAll (p < 96) (receive p b hd pd t1 t2)) :=
  State.answers_onAll_form (by simpa using h) fun _ m hw => receive_wf p b hd pd t1 t2 hw m

/-- The entries of a task that have a command of their own (R310). -/
theorem loopEntries_any_of_taskSubOk {sub : Nat} (h : taskSubOk sub = true) : (loopEntries.any fun e => e.sub == sub) = true := by
  have hsub : sub = 1 ∨ sub = 2 ∨ sub = 3 ∨ sub = 4 ∨ sub = 6 := of_decide_eq_true h
  rcases hsub with rfl | rfl | rfl | rfl | rfl <;> rfl

theorem State.barStore_sameRest (s : State) (offset : Nat) (data : Bytes) : s.sameRest (s.barStore offset data) := by
  unfold State.barStore
  refine .ite (.refl s) ?_
  have h := State.writeWord_sameRest s offset (leAt data 0 4)
  exact .ite (h.trans (State.writeWord_sameRest _ _ _)) h

theorem State.answers_bar0RegisterWrite (s : State) (cfg poisoned : Bool) (offset : Nat) (data : Bytes) (w hbm : Bool) :
    s.answers w hbm (execBar0RegisterWrite cfg poisoned offset data s) := by
  unfold execBar0RegisterWrite
  split
  · exact State.answers_onMach (fun _ => rfl) hbm _
  · exact State.answers_same (.ite (.mach s _) (.ite (.mach s _) (State.barStore_sameRest s offset data))) w hbm

theorem powerOff_wf (m : Mach) : (powerOff m).1.wf = true := rfl

/-- Every command answers a next state, or is ill-formed and names a resource that does not exist. -/
theorem exec_answers (c : Instr) (s : State) : s.answers c.wellFormed (touchesHbm c) (exec c s) := by
  cases c
  case identity | pixelPacket | regResponse | ack | camEvent =>
    exact State.answers_receive s (by simp +contextual [Instr.wellFormed, portOk]) _ _ _ _ _
  case supplyLoss => exact State.answers_onAll_form (fun _ => rfl) fun _ m _ => powerOff_wf m
  case junctionOvertemp =>
    exact State.answers_onAll_form (fun _ => rfl) fun _ m w => Memory.wf_iteFst (powerOff_wf m) w
  case wakingComplete failed present => exact State.answers_wakingComplete s failed present _
  case stripeFinish n => exact State.answers_stripeFinish s (by simp +contextual [Instr.wellFormed, planerOk]) _
  case stripeWatchdog n => exact State.answers_stripeWatchdog s (by simp +contextual [Instr.wellFormed, planerOk]) _
  case fabricFrame p b d t =>
    exact State.answers_frame (by simp +contextual [Instr.wellFormed, portOk]) (s.frameIn_keepsForm p b d t)
      fun h => absurd h Bool.noConfusion
  case hello | credit | linkReport | map | event | setNotice | reserve | reserveHop | reserveAnswer | releaseFrame |
      dictRequest | dictResponse | bulkOpen | bulkData | bulkAck | bulkClose =>
    exact State.answers_kindIn (by simp +contextual [Instr.wellFormed, portOk]) (fun _ => by decide) s _ _
  case line p b t =>
    exact State.answers_kindIn (by simp +contextual [Instr.wellFormed, portOk]) (fun h => absurd h Bool.noConfusion) s b t
  case announce | sync | followUp | delayReq | delayResp =>
    exact State.answers_timeIn (by simp +contextual [Instr.wellFormed, portOk]) _ s _ _
  case pairState | commitMark | deliveryLog | stripeDigest | decisionFrame | hostWrite | replay | config | syncData |
      pairAck =>
    exact State.answers_pairIn (fun _ => by decide) s _ _ _
  case posStamp b => exact State.answers_pairIn (fun h => absurd h Bool.noConfusion) s b _ _
  case dictWrite path index sub data =>
    by_cases h : path < 5
    · rw [exec_dictWrite h]
      exact State.answers_same (State.write_sameRest s path index sub data) _ _
    · exact .inr ⟨if_neg h, by simp [Instr.wellFormed, pathOk, h]⟩
  case usdoDownload index sub data size ex un => exact State.answers_usdoDownload s index sub data size ex un _ _
  case usdoSegment data last => exact State.answers_usdoSegment s data last _ _
  case mbGoRead | mbGoWrite | mbGoNone =>
    exact State.answers_same (.ite (State.mbGo_sameRest s _ _) (.refl s)) _ _
  case gwGoRead | gwGoWrite | gwGoNone =>
    exact State.answers_same (.ite (State.gwGo_sameRest s _ _) (.refl s)) _ _
  case twiWriteByte v => exact State.answers_same (State.twiWrite_sameRest s v) _ _
  case bar0RegisterWrite cfg poisoned offset data => exact State.answers_bar0RegisterWrite s cfg poisoned offset data _ _
  case taskConfigWrite path t sub data =>
    unfold exec
    refine State.answers_onMach (fun h => ?_) _ _
    simp only [Instr.wellFormed, pathOk, taskOk, Bool.and_eq_true, decide_eq_true_eq] at h
    obtain ⟨⟨⟨hpath, htask⟩, hsub⟩, -⟩ := h
    exact decide_eq_true ⟨hpath, htask, loopEntries_any_of_taskSubOk hsub⟩
  all_goals
    unfold exec
    dsimp only
    refine State.answers_onMach ?_ _ _
    simp +contextual [Instr.wellFormed, pathOk, laneOk, quadOk, portOk, streamOk, planerOk, profileOk, tableKindOk, targetSubOk,
      vectorOk, posOk, mgOk, ringOk, valvePortOk, pinOk, taskOk, channelOk, islandOk, sensorOk, u2Ok, u3Ok, u4Ok]


/-! ### Outcomes of a command -/

theorem exec_next_keepsForm {c : Instr} {s t : State} (h : exec c s = .next t) : s.keepsForm t := by
  rcases exec_answers c s with ⟨u, hu, hform, -⟩ | ⟨hf, -⟩
  · cases hu.symm.trans h
    exact hform
  · cases hf.symm.trans h

theorem exec_next_sameRest {c : Instr} (hc : touchesHbm c = false) {s t : State} (h : exec c s = .next t) : s.sameRest t := by
  rcases exec_answers c s with ⟨u, hu, -, hsame⟩ | ⟨hf, -⟩
  · cases hu.symm.trans h
    exact hsame hc
  · cases hf.symm.trans h

theorem exec_of_wellFormed {c : Instr} (hc : c.wellFormed = true) (s : State) : ∃ t, exec c s = .next t := by
  rcases exec_answers c s with ⟨t, ht, -⟩ | ⟨-, hill⟩
  · exact ⟨t, ht⟩
  · rw [hc] at hill
    cases hill

/-! ### Steps and runs -/

theorem step_of_pending {c : Instr} {q : List Instr} {s : State} (h : s.pending = c :: q) : step s = exec c (s.withPending q) := by
  simp only [step, h]

theorem step_of_idle {s : State} (h : s.pending = []) : step s = .next s.idle := by
  simp only [step, h]

/-- A tick changes the module alone. -/
theorem State.idle_sameRest (s : State) : s.sameRest s.idle := by
  unfold State.idle
  exact .ite (.trans (.mach s _) (State.settleWides_sameRest _)) (.refl s)

theorem State.commandsOk_of_pending {c : Instr} {q : List Instr} {s : State} (hs : s.commandsOk = true) (h : s.pending = c :: q) :
    c.wellFormed = true ∧ q.all Instr.wellFormed = true := by
  simpa [State.commandsOk, h] using hs

/-- Where well-formed commands wait, a step goes on, and well-formed commands wait behind it. -/
theorem step_keeps_commandsOk {s : State} (hs : s.commandsOk = true) : ∃ t, step s = .next t ∧ t.commandsOk = true := by
  cases hq : s.pending with
  | nil =>
    refine ⟨s.idle, step_of_idle hq, ?_⟩
    rw [State.commandsOk, s.idle_sameRest.1]
    exact hs
  | cons c q =>
    obtain ⟨hc, hrest⟩ := State.commandsOk_of_pending hs hq
    obtain ⟨t, ht⟩ := exec_of_wellFormed hc (s.withPending q)
    refine ⟨t, (step_of_pending hq).trans ht, ?_⟩
    rw [State.commandsOk, (exec_next_keepsForm ht).1]
    exact hrest

/-- Settles O5: a step is a command, which keeps the form, or a tick, which leaves HBM alone. -/
theorem everyStepKeepsHbmCanonical : Obligations.EveryStepKeepsHbmCanonical := by
  intro s t hform h
  cases hq : s.pending with
  | nil =>
    rw [step_of_idle hq] at h
    cases h
    exact s.idle_sameRest.keepsForm.2 hform
  | cons c q =>
    rw [step_of_pending hq] at h
    exact (exec_next_keepsForm h).2 hform

/-- Settles O7, by induction on the length of the run: each step goes on and leaves well-formed commands waiting. -/
theorem wellFormedQueuesRunSafely : Obligations.WellFormedQueuesRunSafely := by
  intro k
  induction k with
  | zero => exact fun _ _ => trivial
  | succ k ih =>
    intro s hs
    obtain ⟨t, ht, hok⟩ := step_keeps_commandsOk hs
    rw [safeRun, ht]
    exact ih t hok

/-- Settles O6. -/
theorem wellFormedCommandsComplete : Obligations.WellFormedCommandsComplete := fun _ s hc => exec_of_wellFormed hc s

/-- Settles O8. -/
theorem commandsLeaveTheQueue : Obligations.CommandsLeaveTheQueue := fun _ _ _ h => (exec_next_keepsForm h).1

/-- Settles O9: the two outcomes of `exec_answers` are a next state and the fault of a missing resource. -/
theorem onlyMissingResourcesStop : Obligations.OnlyMissingResourcesStop := by
  intro c s
  rcases exec_answers c s with ⟨t, ht, -⟩ | ⟨hf, hill⟩
  · rw [ht]
    exact ⟨fun _ => nofun, fun _ => nofun⟩
  · rw [hf]
    exact ⟨fun _ => nofun, fun f h => ⟨(Host.Outcome.fault.inj h).symm, hill⟩⟩

/-- Settles O10. -/
theorem onlyReceptionAndPowerTouchHbm : Obligations.OnlyReceptionAndPowerTouchHbm := by
  intro c s t hc h a
  rw [(exec_next_sameRest hc h).2]

/-- Settles O1. -/
theorem stepRunsTheFrontCommand : Obligations.StepRunsTheFrontCommand := fun _ _ _ => step_of_pending rfl

end Sys2Proof.Machine


/-! Storage, and facts of single functions of the model: Gray code, the decision table, the on-time guard, the next frame, time changes. -/

namespace Sys2Proof.Machine

/-! ### HBM and the dictionary -/

/-- Settles O11, by induction on the run: its first byte is the one at `a`, and the rest is a run from `a + 1`. -/
theorem hbmRunsReadAsWritten : Obligations.HbmRunsReadAsWritten := by
  intro h a x b hw
  induction b generalizing h a with
  | nil =>
    have hout : ¬(a ≤ x ∧ x < a + ([] : Bytes).length) := by simp
    rw [if_neg hout, Memory.writeBytes]
  | cons v b ih =>
    rw [Memory.writeBytes, ih (h.write a v) (a + 1) (Memory.wf_write hw a v), List.length_cons]
    by_cases hx : x = a
    · subst hx
      rw [if_neg (by omega), if_pos (by omega), Memory.read_write_same hw, Nat.sub_self, List.getD_cons_zero]
    · rw [Memory.read_write_other h hx]
      by_cases hin : a + 1 ≤ x ∧ x < a + 1 + b.length
      · have hidx : x - a = x - (a + 1) + 1 := by omega
        rw [if_pos hin, if_pos (by omega), hidx, List.getD_cons_succ]
      · rw [if_neg hin, if_neg (by omega)]

/-- Settles O12. -/
theorem entriesReadAsWritten : Obligations.EntriesReadAsWritten :=
  fun m e _ k _ n => ⟨m.wr_rd e k n, fun h => m.wr_rd_other e k n h⟩

/-- Settles O3: reset lists no entry, so that every entry reads as its default. -/
theorem resetIsOff : Obligations.ResetIsOff := ⟨rfl, rfl, rfl, rfl, rfl, rfl, rfl, rfl, rfl, rfl, rfl⟩

/-- Settles O4. -/
theorem hbmCanonicalAtReset : Obligations.HbmCanonicalAtReset := rfl

/-! ### Gray code (R244) -/

/-- Bit `i` of a Gray code is the change from bit `i + 1` to bit `i` of its number. -/
theorem bitOf_gray (n i : Nat) : bitOf (n ^^^ (n / 2)) i = xor (bitOf n i) (bitOf n (i + 1)) := by
  simp only [bitOf_eq_testBit, Nat.testBit_xor, Nat.testBit_div_two]

/-- Below a bit of the number, Gray code gives back what lies below it. -/
theorem grayToBinary_gray (w n : Nat) : grayToBinary w (bitOf n w) (n ^^^ (n / 2)) = n % 2 ^ w := by
  induction w with
  | zero => rw [grayToBinary, pow_zero, Nat.mod_one]
  | succ w ih =>
    have hbit : xor (bitOf n (w + 1)) (bitOf (n ^^^ (n / 2)) w) = bitOf n w := by
      rw [bitOf_gray]
      cases bitOf n (w + 1) <;> cases bitOf n w <;> rfl
    have hbn : bn (bitOf n w) = n / 2 ^ w % 2 := by
      unfold bn bitOf
      rcases Nat.mod_two_eq_zero_or_one (n / 2 ^ w) with h | h <;> simp [h]
    rw [grayToBinary, hbit, ih, hbn, Nat.mod_pow_succ, Nat.mul_comm, Nat.add_comm]

/-- Settles O25: the bit above a number of `w` bits is 0. -/
theorem grayCodeReadsBack : Obligations.GrayCodeReadsBack := by
  intro w n hn
  have htop : bitOf n w = false := by rw [bitOf_eq_testBit, Nat.testBit_lt_two_pow hn]
  rw [← htop, grayToBinary_gray, Nat.mod_eq_of_lt hn]

/-! ### The Mallet (R267, R273) -/

/-- Settles O28: the rows are tried in the order of R267's table. -/
theorem decisionTable : Obligations.DecisionTable := by
  refine fun m d ta => ⟨fun tf hbad => if_pos hbad, fun hkind hport hspan => ?_⟩
  have hgood : ¬(2 ≤ d.kind ∨ m.rd E.VP_ENABLE d.port = 0 ∨ d.last < d.first) := by omega
  simp only [Mach.verdictOf, if_neg hgood, true_and]
  refine fun t => ⟨fun hfar => if_pos hfar, fun hnear hlate => ?_, fun hnear hsoon => ?_⟩
  · rw [if_neg (not_lt.mpr hnear), if_pos hlate]
  · rw [if_neg (not_lt.mpr hnear), if_neg (not_lt.mpr hsoon)]

/-- Settles O29, by whether the valve is wanted. -/
theorem onTimeGuard : Obligations.OnTimeGuard := by
  intro nOn nOff run rest wanted
  cases wanted with
  | false => simp [guardValve]
  | true =>
    by_cases hrest : rest = 0
    · rcases Nat.lt_trichotomy run nOn with h | h | h
      · simp [guardValve, hrest, h, h.ne]
      · simp [guardValve, hrest, h]
      · simp [guardValve, hrest, h.ne', not_lt.mpr h.le]
    · simp [guardValve, hrest]

/-! ### The next frame of a port (R376, R377) -/

/-- One class is more urgent than another: TC7 before the others, and those in the order of their numbers. -/
def moreUrgent (tc tc' : Nat) : Prop := tc = 7 ∧ tc' ≠ 7 ∨ tc < tc' ∧ tc' ≠ 7

/-- In a list by rising rank, what `findSome?` answers comes from an element before which every element of lower rank answers none. -/
theorem findSome?_first {α β : Type} {g : α → Option β} {r : α → α → Prop} {l : List α} (hl : l.Pairwise fun a b => ¬r b a)
    (hirr : ∀ a, ¬r a a) {v : β} (h : l.findSome? g = some v) : ∃ a ∈ l, g a = some v ∧ ∀ b ∈ l, r b a → g b = none := by
  obtain ⟨l₁, a, l₂, rfl, ha, hbefore⟩ := List.findSome?_eq_some_iff.mp h
  refine ⟨a, by simp, ha, fun b hb hr => ?_⟩
  rcases List.mem_append.mp hb with hb | hb
  · exact hbefore b hb
  · rcases List.mem_cons.mp hb with rfl | hb
    · exact absurd hr (hirr b)
    · exact absurd hr ((List.pairwise_cons.mp (List.pairwise_append.mp hl).2.1).1 b hb)

/-- The frames that a port may send now. -/
def Mach.sendable (m : Mach) (p : Nat) : List FabMsg := (m.fport p).tx.filter fun f => m.maySend p f && m.paceLets f

/-- The first frame of a class that may be sent, where its units let it go. -/
def Mach.firstOf (m : Mach) (p tc : Nat) : Option FabMsg :=
  match (m.sendable p).find? fun f => f.tc == tc with
  | some f => if (m.fport p).mayCost f then some f else none
  | none => none

theorem Mach.nextFrame_eq (m : Mach) (p : Nat) : m.nextFrame p = [7, 0, 1, 2, 3, 4].findSome? (m.firstOf p) := rfl

theorem Mach.firstOf_of_find {m : Mach} {p tc : Nat} {f : FabMsg} (h : ((m.sendable p).find? fun g => g.tc == tc) = some f) :
    m.firstOf p tc = if (m.fport p).mayCost f then some f else none := by
  rw [Mach.firstOf, h]

theorem Mach.firstOf_eq_some {m : Mach} {p tc : Nat} {f : FabMsg} (h : m.firstOf p tc = some f) :
    ((m.sendable p).find? fun g => g.tc == tc) = some f ∧ (m.fport p).mayCost f = true := by
  cases hg : (m.sendable p).find? fun g => g.tc == tc with
  | none =>
    rw [Mach.firstOf, hg] at h
    cases h
  | some g =>
    rw [Mach.firstOf_of_find hg] at h
    split at h
    · next hcost =>
      cases h
      exact ⟨rfl, hcost⟩
    · cases h

theorem Mach.firstOf_eq_none {m : Mach} {p tc : Nat} {f : FabMsg} (h : m.firstOf p tc = none)
    (hf : ((m.sendable p).find? fun g => g.tc == tc) = some f) : (m.fport p).mayCost f = false := by
  rw [Mach.firstOf_of_find hf] at h
  split at h
  · cases h
  · next hcost => exact Bool.eq_false_iff.mpr hcost

/-- The first frame of a class among those that may be sent, found in one list or in the other. -/
theorem Mach.head_filter_sendable (m : Mach) (p tc : Nat) :
    ((m.fport p).tx.filter fun g => (m.maySend p g && m.paceLets g) && g.tc == tc).head? =
      (m.sendable p).find? fun g => g.tc == tc := by
  rw [Mach.sendable, ← List.head?_filter, List.filter_filter]
  simp only [Bool.and_comm]

/-- Settles O40: the classes are tried from the most urgent on, and of each the first frame that may be sent. -/
theorem nextFrameIsMostUrgent : Obligations.NextFrameIsMostUrgent := by
  intro m p f h
  rw [Mach.nextFrame_eq] at h
  have hsorted : [7, 0, 1, 2, 3, 4].Pairwise fun a b => ¬moreUrgent b a := by simp [moreUrgent]
  obtain ⟨c, hc, hfirst, hbefore⟩ := findSome?_first hsorted (fun a => by simp [moreUrgent]) h
  obtain ⟨hhead, hcost⟩ := Mach.firstOf_eq_some hfirst
  have htc := List.find?_some hhead
  obtain ⟨hwait, hmay⟩ := List.mem_filter.mp (List.mem_of_find?_eq_some hhead)
  rw [beq_iff_eq] at htc
  rw [Bool.and_eq_true] at hmay
  subst htc
  have hclass : f.tc = 7 ∨ f.tc < 5 := by
    simp only [List.mem_cons, List.not_mem_nil, or_false] at hc
    omega
  refine ⟨hwait, hmay.1, hmay.2, hcost, hclass, fun tc g hurgent hg => ?_, ?_⟩
  · have htc : tc ∈ [7, 0, 1, 2, 3, 4] := by
      simp only [List.mem_cons, List.not_mem_nil, or_false]
      omega
    rw [Mach.head_filter_sendable] at hg
    exact Mach.firstOf_eq_none (hbefore tc htc hurgent) hg
  · rw [Mach.head_filter_sendable]
    exact hhead

/-! ### A change of time at its anchor (R289) -/

theorem Mach.publish_rd {e : Entry} {k : Nat} (h : e.key k ≠ E.GEN_DROPS.key 0) (m : Mach) (v : Event) :
    (m.publish v).rd e k = m.rd e k := by
  unfold Mach.publish
  split
  · rfl
  · split
    · exact Mach.inc_rd_other _ _ _ _ h
    · rfl

/-- The entries that a step of time writes: the count, the last step, the era and its record, and dropped events. -/
def stepEntries : List Entry := [E.STEPS, E.LAST_STEP, E.GEN_DROPS, E.ERA, E.ALMANAC_GEN, E.LOG_USED]

theorem Mach.setEra_rd {e : Entry} (h : ∀ x ∈ stepEntries, e.key 0 ≠ x.key 0) (m : Mach) (era : Nat) :
    (m.setEra era).rd e = m.rd e := by
  simp only [stepEntries, List.forall_mem_cons] at h
  obtain ⟨-, -, -, hera, hgen, hlog, -⟩ := h
  unfold Mach.setEra
  dsimp only
  split
  · rfl
  · exact (Mach.wr_rd_other _ _ _ _ hlog).trans ((Mach.inc_rd_other _ _ _ _ hgen).trans (Mach.wr_rd_other _ _ _ _ hera))

theorem Mach.stepped_rd {e : Entry} (h : ∀ x ∈ stepEntries, e.key 0 ≠ x.key 0) (m : Mach) (old new step : TW64) :
    (m.stepped old new step).rd e = m.rd e := by
  have hera := fun (n : Mach) (k : Nat) => Mach.setEra_rd h n k
  simp only [stepEntries, List.forall_mem_cons] at h
  obtain ⟨hsteps, hlast, hdrops, -⟩ := h
  have hevent : ∀ (n : Mach) (code : Nat) (t : TW64), (n.timeEventAt code t).rd e = n.rd e := fun n _ _ => Mach.publish_rd hdrops n _
  have hcount : ((({ m with time.high := new.msb }.inc E.STEPS 0).wr E.LAST_STEP 0 step.toNat).timeEventAt 1 new).rd e = m.rd e :=
    (hevent _ _ _).trans ((Mach.wr_rd_other _ _ _ _ hlast).trans (Mach.inc_rd_other _ _ _ _ hsteps))
  unfold Mach.stepped
  dsimp only
  split
  · rw [hevent, hera, hcount]
  · split
    · rw [hera, hcount]
    · exact hcount

/-- A change leaves its new offset, its rate and its anchor in force (R289). -/
theorem Mach.install_rd {m : Mach} {c : TimeChange} (ha : c.anchor < 2 ^ 64) (hr : c.rate < 2 ^ 64) :
    (m.install c).rd E.OFS = (m.changeOfs c).toNat ∧ (m.install c).rd E.RATE = c.rate ∧ (m.install c).rd E.LTC_ANCHOR = c.anchor := by
  have hnew : (m.changeOfs c).toNat < 2 ^ 64 := (m.changeOfs c).isLt
  have hset : ∀ n : Mach, n = ((({ m with time.change := none }.wr E.OFS 0 (m.changeOfs c).toNat).wr E.RATE 0 c.rate).wr E.LTC_ANCHOR 0
      c.anchor) → n.rd E.OFS = (m.changeOfs c).toNat ∧ n.rd E.RATE = c.rate ∧ n.rd E.LTC_ANCHOR = c.anchor := by
    rintro n rfl
    refine ⟨?_, ?_, ?_⟩
    · rw [Mach.wr_rd_other _ _ _ _ (by decide), Mach.wr_rd_other _ _ _ _ (by decide), Mach.wr_rd]
      exact Nat.mod_eq_of_lt hnew
    · rw [Mach.wr_rd_other _ _ _ _ (by decide), Mach.wr_rd]
      exact Nat.mod_eq_of_lt hr
    · rw [Mach.wr_rd]
      exact Nat.mod_eq_of_lt ha
  unfold Mach.install
  dsimp only
  split
  · exact hset _ rfl
  · simp only [Mach.stepped_rd (e := E.OFS) (by decide), Mach.stepped_rd (e := E.RATE) (by decide),
      Mach.stepped_rd (e := E.LTC_ANCHOR) (by decide)]
    exact hset _ rfl

/-- At its anchor, time under OFS, RATE and LTC_ANCHOR is OFS (R286). -/
theorem twAt_anchor (ofs : TW64) (rate anchor : Nat) : twAt ofs.toNat rate anchor anchor = ofs := by
  simp [twAt]

/-- Settles O32: the new offset is the old time at the anchor and the step. -/
theorem changesKeepTimeContinuous : Obligations.ChangesKeepTimeContinuous := by
  intro m c ha hr
  obtain ⟨hofs, hrate, hanchor⟩ := Mach.install_rd (m := m) ha hr
  refine ⟨hrate, ?_⟩
  rw [hofs, hrate, hanchor, twAt_anchor, Mach.changeOfs]

end Sys2Proof.Machine

/-! How a command's completion is shown: its arm says what it runs on the module; the operands name what exists; its guard holds. -/

namespace Sys2Proof.Machine

variable {c : Instr} {s : State} {m : Mach}

/-- A command completes with what its arm `e` makes of the module. -/
theorem completesWith_run (e : State → Host.Outcome State Fault Refusal) {ok : Bool} {f : Mach → Mach} (hc : exec c s = e s)
    (he : e s = s.onMach ok f) (hk : ok = true) (hm : f s.m = m) : completesWith c s m :=
  completesWith_onMach (hc.trans he) hk hm

/-- A command whose arm acts under a guard completes with what stands behind the guard. -/
theorem completesWith_when (e : State → Host.Outcome State Fault Refusal) {ok : Bool} {b : Mach → Bool} {f : Mach → Mach → Mach}
    (hc : exec c s = e s) (he : e s = s.onMach ok fun m => m.when (b m) (f m)) (hk : ok = true) (hb : b s.m = true)
    (hm : f s.m s.m = m) : completesWith c s m :=
  completesWith_run e hc he hk ((if_pos hb).trans hm)

/-- A command that may touch HBM completes with the module it answers where it leaves HBM alone. -/
theorem completesWith_all (e : State → Host.Outcome State Fault Refusal) {ok : Bool} {f : Memory → Mach → Memory × Mach}
    (hc : exec c s = e s) (he : e s = s.onAll ok f) (hk : ok = true) (hm : f s.hbm s.m = (s.hbm, m)) : completesWith c s m := by
  rw [completesWith, hc, he, State.onAll_of_ok s hk, hm]

/-- A command written to an entry (R427) completes with its effect, under the rule for pair-wide entries, on a path that may write it. -/
theorem completesWith_command (e : State → Host.Outcome State Fault Refusal) {path i sub : Nat} {data : Bytes} {ok : Bool}
    {b : Mach → Bool} {f : Mach → Mach → Mach} {g : Mach → Mach} (hc : exec c s = e s)
    (he : e s = s.onMach ok fun m => m.command path i sub data (b m) (f m))
    (hw : s.mayWrite path i sub (leNat (data.take 8)) = true) (hk : path < 5 → ok = true) (hb : b s.m = true) (hf : f s.m = g) :
    completesWith c s (s.m.wide path i sub data g) := by
  obtain ⟨hp, hs, ha⟩ := State.mayWrite_iff.1 hw
  exact completesWith_run e hc he (hk hp) ((Mach.command_open hs hb ha _).trans (by rw [hf]))

/-- A keyed command completes with its effect where its key is written on a path that may write it. -/
theorem completesWith_keyed (e : State → Host.Outcome State Fault Refusal) {path : Nat} {r : Entry} {k key : Nat} {data : Bytes}
    {ok : Bool} {b : Mach → Bool} {f : Mach → Mach → Mach} {g : Mach → Mach} (hc : exec c s = e s)
    (he : e s = s.onMach ok fun m => m.keyed path r k data (b m) key (f m))
    (hw : s.mayWrite path (r.at k).1 (r.at k).2 (leNat (data.take 8)) = true) (hv : writtenInt r.ty data = key)
    (hk : path < 5 → ok = true) (hb : b s.m = true) (hf : f s.m = g) :
    completesWith c s (s.m.wide path (r.at k).1 (r.at k).2 data g) := by
  obtain ⟨hp, hs, ha⟩ := State.mayWrite_iff.1 hw
  exact completesWith_run e hc he (hk hp) ((Mach.keyed_open hv hs hb ha _).trans (by rw [hf]))

/-- A write of an entry that may be written completes with the value put there and what follows from it. -/
theorem completesWith_entry (e : State → Host.Outcome State Fault Refusal) {path : Nat} {r : Entry} {k : Nat} {data : Bytes}
    {ok : Bool} {f : Mach → Mach → Mach} {g : Mach → Mach} (hc : exec c s = e s)
    (he : e s = s.onMach ok fun m => m.writeEntry path r k data f)
    (hw : s.mayWrite path (r.at k).1 (r.at k).2 (leNat (data.take 8)) = true) (ha : r.acc ≠ .ro ∧ r.acc ≠ .const)
    (hb : s.m.blocked r k = false) (hk : path < 5 → ok = true) (hf : ∀ m, f m (m.putEntry path r k data) = g m) :
    completesWith c s (s.m.wide path (r.at k).1 (r.at k).2 data g) := by
  obtain ⟨hp, hs, hm⟩ := State.mayWrite_iff.1 hw
  exact completesWith_run e hc he (hk hp) ((Mach.writeEntry_open hs ha hb hm f).trans (by rw [funext hf]))

end Sys2Proof.Machine

/-! The reference, quads and lanes: what their commands complete with (chapter 02). -/

namespace Sys2Proof.Machine

/-- Settles O13: each command's guard holds under the clause's hypotheses. -/
theorem referenceCommands : Obligations.ReferenceCommands := by
  intro s
  have policy_kept (n : Nat) : (s.m.wr E.REF_VALID 0 n).rd E.REF_POLICY = s.m.rd E.REF_POLICY := Mach.wr_rd_other _ _ _ _ (by decide)
  have selected_kept (n : Nat) : (s.m.wr E.REF_VALID 0 n).rd E.REF_SELECTED = s.m.rd E.REF_SELECTED :=
    Mach.wr_rd_other _ _ _ _ (by decide)
  refine ⟨fun hsel hpol => ?_, ?_, fun a b hn => ?_, fun a b n hn => ?_⟩
  · exact completesWith_when execRefSwitchover rfl rfl rfl (by simp [hsel, hpol]) rfl
  · exact completesWith_run execRefHoldover rfl rfl rfl rfl
  · exact completesWith_run (execRefValidReturn a b) rfl rfl rfl (by dsimp only; rw [policy_kept, hn])
  · exact completesWith_run (execRefValidReturn a b) rfl rfl rfl (by dsimp only; rw [policy_kept, hn, selected_kept])

/-- Settles O14. -/
theorem laneEvents : Obligations.LaneEvents := by
  intro s l hl
  have hq : l / 4 < 24 := by omega
  have ok := decide_eq_true hl
  refine ⟨fun hon => ?_, fun hon h0 => ?_, fun h0 => ?_, fun hrun h1 hb => ?_, fun hrun h1 hb hs => ?_, fun hrun h1 hb hs => ?_,
    fun hw => ?_, fun h0 => ?_, fun h2 hb => ?_, fun h3 hbad => ?_, fun h3 => ?_, fun up mid low width hu hm hlo hwd hmeas h3 => ?_,
    fun hmode => ?_, ?_, ?_⟩
  · exact completesWith_when (execQuadPllLock (l / 4)) rfl rfl (decide_eq_true hq) hon rfl
  · exact completesWith_when (execSignalAcquired l) rfl rfl ok (by simp [hon, h0]) rfl
  · exact completesWith_when (execLossOfSignal l) rfl rfl ok (by simp [h0]) rfl
  · exact completesWith_when (execSearchDwell l) rfl rfl ok (by simp [hrun, h1]) (if_pos hb)
  · exact completesWith_when (execSearchDwell l) rfl rfl ok (by simp [hrun, h1]) ((if_neg hb).trans (if_pos hs))
  · exact completesWith_when (execSearchDwell l) rfl rfl ok (by simp [hrun, h1]) ((if_neg hb).trans (if_neg (by omega)))
  · exact completesWith_when (execSearchPassWait l) rfl rfl ok hw rfl
  · exact completesWith_when (execBlkLockSet l) rfl rfl ok (by simp [h0]) rfl
  · exact completesWith_when (execLockLostTimeout l) rfl rfl ok (by simp [h2, hb]) rfl
  · exact completesWith_when (execAlignLoss l) rfl rfl ok (by simp [h3, hbad]) rfl
  · exact completesWith_when (execEyeMeasure l) rfl rfl ok (by simp [h3]) rfl
  · exact completesWith_when (execEyeMeasureDone l up mid low width) rfl rfl ok (by simp [h3, hmeas]) (by
      simp [Nat.mod_eq_of_lt hu, Nat.mod_eq_of_lt hm, Nat.mod_eq_of_lt hlo, Nat.mod_eq_of_lt hwd])
  · exact completesWith_when (execLoopFifoRecentre l) rfl rfl ok (by simp [hmode]) rfl
  · simp [Mach.centreFifo]
  · intro v hv
    rw [Mach.centreFifo, Mach.setLane_same] at hv
    obtain ⟨i, -, rfl⟩ := List.mem_map.1 hv
    exact Nat.mod_lt _ (by decide)


/-- A search mode may be written in every state. -/
theorem Mach.blocked_searchMode (m : Mach) (l : Nat) : m.blocked E.SEARCH_MODE l = false := by
  simp only [Mach.blocked]
  simp +decide [E.SEARCH_MODE]

/-- Settles O16: each command passes the gate of its entry on a path that may write it. -/
theorem laneAndRegisterWrites : Obligations.LaneAndRegisterWrites := by
  refine ⟨fun s path => ⟨fun l data hl hw hmode => ?_, fun l data hl hw => ?_, fun index sub e q data hf he hw hb => ?_,
    fun index sub e l data hf he hw hb => ?_⟩, fun s path p kind hp hkind hw hrun => ?_⟩
  · exact completesWith_command (execSlip path l data) rfl rfl hw (fun hp => decide_eq_true ⟨hp, hl⟩) (by simp [hmode]) (by
      funext m; simp)
  · have hat : E.SEARCH_MODE.at l = (0x2100 + l, 8) := Entry.at_of_subs_one rfl (by decide) l
    have := completesWith_entry (c := .searchMode path l data) (execSearchMode path l data) rfl rfl (by rwa [hat]) (by decide)
      (Mach.blocked_searchMode s.m l) (fun hp => decide_eq_true ⟨hp, hl⟩) (fun m => rfl)
    rwa [hat] at this
  · have hquad (m : Mach) : m.laneReconfigure path index sub data = m.writeQuad path e q data := by
      simp only [Mach.laneReconfigure, hf, if_pos he]
    exact completesWith_entry (execLaneReconfigure path index sub data) rfl (by
      simp only [execLaneReconfigure, hquad]; rfl) hw (by rcases he with rfl | rfl <;> decide) hb (fun hp => decide_eq_true hp)
      (fun m => rfl)
  · have hlane (m : Mach) : m.laneReconfigure path index sub data = m.writeLane path e l data := by
      have hquad : ¬(e = E.QUAD_ROLE ∨ e = E.QUAD_PORTS) := by rcases he with rfl | rfl | rfl | rfl | rfl <;> decide
      simp only [Mach.laneReconfigure, hf, if_neg hquad, if_pos he]
    refine completesWith_entry (execLaneReconfigure path index sub data) rfl (by
      simp only [execLaneReconfigure, hlane]; rfl) hw (by rcases he with rfl | rfl | rfl | rfl | rfl <;> decide) hb
      (fun hp => decide_eq_true hp) (fun m => ?_)
    by_cases hloop : e = E.LOOP_MODE <;> simp only [hloop, if_true, if_false, Mach.laneChanged]
  · have ok (hq : path < 5) := decide_eq_true (⟨hq, hp⟩ : path < 5 ∧ p < 96)
    have idle : (s.m.rd E.REG_STATUS p != 1) = true := by simp [hrun]
    rcases hkind with rfl | rfl | rfl
    · exact completesWith_command (execRegCmdRead path p) rfl rfl hw ok idle rfl
    · exact completesWith_command (execRegCmdWrite path p) rfl rfl hw ok idle rfl
    · exact completesWith_command (execRegCmdSettingsWrite path p) rfl rfl hw ok idle rfl

end Sys2Proof.Machine

/-! What camera ports do in time, and the checks of their packets in order (chapter 03). -/

namespace Sys2Proof.Machine

/-- Settles O17: each clause names the instant that the command's guard asks for. -/
theorem portEvents : Obligations.PortEvents := by
  intro s p hp
  have ok := decide_eq_true hp
  refine ⟨fun h3 hf => ?_, fun h3 hf hh => ?_, fun b h3 hf hh => ?_, fun hf h => ?_, fun hf h4 hi => ?_, fun hr => ?_, fun t hr => ?_,
    fun t hr h2 => ?_, fun k t hk htalk => ⟨fun hd => ?_, fun r hd ha hr => ?_⟩, fun tid g hg hlt ha => ?_, fun tid g hg hlt ha => ?_,
    fun tid g hg hle => ?_, fun hf hl hh => ?_, fun b hb hs hlt => ?_, fun b hb hs hle => ?_⟩
  · exact completesWith_when (execLinkSettle p) rfl rfl ok (by simp [h3]) (by simp [hf])
  · exact completesWith_when (execLinkSettle p) rfl rfl ok (by simp [h3]) (by simp [hf, hh])
  · exact completesWith_when (execLinkSettle p) rfl rfl ok (by simp [h3]) (by simp [hf, hh])
  · exact completesWith_when (execLinkOfferSend p) rfl rfl ok (by rcases h with h | ⟨h, h'⟩ <;> simp [*]) rfl
  · exact completesWith_when (execIdentityTimeout p) rfl rfl ok (by simp [hf, h4, hi]) rfl
  · exact completesWith_run (execRegBucketReady p) rfl rfl ok (by simp [Mach.regGo, hr])
  · exact completesWith_run (execRegBucketReady p) rfl rfl ok (by simp [Mach.regGo, hr])
  · exact completesWith_run (execRegTimeout p) rfl rfl ok (by simp [hr, h2])
  · exact completesWith_run (execDownstreamPacketSend p t) rfl rfl ok (by
      simp only [hk, htalk, Mach.when_true]
      cases (s.m.port p).reg with
      | none => rfl
      | some r => exact if_neg fun h => hd.elim (· h.1) fun ha => by simp [ha] at h)
  · exact completesWith_run (execDownstreamPacketSend p t) rfl rfl ok (by
      simp only [hk, htalk, Mach.when_true, hr]
      exact if_pos ⟨hd, ha⟩)
  · exact completesWith_run (execTriggerAckTimeout p tid) rfl rfl ok (by simp [hg, hlt, ha])
  · exact completesWith_run (execTriggerAckTimeout p tid) rfl rfl ok (by simp [hg, hlt, ha])
  · exact completesWith_run (execTriggerAckTimeout p tid) rfl rfl ok (by simp [hg, Nat.not_lt.2 hle])
  · exact completesWith_when (execBeaconSend p) rfl rfl ok (by simp [hf, hl, hh]) rfl
  · exact completesWith_run (execBeaconAckTimeout p b.bid) rfl rfl ok (by simp [hb, hs, hlt])
  · exact completesWith_run (execBeaconAckTimeout p b.bid) rfl rfl ok (by simp [hb, hs, Nat.not_lt.2 hle])

/-! ### Packets (R63, R66, R67, R78) -/

section
variable {p : Nat} {b : Bytes} {hd pd : Bool} {t1 t2 : TW64} {m : Mach}

/-- The module behind the arrival of a packet: it is no longer among those on their way. -/
def Mach.took (m : Mach) (p : Nat) (b : Bytes) : Mach :=
  m.setPort p { m.port p with rx := (m.port p).rx.eraseP fun k => k.bytes == b }

/-- The module that a packet which passes the checks leaves: its far end is heard (R74, R78). -/
def Mach.heardFrom (m : Mach) (p : Nat) (k : Hdr) : Mach := (m.setPort p { m.port p with heard := true }).wr E.CAM_UPLINK p k.uplink

/-- What reception does with a packet of a kind that the port takes now. -/
theorem receive_known (htalk : m.talking p = true) (hcam : m.isFabricPort p = false) (hlen : 24 ≤ b.length) (hok : headerOk b = true)
    (hfit : lengthFits b = true) (hdt : cameraDt (readHdr b).dt = true) (hfault : m.rd E.PORT_STATE p = 7 → (readHdr b).dt = 0x30)
    (h : Memory) : receive p b false pd t1 t2 h m =
      let bad := pd || !(readHdr b).crcOk
      if 0x30 ≤ (readHdr b).dt ∧ bad = true then (h, (m.took p b).inc E.CTRL_CRC_ERRORS p)
      else
        let n := (m.took p b).heardFrom p (readHdr b)
        if 0x30 ≤ (readHdr b).dt then (h, n.onControl p (readHdr b) t1) else onPixel h n p (readHdr b) bad t1 t2 := by
  have hopen : ¬((m.took p b).talking p = false ∨ (m.took p b).isFabricPort p = true) := by
    simp [show (m.took p b).talking p = true from htalk, show (m.took p b).isFabricPort p = false from hcam]
  have hstate : ¬((m.took p b).rd E.PORT_STATE p = 7 ∧ (readHdr b).dt ≠ 0x30) := fun h => h.2 (hfault h.1)
  exact (if_neg hopen).trans ((if_neg (by omega)).trans ((if_neg (by simp [hok])).trans ((if_neg (by simp [hfit])).trans
    ((if_neg hstate).trans (if_neg (by simp [hdt]))))))

end

/-- Settles O18: a packet meets the checks in the order in which the clauses name them. -/
theorem cameraPackets : Obligations.CameraPackets := by
  refine ⟨fun s p b pd t1 t2 hp htalk hcam hlen hok hfit hdt hfault => ?_, fun s p b hd pd t1 t2 hp htalk hcam => ?_⟩
  · have ok := decide_eq_true hp
    have known (t2 : TW64) := receive_known (pd := pd) (t1 := t1) (t2 := t2) htalk hcam hlen hok hfit hdt hfault s.hbm
    refine ⟨fun hctl hbad => ?_, fun hctl hbad => ?_, fun hpix => ?_⟩
    · have counted := (known t1).trans (if_pos ⟨hctl, hbad⟩)
      exact ⟨completesWith_all (execIdentity p b false pd t1) rfl rfl ok counted,
        completesWith_all (execRegResponse p b false pd t1) rfl rfl ok counted,
        completesWith_all (execAck p b false pd t1) rfl rfl ok counted,
        completesWith_all (execCamEvent p b false pd t1) rfl rfl ok counted⟩
    · have handled := (known t1).trans ((if_neg fun h => by simp [hbad] at h).trans (if_pos hctl))
      exact ⟨completesWith_all (execIdentity p b false pd t1) rfl rfl ok handled,
        completesWith_all (execRegResponse p b false pd t1) rfl rfl ok handled,
        completesWith_all (execAck p b false pd t1) rfl rfl ok handled,
        completesWith_all (execCamEvent p b false pd t1) rfl rfl ok handled⟩
    · have taken := (known t2).trans ((if_neg fun h => by omega).trans (if_neg (by omega)))
      change s.onAll (decide (p < 96)) (receive p b false pd t1 t2) = _
      rw [State.onAll_of_ok s ok, taken]
      rfl
  · have ok := decide_eq_true hp
    have hopen : ¬((s.m.took p b).talking p = false ∨ (s.m.took p b).isFabricPort p = true) := by
      simp [show (s.m.took p b).talking p = true from htalk, show (s.m.took p b).isFabricPort p = false from hcam]
    refine ⟨fun hshort => ?_, fun hlen hhdr => ?_, fun hlen hhd hok hfit => ?_, fun hlen hhd hok hfit hlive hdt => ?_⟩
    · exact completesWith_all (execPixelPacket p b hd pd t1 t2) rfl rfl ok ((if_neg hopen).trans (if_pos hshort))
    · exact completesWith_all (execPixelPacket p b hd pd t1 t2) rfl rfl ok
        ((if_neg hopen).trans ((if_neg (Nat.not_lt.2 hlen)).trans (if_pos hhdr)))
    · have right : ¬(hd = true ∨ headerOk b = false) := by simp [hhd, hok]
      exact completesWith_all (execPixelPacket p b hd pd t1 t2) rfl rfl ok
        ((if_neg hopen).trans ((if_neg (Nat.not_lt.2 hlen)).trans ((if_neg right).trans (if_pos hfit))))
    · have right : ¬(hd = true ∨ headerOk b = false) := by simp [hhd, hok]
      exact completesWith_all (execPixelPacket p b hd pd t1 t2) rfl rfl ok
        ((if_neg hopen).trans ((if_neg (Nat.not_lt.2 hlen)).trans ((if_neg right).trans ((if_neg (by simp [hfit])).trans
          ((if_neg fun h => hlive h.1).trans (if_pos hdt))))))

end Sys2Proof.Machine

/-! What the commands of contracts, verdicts, planers, streams and tables complete with (chapters 04 to 08). -/

namespace Sys2Proof.Machine

/-! ### Contracts (R110 to R113) -/

/-- Settles O19: CONTRACT_CMD passes the gate of its entry, and `cmdAllowed` reads the contract's state. -/
theorem contractCommands : Obligations.ContractCommands := by
  refine ⟨fun s path k hk => ?_, fun m k => ⟨rfl, rfl, rfl, ?_, rfl⟩⟩
  · have ok (hp : path < 5) := decide_eq_true (⟨hp, hk⟩ : path < 5 ∧ k < 256)
    exact ⟨fun hw ha => completesWith_command (execCommit path k) rfl rfl hw ok ha rfl,
      fun hw ha => completesWith_command (execStart path k) rfl rfl hw ok ha rfl,
      fun hw ha => completesWith_command (execStop path k) rfl rfl hw ok ha rfl,
      fun hw ha => completesWith_command (execRelease path k) rfl rfl hw ok ha rfl,
      fun hw ha => completesWith_command (execDiscard path k) rfl rfl hw ok ha rfl⟩
  · rfl

/-! ### Verdicts (R112, R113, R128, R131, R132, R380) -/

/-- Settles O20: the verdict at the front of the queue is the one that each command speaks of. -/
theorem verdictEvents : Obligations.VerdictEvents := by
  intro s v vs hv
  have ok := decide_eq_true hv
  refine ⟨fun hq hown hroute hagain hwants => ?_, fun hq hown hroute hwants hagain => ?_,
    fun answer reason detail bound o hq hpair hagain hown => ?_, fun answer reason detail bound hq hpair hagain hown => ?_,
    fun hq hown => ?_, fun hq hroute => ?_, fun k hk hres hwait hup hfit => ?_, ?_⟩
  · exact completesWith_run (execForecastVerdict v.stream) rfl rfl ok (by
      simp [hq, hown, bne_iff_ne.2 hroute, hagain, hwants])
  · exact completesWith_run (execForecastVerdict v.stream) rfl rfl ok (by
      simp [hq, hown, bne_iff_ne.2 hroute, hagain, hwants])
  · exact completesWith_run (execPartnerVerdictAnswer v.stream answer reason detail bound) rfl rfl ok (by
      simp [hq, hpair, hagain, hown])
  · exact completesWith_run (execPartnerVerdictAnswer v.stream answer reason detail bound) rfl rfl ok (by
      simp [hq, hpair, hagain, hown])
  · exact completesWith_run (execPartnerVerdictTimeout v.stream) rfl rfl ok (by
      simp only [hq]
      exact if_pos (by simp [hown]))
  · exact completesWith_run (execReserveAnswerTimeout v.stream) rfl rfl ok (by simp [hq, hroute])
  · exact completesWith_when (execAutoResume k) rfl rfl (decide_eq_true hk) (by simp [hres, hwait, hup, hfit]) rfl
  · exact completesWith_run execReforecast rfl rfl rfl rfl

/-! ### Planers (R141 to R146, R155, R410) -/

/-- Settles O21: each command finds the planer in the state that its guard asks for. -/
theorem planerEvents : Obligations.PlanerEvents := by
  intro s n hn
  have ok := decide_eq_true hn
  refine ⟨fun c hrun hslice hst hisl hc => ?_, fun k p hrun hslice => ?_, fun k p hrun => ?_, fun ht hslice hrep => ?_,
    fun hslice ht => ?_, fun hpl => ?_, fun k f l rest hrep hslice hcyc => ?_⟩
  · exact completesWith_when (execStripeStart n) rfl rfl ok (by simp [hrun, hslice, hst, hisl]) (by simp only [hc])
  · intro cycles hdone
    refine completesWith_all (execStripeFinish n) rfl rfl ok ?_
    have : ¬((s.m.planer n).slice = true ∨ s.m.cyclesRun n < s.m.stripeCycles n p) := by
      rintro (h | h)
      · simp [hslice] at h
      · exact absurd hdone (Nat.not_le.2 h)
    simp only [hrun, if_neg this]
    rfl
  · intro cycles hlate
    refine completesWith_all (execStripeWatchdog n) rfl rfl ok ?_
    simp only [hrun]
    exact if_neg (Nat.not_le.2 hlate)
  · exact completesWith_when (execReplayWindow n) rfl rfl ok (by simp [ht, hslice, hrep]) rfl
  · exact completesWith_when (execReplaySliceEnd n) rfl rfl ok (by simp [ht, hslice]) rfl
  · exact completesWith_when (execPlanerClockGate n) rfl rfl ok (by simp [hpl]) rfl
  · exact completesWith_run (execReplayDone n) rfl rfl ok (by simp [hrep, hslice, hcyc])

/-! ### Streams (R103, R104, R116, R149) -/

/-- Settles O22: each command finds in the stream what its guard asks for. -/
theorem streamEvents : Obligations.StreamEvents := by
  refine ⟨fun s k hk => ⟨fun p hp => ?_, fun hw hrem hwait hfree => ?_, fun hw hrem hwait => ?_, fun hw => ?_⟩,
    fun s k hk => ⟨fun hsq => ?_, fun hen => ?_⟩⟩
  · exact completesWith_run (execLookaheadTimeout k) rfl rfl (decide_eq_true hk) (by simp only [hp])
  · exact completesWith_run (execSetSlotWaitEnd k) rfl rfl (decide_eq_true hk) (by simp [hw, hrem, hwait, hfree])
  · exact completesWith_run (execSetSlotWaitEnd k) rfl rfl (decide_eq_true hk) (by simp [hw, hrem])
  · exact completesWith_run (execSetSlotWaitEnd k) rfl rfl (decide_eq_true hk) (by simp only [hw, if_true])
  · exact completesWith_when (execSquallCalm k) rfl rfl (decide_eq_true hk) hsq rfl
  · exact completesWith_when (execStreamAbsent k) rfl rfl (decide_eq_true hk) hen rfl

/-! ### Parameters, background and profile tables (R149, R186, R187, R219) -/

/-- Settles O23: each write passes the gate of its entry. -/
theorem streamAndTableWrites : Obligations.StreamAndTableWrites := by
  intro s path
  refine ⟨fun k data hk hw hv hwait => ?_, fun k data hk hw hv => ?_, fun data hw hst => ?_, fun data hw hst => ?_, fun hw hst => ?_,
    fun hw hst => ?_, fun prof kind b hp hlo hhi hpend hused => ?_, fun prof kind hp hlo hhi hpend => ?_⟩
  · exact completesWith_keyed (execParamsApply path k data) rfl rfl hw hv (fun hp => decide_eq_true ⟨hp, hk⟩) (by simp [hwait]) rfl
  · exact completesWith_keyed (b := fun _ => true) (execBgCmd path k data) rfl rfl hw hv (fun hp => decide_eq_true ⟨hp, hk⟩) rfl rfl
  · exact completesWith_command (execTblSize path data) rfl rfl hw decide_eq_true (by simp [hst]) rfl
  · exact completesWith_command (execTblData path data) rfl rfl hw decide_eq_true (by simp [hst]) rfl
  · exact completesWith_command (execTblCmdSwap path) rfl rfl hw decide_eq_true (by simp [hst]) rfl
  · exact completesWith_command (execTblCmdAbandon path) rfl rfl hw decide_eq_true (by simp [hst]) rfl
  · exact completesWith_run (execTableActivate prof kind) rfl rfl (decide_eq_true ⟨hp, hlo, hhi⟩) (by simp [hpend, hused])
  · exact completesWith_run (execTableActivate prof kind) rfl rfl (decide_eq_true ⟨hp, hlo, hhi⟩) (by simp [hpend])

end Sys2Proof.Machine

/-! What the commands of position channels and sequencers complete with (chapter 09). -/

namespace Sys2Proof.Machine

/-! ### Frames of an SSI encoder (R244, R245) -/

section
variable {m : Mach} {n word w p : Nat} {t : TW64}

theorem Mach.ssiFrame_of_rejected (h : m.ssiWord n word = none) : m.ssiFrame n word t = m.ssiReject n false := by
  simp only [Mach.ssiFrame, h]

theorem Mach.ssiFrame_of_reference (h : m.ssiWord n word = some w) (hp : (m.posc n).last = some p) (hj : 3 ≤ (m.posc n).jumps) :
    m.ssiFrame n word t = (m.ssiAccept n w 0 t).setPst n 8 true := by
  simp only [Mach.ssiFrame, h, hp, if_pos hj]

theorem Mach.ssiFrame_of_step (h : m.ssiWord n word = some w) (hp : (m.posc n).last = some p) (hj : (m.posc n).jumps < 3) :
    m.ssiFrame n word t =
      let d := signedOf (m.rd E.SSI_BITS n) (w + 2 ^ 32 - p)
      if m.rd E.SSI_JUMP n < d.natAbs then m.ssiReject n true else m.ssiAccept n w d t := by
  simp only [Mach.ssiFrame, h, hp, if_neg (Nat.not_le.2 hj)]

end

/-! ### Standstill (R251) -/

/-- A standstill leaves the mode of the channel. -/
theorem Mach.rd_posMode_still (m : Mach) (n : Nat) : ((m.setPst n 0 true).wrI E.SPEED n 0).rd E.POS_MODE n = m.rd E.POS_MODE n := by
  have hspeed : E.POS_MODE.key n ≠ E.SPEED.key n := Entry.key_ne (by decide) (by decide) (by decide) (by decide) n
  have hstatus : E.POS_MODE.key n ≠ E.POS_STATUS.key n := Entry.key_ne (by decide) (by decide) (by decide) (by decide) n
  exact (Mach.wr_rd_other _ _ _ _ hspeed).trans (Mach.wr_rd_other _ _ _ _ hstatus)

/-- Settles O24: each command finds its channel in the mode, and its instant in the clock, that its guard asks for. -/
theorem positionCommands : Obligations.PositionCommands := by
  refine ⟨fun s n hn hon => ⟨fun rs rc t _ _ _ _ hmode => ?_, fun hmode hin hlow hhigh hlost hback => ?_, fun t hmode hfr => ?_,
    fun t hmode hfr => ?_, fun word t hmode hw => ?_, fun word t w p hmode hw hp hj hd => ?_, fun word t w p hmode hw hp hj hd => ?_,
    fun word t w p hmode hw hp hj => ?_, fun hmode hrej => ?_, fun hmode hmul hnew => ?_, fun hmode hst => ?_, fun hmode hst => ?_,
    fun hdiv hauth hq => ?_, fun hdiv hauth hq => ?_⟩,
    fun s path n data hn => ⟨fun hw hb => ?_, fun hw hv => ?_, fun hw hv => ?_⟩⟩
  · exact completesWith_when (execPosSample n rs rc t) rfl rfl (decide_eq_true hn) (by simp [hmode, hon]) rfl
  · exact completesWith_when (execAmpDwellExpiry n) rfl rfl (decide_eq_true hn) (by simp [hmode, hon]) (by
      simp [Nat.not_le.2 hin, hlow, Nat.not_le.2 hhigh, Nat.not_le.2 hlost, Nat.not_le.2 hback])
  · exact completesWith_when (execSsiPoll n t) rfl rfl (decide_eq_true hn) (by simp [hmode, hon]) (by
      simp only [hfr, Bool.not_true, Mach.when_false]; rfl)
  · exact completesWith_when (execSsiPoll n t) rfl rfl (decide_eq_true hn) (by simp [hmode, hon]) (by
      simp only [hfr, Bool.not_false, Mach.when_true]; rfl)
  · exact completesWith_when (execSsiFrame n word t) rfl rfl (decide_eq_true hn) (by simp [hmode, hon]) (Mach.ssiFrame_of_rejected hw)
  · exact completesWith_when (execSsiFrame n word t) rfl rfl (decide_eq_true hn) (by simp [hmode, hon])
      ((Mach.ssiFrame_of_step (w := w) (p := p) (by exact hw) (by simpa using hp) (by simpa using hj)).trans (if_pos hd))
  · exact completesWith_when (execSsiFrame n word t) rfl rfl (decide_eq_true hn) (by simp [hmode, hon])
      ((Mach.ssiFrame_of_step (w := w) (p := p) (by exact hw) (by simpa using hp) (by simpa using hj)).trans (if_neg (Nat.not_lt.2 hd)))
  · exact completesWith_when (execSsiJumpResync n word t) rfl rfl (decide_eq_true hn) (by simp [hmode, hon, hj])
      (Mach.ssiFrame_of_reference (p := p) (by exact hw) (by simpa using hp) (by simpa using hj))
  · exact completesWith_when (execSsiLost n) rfl rfl (decide_eq_true hn) (by simp [hmode, hrej]) rfl
  · intro x m v
    have due : (s.m.ioOn && s.m.rd E.POS_MODE n == 1 && (s.m.posc n).clock % s.m.gateLen n == 0 &&
        (s.m.posc n).clock != (s.m.posc n).gateAt) = true := by simp [hon, hmode, hmul, hnew]
    refine ⟨fun hf hx => ?_, fun hf hx => ?_, fun hf hx => ?_, fun hf hx => ?_⟩
    · exact completesWith_when (execGateEnd n) rfl rfl (decide_eq_true hn) due
        ((if_neg fun h => Bool.noConfusion (hf.symm.trans h)).trans (if_neg fun h => Bool.noConfusion (hx.symm.trans h)))
    · exact completesWith_when (execGateEnd n) rfl rfl (decide_eq_true hn) due
        ((if_neg fun h => Bool.noConfusion (hf.symm.trans h)).trans (if_pos hx))
    · exact completesWith_when (execGateEnd n) rfl rfl (decide_eq_true hn) due ((if_pos hf).trans (if_pos hx))
    · exact completesWith_when (execGateEnd n) rfl rfl (decide_eq_true hn) due ((if_pos hf).trans (if_neg (not_not.2 hx)))
  · exact completesWith_when (execStandstill n) rfl rfl (decide_eq_true hn) (by simp [hmode, hon, hst]) (by
      simp only [Mach.rd_posMode_still, hmode]; rfl)
  · exact completesWith_when (execStandstill n) rfl rfl (decide_eq_true hn) (by simp [hmode, hon, hst]) (by
      simp only [Mach.rd_posMode_still, hmode]; rfl)
  · exact completesWith_when (execDivOutputStep n) rfl rfl (decide_eq_true hn) (by simp [hdiv, hon, hauth]; omega) (by
      simp only [hq, decide_true, if_true])
  · exact completesWith_when (execDivOutputStep n) rfl rfl (decide_eq_true hn) (by simp [hdiv, hon, hauth]; omega) (by
      simp [show ¬0 < (s.m.posc n).q by omega])
  · exact completesWith_entry (execPosMode path n data) rfl rfl hw (by decide) hb (fun hp => decide_eq_true ⟨hp, hn⟩) fun m => rfl
  · exact completesWith_keyed (b := fun _ => true) (execPosCmd path n data) rfl rfl hw hv (fun hp => decide_eq_true ⟨hp, hn⟩) rfl rfl
  · obtain ⟨hp, hs, ha⟩ := State.mayWrite_iff.1 hw
    exact completesWith_run (execPosCmd path n data) rfl rfl (decide_eq_true ⟨hp, hn⟩) (by
      simp [Mach.keyed, hv, Mach.noEffect, hs, ha])

/-! ### Sequencers (R254 to R259) -/

/-- Before anything is left to put out, a time target's instant is that of the target itself. -/
theorem completesWith_mgTimeTarget {s : State} {k : Nat} {m : Mach} (hk : k < 32) (hon : s.m.ioOn = true) (hmode : 3 ≤ s.m.rd E.MG_MODE k)
    (hm : (match (s.m.mg k).outs with
      | (t, n) :: rest =>
        let first := (s.m.mg k).fireNow || decide (twDiff (s.m.mgInstant k (BitVec.ofNat 64 (s.m.rd E.MG_NEXT k))) t < 0)
        if s.m.mgActive k ∧ first = true then s.m.compareTime k
        else s.m.when (s.m.reachedTime t) fun m => (m.setMg k { s.m.mg k with outs := rest }).mgLocal k (m.ioCycle t) t n
      | [] => s.m.compareTime k) = m) : completesWith (.mgTimeTarget k) s m :=
  completesWith_when (execMgTimeTarget k) rfl rfl (decide_eq_true hk) (by simp [hon, Mach.mgTime, hmode]) hm

/-- Settles O27: each command finds the sequencer in a state in which it acts. -/
theorem sequencerCommands : Obligations.SequencerCommands := by
  intro s path k hk
  have ok (hp : path < 5) := decide_eq_true (⟨hp, hk⟩ : path < 5 ∧ k < 32)
  refine ⟨fun hw hidle => ?_, fun hw => ?_, fun t n rest hon hmode hidle houts ht => ?_,
    fun hon hmode hact houts hfire => ⟨fun ht => ?_, fun ht => ?_⟩, fun hon hmode hact hfire => ?_, ?_, fun data hw hb => ?_,
    fun data hw hb => ?_, fun data hw hb => ?_⟩
  · exact completesWith_command (execMgCmdArm path k) rfl rfl hw ok (by simp [hidle]) rfl
  · exact completesWith_command (b := fun _ => true) (execMgCmdDisarm path k) rfl rfl hw ok rfl (by funext m; simp)
  · have due : s.m.reachedTime t = true := decide_eq_true ht
    exact completesWith_mgTimeTarget hk hon hmode (by simp [houts, hidle, due])
  · have due : s.m.reachedTime (s.m.mgInstant k (BitVec.ofNat 64 (s.m.rd E.MG_NEXT k))) = true := decide_eq_true ht
    exact completesWith_mgTimeTarget hk hon hmode (by simp [houts, Mach.compareTime, hact, hfire, due])
  · have early : s.m.reachedTime (s.m.mgInstant k (BitVec.ofNat 64 (s.m.rd E.MG_NEXT k))) = false :=
      decide_eq_false (Int.not_le.2 ht)
    exact completesWith_mgTimeTarget hk hon hmode (by simp [houts, Mach.compareTime, hact, hfire, early])
  · have hnow : s.m.compareTime k = s.m.fireBehind k (BitVec.ofNat 64 (s.m.rd E.MG_NEXT k)) s.m.now := by
      simp [Mach.compareTime, hact, hfire]
    refine completesWith_mgTimeTarget hk hon hmode ?_
    cases (s.m.mg k).outs with
    | nil => exact hnow
    | cons o rest => exact (if_pos ⟨hact, by simp [hfire]⟩).trans hnow
  · exact completesWith_run (execMgPulseEnd k) rfl rfl (decide_eq_true hk) rfl
  · exact completesWith_entry (execMgTargetWrite path k 4 data) rfl rfl hw (by decide) hb (fun hp => decide_eq_true ⟨hp, hk, .inl rfl⟩)
      (fun m => by by_cases h : (m.putEntry path E.MG_TARGET_POS k data).mgActive k = true <;> simp [h])
  · exact completesWith_entry (execMgTargetWrite path k 6 data) rfl rfl hw (by decide) hb (fun hp => decide_eq_true ⟨hp, hk, .inr rfl⟩)
      (fun m => by by_cases h : (m.putEntry path E.MG_TARGET_TIME k data).mgActive k = true <;> simp [h, Mach.replaceTime, Mach.when])
  · exact completesWith_entry (execMgCountWrite path k data) rfl rfl hw (by decide) hb (fun hp => decide_eq_true ⟨hp, hk⟩) fun m => rfl

end Sys2Proof.Machine

/-! What the commands of the Mallet, of time and of the hub complete with (chapters 10 and 11). -/

namespace Sys2Proof.Machine

/-! ### The Mallet (R265 to R281) -/

/-- Settles O30: a decision is that at the front of its channel, and an update is due. -/
theorem malletCommands : Obligations.MalletCommands := by
  intro s
  refine ⟨fun r b ta idx rest hr hlen hon hen hfol hc hent hcls hdir => ?_, fun v bits hv hon hgrid hdue hf => ?_,
    fun v bits hv hon hgrid hdue hf hnew => ?_, fun path v data hv hw hb => ?_⟩
  · intro c x
    have hpad : (b ++ zeros 32).take 32 = b := by rw [List.take_append_of_le_length hlen.ge, List.take_of_length_le hlen.le]
    exact completesWith_when (execDecision r b ta) rfl rfl (decide_eq_true hr) (by simp [hon, hen, hc, hcls, hdir, hfol]) (by
      simp only [hent, beq_self_eq_true, Mach.when_true, hpad]; rfl)
  · exact completesWith_when (execValveUpdate v bits) rfl rfl (decide_eq_true hv) (by simp [hon, hgrid, Mach.reachedTime, hdue])
      (if_neg fun h => hf.elim (fun hf => by simp [hf] at h) fun hf => by simp [hf] at h)
  · exact completesWith_when (execValveUpdate v bits) rfl rfl (decide_eq_true hv) (by simp [hon, hgrid, Mach.reachedTime, hdue])
      (if_pos ⟨hf, hnew⟩)
  · exact completesWith_entry (execVpEnable path v data) rfl rfl hw (by decide) hb (fun hp => decide_eq_true ⟨hp, hv⟩) fun m => rfl

/-! ### Time (R286 to R299) -/

theorem Mach.settled_of_due {m : Mach} {c : TimeChange} (h : m.time.change = some c) (hd : m.due c = true) : m.settled = m.install c := by
  simp only [Mach.settled, h, if_pos hd]

theorem Mach.settled_of_early {m : Mach} {c : TimeChange} (h : m.time.change = some c) (hd : m.due c = false) : m.settled = m := by
  simp [Mach.settled, h, hd]

theorem Mach.settled_of_none {m : Mach} (h : m.time.change = none) : m.settled = m := by simp only [Mach.settled, h]

/-- Without a change installed, TIME_CMD passes the gate of its entry alone. -/
theorem completesWith_timeCmd {c : Instr} {s : State} (e : State → Host.Outcome State Fault Refusal) {path : Nat} {data : Bytes}
    {b : Mach → Bool} {f : Mach → Mach} (hc : exec c s = e s)
    (he : e s = s.onMach (path < 5) fun m => m.settled.command path 0x5010 5 data (b m.settled) f)
    (hw : s.mayWrite path 0x5010 5 (leNat (data.take 8)) = true) (hnone : s.m.time.change = none) (hb : b s.m = true) :
    completesWith c s (s.m.wide path 0x5010 5 data f) := by
  obtain ⟨hp, hs, ha⟩ := State.mayWrite_iff.1 hw
  have hset := Mach.settled_of_none hnone
  exact completesWith_run e hc he (decide_eq_true hp) (by rw [hset, Mach.command_open hs hb ha])

@[simp] theorem Mach.withTime_rd (m : Mach) (x : TimeBase) (e : Entry) (k : Nat) : { m with time := x }.rd e k = m.rd e k := rfl

/-- Settles O31: each command's instant has come, or has not. -/
theorem timeCommands : Obligations.TimeCommands := by
  intro s
  refine ⟨fun c hc hd => ?_, fun c hc hd => ?_, fun path hw hsrc hgm hnone => ?_, fun path hw hgm hnone => ?_, fun hhi hlo => ?_,
    fun h => ?_, fun b hb => ?_, fun a ha hold => ?_, fun x hx hc hold => ?_, fun hpar hold => ?_,
    fun up t hst hat hval hup => ?_, fun up t hup => ?_, fun a ha hgap => ?_, fun hwid hon hout hmul hdue => ?_,
    fun a ha hdue => ?_, fun hen hrun => ?_, fun h t hrun hsrc => ?_, fun h t hrun hsrc => ?_⟩
  · exact completesWith_run execTimeChangeApply rfl rfl rfl (Mach.settled_of_due hc hd)
  · exact completesWith_run execTimeChangeApply rfl rfl rfl (Mach.settled_of_early hc hd)
  · exact completesWith_timeCmd (b := fun m => m.rd E.TIME_SOURCE == 0 && m.isGm && m.time.change.isNone) (execTimeCmdInstall path) rfl rfl
      hw hnone (by simp [hsrc, Mach.isGm, hgm, hnone])
  · exact completesWith_timeCmd (b := fun m => m.isGm && m.time.change.isNone) (execTimeCmdSet path) rfl rfl hw hnone
      (by simp [Mach.isGm, hgm, hnone])
  · exact completesWith_when execEraIncrement rfl rfl rfl (by simp [hhi, hlo]) rfl
  · exact completesWith_run execEraIncrement rfl rfl rfl (by rcases h with h | h <;> simp [h])
  · exact completesWith_run execSyncPeriod rfl rfl rfl (by simp only [hb])
  · exact completesWith_when (execAnnounceAgeout a.eui) rfl rfl rfl
      (List.any_eq_true.2 ⟨a, ha, by simp [Mach.aged, Mach.threePeriods, hold]⟩) rfl
  · exact completesWith_when (execSyncExchangeTimeout x.port) rfl rfl (decide_eq_true hx) (by simp [hc, Mach.exchangeOver, hold]) rfl
  · exact completesWith_when execParentTimeout rfl rfl rfl (by simp [hpar, Mach.threePeriods, hold]) rfl
  · have edge : (up == (s.m.rd E.PPS_IN_EDGE == 0)) = true := by rw [beq_iff_eq, Bool.eq_iff_iff, beq_iff_eq]; exact hup
    refine completesWith_when (execPpsInEdge up t) rfl rfl rfl (by simp [hst, edge]) ?_
    have hkeep (n : Mach) : (n.wr E.PPS_IN_LAST 0 t.toNat).rd E.PPS_IN_VALID = n.rd E.PPS_IN_VALID := Mach.wr_rd_other _ _ _ _ (by decide)
    simp [hat, Mach.ppsValid, hkeep, hval, bn]
  · have edge : (up == (s.m.rd E.PPS_IN_EDGE == 0)) = false := by
      rw [← Bool.not_eq_true, beq_iff_eq, Bool.eq_iff_iff, beq_iff_eq]; exact hup
    exact completesWith_run (execPpsInEdge up t) rfl rfl rfl (by simp [edge])
  · exact completesWith_when execPpsInGap rfl rfl rfl (by rw [ha, Option.any_some]; exact decide_eq_true hgap) rfl
  · exact completesWith_when execPpsOutRise rfl rfl rfl (by simp [hwid, hon, hout, Mach.ppsOutDue, hmul, hdue]) rfl
  · exact completesWith_when execPpsOutFall rfl rfl rfl (by simp [ha, hdue]) rfl
  · exact completesWith_when execPtmDialog rfl rfl rfl (by simp [hen, hrun]) rfl
  · have hkeep (n : Mach) : ((n.wr E.PTM_HOST_TIME 0 h).wr E.PTM_TW64 0 t.toNat).rd E.TIME_SOURCE = n.rd E.TIME_SOURCE :=
      (Mach.wr_rd_other _ _ _ _ (by decide)).trans (Mach.wr_rd_other _ _ _ _ (by decide))
    exact completesWith_when (execPtmDialogDone true h t) rfl rfl rfl hrun (if_neg fun hs => hsrc ((hkeep _).symm.trans hs))
  · have hkeep (n : Mach) : (n.inc E.PTM_FAILS 0).rd E.TIME_SOURCE = n.rd E.TIME_SOURCE := Mach.inc_rd_other _ _ _ _ (by decide)
    exact completesWith_when (execPtmDialogDone false h t) rfl rfl rfl hrun (if_neg fun hs => hsrc ((hkeep _).symm.trans hs))

/-! ### The hub (R301 to R312) -/

/-- Settles O33: each command finds its pin, its task or its entry as the guard asks. -/
theorem hubCommands : Obligations.HubCommands := by
  intro s
  refine ⟨fun path data hw => ?_, fun i t hi hon hin hsel => ?_, fun i t hi hon hin hsel => ?_, fun i up t hi hon hin hsel => ?_,
    fun t e at_ es ht hrel hdue => ?_, fun t ht hlate => ?_, fun t ht => ?_, fun t e ht hdef hover => ?_, fun i hi => ?_,
    fun path t sub data e hp ht he => ?_⟩
  · exact completesWith_command (b := fun _ => true) (execSwPublish path data) rfl rfl hw decide_eq_true rfl rfl
  · exact completesWith_when (execDinEdge i true t) rfl rfl (decide_eq_true hi) (by simp [hon, hin])
      (if_pos (hsel.elim (fun h => .inr (.inl ⟨h, rfl⟩)) .inl))
  · exact completesWith_when (execDinEdge i false t) rfl rfl (decide_eq_true hi) (by simp [hon, hin])
      (if_pos (hsel.elim (fun h => .inr (.inr ⟨h, rfl⟩)) .inl))
  · exact completesWith_when (execDinEdge i up t) rfl rfl (decide_eq_true hi) (by simp [hon, hin]) (if_neg (by
      cases up <;> rcases hsel with h | h <;> simp_all))
  · exact completesWith_run (execRelayPublish t) rfl rfl (decide_eq_true ht) (by simp [hrel, hdue]; rfl)
  · have hnone : (s.m.task t).relays.find? (fun e => decide (e.2 ≤ s.m.ltc.toNat)) = none :=
      List.find?_eq_none.2 fun e he => by simpa using hlate e he
    exact completesWith_run (execRelayPublish t) rfl rfl (decide_eq_true ht) (by simp only [hnone])
  · exact completesWith_run (execTaskPulseEnd t) rfl rfl (decide_eq_true ht) rfl
  · have hover : s.m.heldOff t = false := by
      rw [Mach.heldOff, Option.any_eq_false]
      exact fun a ha => decide_eq_false (Nat.not_lt.2 (hover a ha))
    exact completesWith_run (execHoldoffEnd t) rfl rfl (decide_eq_true ht) (by simp [Mach.endHoldoff, hdef, hover])
  · exact completesWith_run (execPinGenWindowEnd i) rfl rfl (decide_eq_true hi) rfl
  · have hany : (loopEntries.any fun e => e.sub == sub) = true :=
      List.any_eq_true.2 ⟨e, List.mem_of_find?_eq_some he, by simpa using List.find?_some he⟩
    exact completesWith_run (execTaskConfigWrite path t sub data) rfl rfl (decide_eq_true ⟨hp, ht, hany⟩) (by simp only [he])

end Sys2Proof.Machine

/-! What the commands of the host link, of BAR0 and of completions complete with (chapters 12 and 13). -/

namespace Sys2Proof.Machine

section
variable {m : Mach}

theorem Mach.barWrite_of_open (h : m.bar0 = true) (f : Mach → Mach) : m.barWrite f = f m := if_pos h

theorem Mach.barRead_of_open (h : m.bar0 = true) (f : Mach → Mach) : m.barRead f = f m := if_pos h

/-- BAR0 answers only a function that is configured (R319). -/
theorem Mach.configured_of_bar0 (h : m.bar0 = true) : m.configured = true := by
  simp only [Mach.bar0, Bool.and_eq_true] at h
  exact h.1.1

/-- A configured function is past its start (R472). -/
theorem Mach.starting_of_configured (h : m.configured = true) : m.starting = false := by
  simp only [Mach.configured, Bool.and_eq_true, bne_iff_ne] at h
  simp [Mach.starting, h.1.2]

end

/-! ### The link, Bus Master Enable and resets (R313 to R334) -/

/-- LINK_CHANGE up to the link's return: its errors are kept, and its island recovers with it (R335, R475). -/
def Mach.linkBack (m : Mach) (errors : Nat) : Mach :=
  let n := { m with ep.up := true }.linkErrors errors
  if n.rd E.ISLAND_STATE 0x31 = 2 then { n with fail8 := some n.ns, life.hostFault := false }.wr E.ISLAND_STATE 0x31 1 else n

/-- LINK_CHANGE from there on: the size waits behind an FLR (R329), and what the link is now takes effect (R315). -/
def Mach.linkRuns (m : Mach) (rate width : Nat) (flit : Bool) (mps : Nat) : Mach :=
  let waits := m.ep.flr && m.rd E.MPS_NOW != mps
  let m := m.when waits fun m => { m with ep.queuedCfg := m.ep.queuedCfg ++ [.mps mps] }
  let now := if waits then m.rd E.MPS_NOW else mps
  let m := (((m.wr E.LINK_RATE 0 rate).wr E.LINK_WIDTH 0 width).wr E.LINK_FLIT 0 (bn flit)).wr E.MPS_NOW 0 now
  (m.linkNow rate width now).resume

theorem Mach.linkBack_ready {m : Mach} {mps : Nat} (h : m.ep.flr = false ∨ m.rd E.MPS_NOW = mps) (errors : Nat) :
    (m.linkBack errors).ep.flr = false ∨ (m.linkBack errors).rd E.MPS_NOW = mps := by
  dsimp only [Mach.linkBack]
  split
  · exact h.imp id (Mach.wr_rd_other _ _ _ _ (by decide)).trans
  · exact h

theorem Mach.linkRuns_of_ready {m : Mach} {mps : Nat} (h : m.ep.flr = false ∨ m.rd E.MPS_NOW = mps) (rate width : Nat) (flit : Bool) :
    m.linkRuns rate width flit mps =
      (((((m.wr E.LINK_RATE 0 rate).wr E.LINK_WIDTH 0 width).wr E.LINK_FLIT 0 (bn flit)).wr E.MPS_NOW 0 mps).linkNow rate width mps).resume := by
  have hready : (m.ep.flr && m.rd E.MPS_NOW != mps) = false := by rcases h with h | h <;> simp [h]
  simp only [Mach.linkRuns, hready]
  rfl

/-- Settles O34: each command finds the link, the FLR and the drain as its clause says. -/
theorem hostLinkCommands : Obligations.HostLinkCommands := by
  intro s
  refine ⟨fun rate width flit mps errors hsup htr hmps hflr => ?_, fun b o n data hst => ⟨?_, ?_⟩, fun hup hisl => ?_, fun hup hisl => ?_,
    fun hc hf => ⟨?_, ?_, ?_, ?_, ?_, fun e f => ?_⟩, fun hc hf hb => ?_, fun hc hf hb hd => ?_, fun hc hf hb hd => ?_, fun hd hr => ?_,
    fun hc hf => ?_, fun hf => ?_, fun hc hf hd3 => ?_, fun hc hf hd3 hd => ?_, fun f hc hf => ⟨?_, ?_⟩, fun v hv hen hmem hheld => ?_⟩
  · exact completesWith_when (execLinkChange rate width flit mps errors)
      (f := fun _ m => (m.linkBack errors).linkRuns rate width flit mps) rfl rfl rfl
      (by rcases hmps with rfl | rfl | rfl <;> simp [hsup, htr]) (Mach.linkRuns_of_ready (Mach.linkBack_ready hflr errors) rate width flit)
  · exact completesWith_run (execBar0InvalidAccess true b o n) rfl rfl rfl (by simp [hst])
  · exact completesWith_run (execBar0RegisterWrite true b o data) rfl (if_pos rfl) rfl (by simp [hst])
  · exact completesWith_when execDataLinkDown rfl rfl rfl hup (if_neg (by simp [Mach.beats, hisl]))
  · exact completesWith_when execDataLinkDown rfl rfl rfl hup (if_pos (by simp [Mach.beats, hisl]))
  · exact completesWith_when execBmeClear rfl rfl rfl hc (if_pos hf)
  · exact completesWith_when execBmeSet rfl rfl rfl hc (if_pos hf)
  · exact completesWith_when execD3hotEntry rfl rfl rfl hc (if_pos hf)
  · exact completesWith_when execD0Return rfl rfl rfl hc (if_pos hf)
  · exact completesWith_when execFunctionLevelReset rfl rfl rfl hc (if_pos hf)
  · exact completesWith_when (execMsixEnableWrite e f) rfl rfl rfl hc (if_pos hf)
  · exact completesWith_when execBmeClear rfl rfl rfl hc (by simp [Mach.bmeClear, hf, hb])
  · exact completesWith_when execBmeSet rfl rfl rfl hc (by simp [Mach.bmeSet, hf, hb, hd])
  · exact completesWith_when execBmeSet rfl rfl rfl hc (by simp [Mach.bmeSet, hf, hb, hd])
  · exact completesWith_when execDrainEnd rfl rfl rfl (by simp [hd, hr]) rfl
  · exact completesWith_when execFunctionLevelReset rfl rfl rfl hc (if_neg (by simp [hf]))
  · exact completesWith_when execFlrComplete rfl rfl rfl hf rfl
  · exact completesWith_when execD3hotEntry rfl rfl rfl hc (by simp [Mach.d3Enter, hf, hd3])
  · exact completesWith_when execD0Return rfl rfl rfl hc (by simp [Mach.d0Return, hf, hd3, hd])
  · exact completesWith_when (execMsixEnableWrite true f) rfl rfl rfl hc (if_neg (by simp [hf]))
  · exact completesWith_when (execMsixEnableWrite false f) rfl rfl rfl hc (if_neg (by simp [hf]))
  · exact completesWith_when (execMsixPendingSend v) rfl rfl (decide_eq_true hv) (by simp [hen, hmem, hheld]) rfl

/-! ### MSI-X (R323) -/

/-- Settles O35: the rows of R323 in their order. -/
theorem msixRows : Obligations.MsixRows := by
  intro m v
  refine ⟨fun h => if_pos h, fun hen hmem => ?_, fun hen hmem hheld => ?_, fun hen hmem hfm hmask hbme hdr hd3 hmas => ?_⟩
  · simp [Mach.raise, hen, hmem]
  · have held : m.msixHeld v = true := by
      rcases hheld with h | h | h | h | h | h <;> simp [Mach.msixHeld, h]
    simp [Mach.raise, hen, hmem, held]
  · have free : m.msixHeld v = false := by simp [Mach.msixHeld, hfm, hmask, hbme, hdr, hd3, hmas]
    simp [Mach.raise, hen, hmem, free, Mach.sendMsix]

/-! ### BAR0 (R318 to R327) -/

theorem barAccessOk_four {o : Nat} (h : o % 4 = 0) : barAccessOk o 4 = true := by simp [barAccessOk, h]

theorem barAccessOk_eight {o : Nat} (h : o % 8 = 0) : barAccessOk o 8 = true := by simp [barAccessOk, h]

/-- A received write of BAR0 that is not poisoned is stored. -/
theorem exec_bar0RegisterWrite {s : State} (h : s.m.bar0 = true) (o : Nat) (data : Bytes) :
    exec (.bar0RegisterWrite false false o data) s = .next (s.barStore o data) := by
  change execBar0RegisterWrite false false o data s = _
  simp [execBar0RegisterWrite, h]

/-- Settles O36: a register is found by its offset, and an open BAR0 takes the access. -/
theorem barCommands : Obligations.BarCommands := by
  refine ⟨fun s hbar => ?_, fun s data hbar => ?_⟩
  · have read (f : Mach → Mach) := Mach.barRead_of_open hbar f
    have write (f : Mach → Mach) := Mach.barWrite_of_open hbar f
    have hcfg := Mach.configured_of_bar0 hbar
    refine ⟨fun v => ?_, ?_, fun k hk => ?_, fun v => ?_, fun a n => ?_, fun a n => ⟨?_, ?_⟩, fun o n => ?_, fun o n ho => ?_,
      fun o ho => ?_, fun o ho => ?_, fun o ho => ?_⟩
    · exact completesWith_run (execIntCause v) rfl rfl rfl (write _)
    · exact completesWith_run execTw64Lo rfl rfl rfl (read _)
    · exact completesWith_run (execHeadLo k) rfl rfl (decide_eq_true hk) (read _)
    · exact completesWith_run (execApertureHi v) rfl rfl rfl (write _)
    · exact completesWith_run (execApertureRead a n) rfl rfl rfl (read _)
    · exact completesWith_run (execApertureWrite false a n) rfl rfl rfl (write _)
    · exact completesWith_run (execApertureWrite true a n) rfl rfl rfl (write _)
    · exact completesWith_run (execBar0InvalidAccess false true o n) rfl rfl rfl (by simp [hbar])
    · exact completesWith_run (execBar0InvalidAccess false false o n) rfl rfl rfl (by simp [read, ho])
    · exact completesWith_run (execBar0InvalidAccess false false o 4) rfl rfl rfl (by
        simp [read, barAccessOk_four ho, Mach.barLoad])
    · exact completesWith_run (execBar0InvalidAccess false false o 8) rfl rfl rfl (by
        simp [read, barAccessOk_eight ho, Mach.barLoad])
    · exact completesWith_run (execBar0InvalidAccess true false o 4) rfl rfl rfl (by
        simp [Mach.starting_of_configured hcfg, hcfg, ho])
  · refine ⟨fun o hl ho => ?_, fun o hl ho => ?_, fun o => ?_, fun o hl ho => ?_, fun v => ?_⟩
    · rw [exec_bar0RegisterWrite hbar]
      simp [State.barStore, hl, barAccessOk_four ho]
    · rw [exec_bar0RegisterWrite hbar]
      simp [State.barStore, hl, barAccessOk_eight ho]
    · change execBar0RegisterWrite false true o data s = _
      simp [execBar0RegisterWrite, hbar]; rfl
    · have hcfg := Mach.configured_of_bar0 hbar
      exact completesWith_run (execBar0RegisterWrite true false o data) rfl (if_pos rfl) rfl (by
        simp [Mach.starting_of_configured hcfg, hcfg, ho, hl])
    · exact ⟨rfl, rfl, rfl, rfl, rfl, rfl, rfl, rfl, rfl⟩

/-! ### Completions (R330 to R332) -/

/-- Settles O37: a completion or a timeout finds the read of its tag. -/
theorem completionCommands : Obligations.CompletionCommands := by
  intro s
  refine ⟨fun tag status data hc hr => ?_, fun tag data r hc hr hw hlen => ?_, fun tag status data r hc hr hw hst => ?_, fun tag r hr => ?_,
    fun tag hq => ?_, fun r data hr => ?_, fun r hr => ?_, fun h => ?_⟩
  · exact completesWith_when (execCompletion tag status data) rfl rfl rfl hc (by simp only [hr])
  · exact completesWith_when (execCompletion tag 0 data) rfl rfl rfl hc (by
      have hfull : data.take r.len ++ zeros (r.len - data.length) = data := by
        rw [hlen, Nat.sub_self, ← hlen, List.take_length]; exact List.append_nil _
      simp [hr, hw, hfull])
  · exact completesWith_when (execCompletion tag status data) rfl rfl rfl hc (by
      rcases hst with rfl | rfl <;> simp [hr, hw])
  · exact completesWith_run (execCompletionTimeout tag) rfl rfl rfl (by simp only [hr])
  · exact completesWith_when (execTagQuarantineEnd tag) rfl rfl rfl (by simpa using hq) rfl
  · exact completesWith_run (execProbeComplete 0 data) rfl rfl rfl (by simp only [hr]; rfl)
  · exact completesWith_run execProbeTimeout rfl rfl rfl (by simp only [hr])
  · exact completesWith_when execDrainTimeout rfl rfl rfl (by
      rcases h with h | ⟨x, hx, h⟩
      · simp [h]
      · simp only [Bool.or_eq_true, List.any_eq_true]
        exact .inr ⟨x, hx, by simp [h]⟩) rfl

end Sys2Proof.Machine

/-! What the commands of the engine's channels complete with (chapter 13). -/

namespace Sys2Proof.Machine

/-! ### Doorbells (R403, R406) -/

section
variable {m : Mach}

theorem Mach.follows_of_alone (h : m.paired = false) : m.follows = false := by simp [Mach.follows, h]

theorem Mach.leads_of_alone (h : m.paired = false) : m.leads = false := by simp [Mach.leads, Mach.xlinkUp, h]

/-- The module that leads a pair does not follow. -/
theorem Mach.follows_of_leads (h : m.leads = true) : m.follows = false := by
  simp only [Mach.leads, Bool.and_eq_true, beq_iff_eq] at h
  simp [Mach.follows, h.2]

theorem Mach.hostRing_of_follows (hb : m.bar0 = true) (hf : m.follows = true) (c reg v : Nat) :
    m.hostRing c reg v = m.inc E.STANDBY_WRITES 0 := (if_pos hb).trans (if_pos hf)

theorem Mach.hostRing_of_alone (hb : m.bar0 = true) (hp : m.paired = false) (c reg v : Nat) :
    m.hostRing c reg v = if reg = 0 then m.ring c v else m.setSw c v := by
  simp [Mach.hostRing, Mach.barWrite, hb, Mach.follows_of_alone hp, Mach.leads_of_alone hp]

theorem Mach.hostRing_of_leads (hb : m.bar0 = true) (hl : m.leads = true) (c reg v : Nat) :
    m.hostRing c reg v =
      let n := m.pairSend 0x66 2 0 0 (leBytes 4 c ++ leBytes 4 reg ++ leBytes 4 v)
      if reg = 0 then n.ring c v else n.setSw c v := by
  simp [Mach.hostRing, Mach.barWrite, hb, Mach.follows_of_leads hl, hl]

/-! ### The head unit (R339, R344, R347) -/

variable {c : Nat} {u : Unit}

theorem Mach.tryIssue_of_room (ht : m.canTake c u = true) (hl : m.limiterLets c u (m.nextLength c u) = true) (status : Nat) :
    m.tryIssue c u status = (m.issueUnit c u status).settle c := by simp only [Mach.tryIssue, ht, hl, if_true]

theorem Mach.tryIssue_of_limit (ht : m.canTake c u = true) (hl : m.limiterLets c u (m.nextLength c u) = false) (status : Nat) :
    m.tryIssue c u status = m := by simp [Mach.tryIssue, ht, hl]

theorem Mach.tryIssue_of_full (ht : m.canTake c u = false) (status : Nat) : m.tryIssue c u status = m.tailWait c u := by
  simp [Mach.tryIssue, ht]

end

/-- UNIT_ISSUE tries the head unit, unless it is a veneer that was never written. -/
theorem completesWith_unitIssue {s : State} {c : Nat} (hc : c < 128) {u : Unit} {m : Mach}
    (hu : (s.m.headBacks c).headUnit c = some u) (hk : (u.kind ≠ 1 ∧ u.kind ≠ 2) ∨ u.noted = true)
    (hm : ((s.m.headBacks c).tryIssue c u 0).offerVeneers u.stream = m) : completesWith (.unitIssue c) s m := by
  refine completesWith_run (execUnitIssue c) rfl rfl (decide_eq_true hc) ?_
  have open_ : ¬((u.kind = 1 ∨ u.kind = 2) ∧ u.noted = false) := by
    rintro ⟨h, hn⟩
    rcases hk with ⟨h1, h2⟩ | hk
    · exact h.elim h1 h2
    · simp [hk] at hn
  simp only [hu, if_neg open_, hm]

/-- A from-host ring with slots to read asks for them (R348). -/
theorem Mach.fetchEntries_of_available {m : Mach} {c : Nat} (hread : m.malletReads c = true) (hcls : m.chClass c = 2)
    (hdir : m.rd E.RING_DIR c = 1) (hfet : (m.chan c).fetching = false) (hst : (m.chan c).state = 1) (heng : m.rd E.ENGINE_STATE = 0)
    (hreq : m.mayRequest = true) (hpos : 0 < ((m.chan c).sw + 2 ^ 32 - (m.chan c).hw) % 2 ^ 32)
    (hle : ((m.chan c).sw + 2 ^ 32 - (m.chan c).hw) % 2 ^ 32 ≤ m.ringSlots c) :
    let x := m.chan c
    let a := m.rd E.CH_ADDR c + x.hw % m.ringSlots c * m.slotBytes c
    let n := Nat.min (Nat.min (Nat.min ((x.sw + 2 ^ 32 - x.hw) % 2 ^ 32) 8) (m.ringSlots c - x.hw % m.ringSlots c))
      (Nat.min (128 * 2 ^ m.ep.cfg.mrrs) (4096 - a % 4096) / m.slotBytes c)
    m.fetchEntries c = (m.setChan c { x with fetching := true, state := 1 }).askRead
      { chan := c, what := .entries x.hw n, addr := a, len := n * m.slotBytes c } := by
  have open_ : ¬(m.malletReads c = false ∨ m.chClass c ≠ 2 ∨ m.rd E.RING_DIR c ≠ 1 ∨ (m.chan c).fetching = true ∨
      ((m.chan c).state ≠ 1 ∧ (m.chan c).state ≠ 2) ∨ m.rd E.ENGINE_STATE ≠ 0 ∨ m.mayRequest = false) := by
    simp [hread, hcls, hdir, hfet, hst, heng, hreq]
  exact (if_neg open_).trans ((if_neg (Nat.not_lt.2 hle)).trans (if_neg (Nat.ne_of_gt hpos)))

/-- Settles O38: each command finds its channel, or its head unit, in the state in which it acts. -/
theorem engineCommands : Obligations.EngineCommands := by
  intro s c hc
  have ok := decide_eq_true hc
  refine ⟨fun v hv hb hf => ⟨?_, ?_⟩, fun v hv hb hp => ⟨?_, ?_⟩, fun v hv hb hl => ⟨?_, ?_⟩, fun path hw hst => ?_,
    fun path hw hlo hhi => ?_, fun path hw hlo hhi => ?_, fun hread hcls hdir hfet hst heng hreq => ?_,
    fun u hu hk => ⟨fun ht hl => ?_, fun ht hl => ?_, fun ht => ?_⟩, fun u hu ht hw => ?_,
    fun k t w d u hk hd hdma hu hkind hstr hdel ht hl => ?_, fun k t d u hk hd hdma hu ht hl => ?_⟩
  · exact completesWith_run (execDoorbell c v) rfl rfl ok (Mach.hostRing_of_follows hb hf c 0 _)
  · exact completesWith_run (execSwIndex c v) rfl rfl ok (Mach.hostRing_of_follows hb hf c 1 _)
  · exact completesWith_run (execDoorbell c v) rfl rfl ok (by rw [Nat.mod_eq_of_lt hv]; exact (Mach.hostRing_of_alone hb hp c 0 v).trans (if_pos rfl))
  · exact completesWith_run (execSwIndex c v) rfl rfl ok (by rw [Nat.mod_eq_of_lt hv]; exact (Mach.hostRing_of_alone hb hp c 1 v).trans (if_neg (by decide)))
  · exact completesWith_run (execDoorbell c v) rfl rfl ok (by rw [Nat.mod_eq_of_lt hv]; exact (Mach.hostRing_of_leads hb hl c 0 v).trans (if_pos rfl))
  · exact completesWith_run (execSwIndex c v) rfl rfl ok (by rw [Nat.mod_eq_of_lt hv]; exact (Mach.hostRing_of_leads hb hl c 1 v).trans (if_neg (by decide)))
  · exact completesWith_command (execChCmdStart path c) rfl rfl hw (fun hp => decide_eq_true ⟨hp, hc⟩) (by simp [hst])
      (funext fun m => if_pos rfl)
  · have running : (s.m.chan c).state = 1 ∨ (s.m.chan c).state = 2 ∨ (s.m.chan c).state = 3 := by omega
    exact completesWith_command (execChCmdStop path c) rfl rfl hw (fun hp => decide_eq_true ⟨hp, hc⟩)
      (by rcases running with h | h | h <;> simp [h]) (funext fun m => if_neg (by decide))
  · have busy : (s.m.chan c).state = 1 ∨ (s.m.chan c).state = 2 ∨ (s.m.chan c).state = 3 ∨ (s.m.chan c).state = 4 := by omega
    exact completesWith_command (execChCmdRelease path c) rfl rfl hw (fun hp => decide_eq_true ⟨hp, hc⟩)
      (by rcases busy with h | h | h | h <;> simp [h]) (funext fun m => if_neg (by decide))
  · intro x avail z hpos hle
    exact completesWith_run (execRingEntryFetch c) rfl rfl ok
      (Mach.fetchEntries_of_available hread hcls hdir hfet hst heng hreq hpos hle)
  · exact completesWith_unitIssue hc hu hk (by rw [Mach.tryIssue_of_room ht hl])
  · exact completesWith_unitIssue hc hu hk (by rw [Mach.tryIssue_of_limit ht hl])
  · exact completesWith_unitIssue hc hu hk (by rw [Mach.tryIssue_of_full ht])
  · exact completesWith_run (execSpaceWait c) rfl rfl ok (by simp [hu, ht, hw])
  · subst hdma
    exact completesWith_run (execVeneerPost k t w) rfl rfl (decide_eq_true hk) (by
      simp only [hd, hu]
      exact (if_pos ⟨hkind, hstr, hdel⟩).trans ((if_neg (by simp [ht])).trans (if_neg (by simp [hl]))))
  · subst hdma
    exact completesWith_run (execTrailerVeneer k t) rfl rfl (decide_eq_true hk) (by
      simp only [hd, hu]
      exact Mach.tryIssue_of_room ht hl _)

end Sys2Proof.Machine

/-! What fabric ports do in time, and what frames that pass the checks do (chapter 14). -/

namespace Sys2Proof

theorem SMap.put_put {α : Type} (k : Nat) (v w : α) (m : SMap α) : SMap.put k w (SMap.put k v m) = SMap.put k w m := by
  induction m with
  | nil => simp [SMap.put]
  | cons c t ih =>
    rcases Nat.lt_trichotomy k c.1 with h | h | h
    · simp [SMap.put, h]
    · simp [SMap.put, h]
    · simp [SMap.put, Nat.not_lt.2 h.le, h.ne', ih]

theorem SMap.del_put {α : Type} (k : Nat) (v : α) (m : SMap α) : SMap.del k (SMap.put k v m) = SMap.del k m := by
  induction m with
  | nil => simp [SMap.put, SMap.del]
  | cons c t ih =>
    rcases Nat.lt_trichotomy k c.1 with h | h | h
    · simp [SMap.put, SMap.del, h]
    · simp [SMap.put, SMap.del, h]
    · simp [SMap.put, SMap.del, Nat.not_lt.2 h.le, h.ne', ih]

theorem SMap.del_del {α : Type} (k : Nat) (m : SMap α) : SMap.del k (SMap.del k m) = SMap.del k m := by
  induction m with
  | nil => rfl
  | cons c t ih =>
    obtain ⟨a, w⟩ := c
    rcases eq_or_ne k a with rfl | h
    · simpa [SMap.del] using ih
    · simp [SMap.del, h, ih]

/-- The later of two settings of a key stands. A setting that unlists a key must be followed by one that does: the table need not be
sorted. -/
theorem SMap.set_set {α : Type} [DecidableEq α] {d v w : α} (h : v = d → w = d) (m : SMap α) (k : Nat) :
    SMap.set d (SMap.set d m k v) k w = SMap.set d m k w := by
  by_cases hv : v = d
  · simp [SMap.set, hv, h hv, SMap.del_del]
  · by_cases hw : w = d <;> simp [SMap.set, hv, hw, SMap.del_put, SMap.put_put]

end Sys2Proof

namespace Sys2Proof.Machine

theorem Mach.setFport_setFport {x y : FPort} (h : x = {} → y = {}) (m : Mach) (p : Nat) :
    (m.setFport p x).setFport p y = m.setFport p y := by
  simp only [Mach.setFport, SMap.set_set h]

/-- An entry that no round of a loop changes reads as before. -/
theorem Mach.each_rd {f : Nat → Mach → Mach} {e : Entry} {k : Nat} (h : ∀ j m, (f j m).rd e k = m.rd e k) (l : List Nat) (m : Mach) :
    (m.each l f).rd e k = m.rd e k := by
  unfold Mach.each
  induction l generalizing m with
  | nil => rfl
  | cons j l ih => exact (ih _).trans (h j m)

theorem Mach.showReserved_fabAddr (m : Mach) : m.showReserved.fabAddr = m.fabAddr := by
  have apart (p : Nat) : E.FAB_ADDR.key 0 ≠ E.TC2_RESERVED.key p := by simp [Entry.key, E.FAB_ADDR, E.TC2_RESERVED]; omega
  rw [Mach.fabAddr, Mach.showReserved, Mach.each_rd (fun p m => Mach.wr_rd_other _ _ _ _ (apart p)), Mach.fabAddr]

/-! ### Ports and the root (R371 to R386) -/

/-- Settles O39: each command finds its port as its guard asks. -/
theorem fabricPortCommands : Obligations.FabricPortCommands := by
  intro s p hp
  have ok := decide_eq_true hp
  refine ⟨fun hup hf => ?_, fun hfab h4 => ?_, fun hfab h3 hh => ?_, fun hup h7 => ?_, fun tc hup hw => ?_, fun tc hst hfab h4 hw => ?_,
    fun f hf hk => ?_, fun f hf hk hmsg => ?_, fun hst hroot hsent => ?_, fun flow node hany hnode => ?_⟩
  · exact completesWith_when (execHelloSend p) rfl rfl ok (by simp [hup, hf]) rfl
  · exact completesWith_when (execHelloTimeout p) rfl rfl ok (by simp [hfab, h4]) (by
      have unlisted : { s.m.fport p with hello := none } = ({} : FPort) → { s.m.fport p with hello := none, settled := false } = ({} : FPort) :=
        fun h => congrArg (fun x : FPort => { x with settled := false }) h
      simp only [Mach.setFport_rd, h4, Mach.setFport_same, Mach.setFport_setFport unlisted, if_true])
  · exact completesWith_when (execHelloFaultTimeout p) rfl rfl ok (by simp [hfab, h3, hh]) rfl
  · exact completesWith_when (execCreditSend p) rfl rfl ok (by simp [hup, h7]) rfl
  · exact completesWith_when (execCreditStarved p tc) rfl rfl ok (by simp [hup, hw]) rfl
  · exact completesWith_when (execCreditStarveFault p tc) rfl rfl ok (by simp [hfab, h4, hw, hst]) rfl
  · exact completesWith_run (execFabricFrameSend p) rfl rfl ok (by
      simp [hf, show (f.kind == 0x10) = false by simp [hk]])
  · exact completesWith_run (execFabricFrameSend p) rfl rfl ok (by simp [hf, hk, Mach.timeSent, hmsg])
  · exact completesWith_when execMapWalk rfl rfl rfl (by simp [hst, hroot]) (by
      have known : s.m.tree.sent.isNone = false := by rw [← Option.not_isSome, hsent, Bool.not_true]
      simp only [known]
      rfl)
  · exact completesWith_when (execHoldExpiry p flow node) rfl rfl ok hany
      (if_neg fun h => hnode (h.trans (Mach.showReserved_fabAddr _)))

/-! ### Frames by their kind (R369, R387) -/

section
variable {s : State} {p : Nat} {b : Bytes} {f : FabMsg} {m : Mach}

/-- A frame that passes the checks is delivered. -/
theorem State.frameIn_of_received (h : s.m.receiveFrame p b false = (some f, m)) (t : TW64) :
    s.frameIn p b false t = { s with m := m }.deliver p t f := by
  simp only [State.frameIn, h]

theorem State.kindIn_of_received (h : s.m.receiveFrame p b false = (some f, m)) (hp : p < 96) {k : Nat} (hk : frameKind b = k) (t : TW64) :
    s.kindIn k p b t = .next ({ s with m := m }.deliver p t f) := by
  rw [State.kindIn, if_pos hp, if_pos hk, State.frameIn_of_received h]

theorem State.timeIn_of_received (h : s.m.receiveFrame p b false = (some f, m)) (hp : p < 96) (hf : f.kind = 0x10)
    (hk : frameKind b = 0x10) {msg : Nat} (hmsg : leAt b 28 1 = msg) (t : TW64) :
    s.timeIn msg p b t = .next { s with m := m.onTime p f t } := by
  rw [State.timeIn, if_pos hp, if_pos ⟨hk, hmsg⟩, State.frameIn_of_received h]
  simp [State.deliver, hf]

end

/-- Settles O42: a frame that passes the checks is delivered to the handling of its kind. -/
theorem fabricFrameCommands : Obligations.FabricFrameCommands := by
  refine ⟨fun s p b f m hp h hkind => ?_, fun s p b f m t hp h hf hk => ?_⟩
  · have arrives {k : Nat} (hk : f.kind = k) (t : TW64) := State.kindIn_of_received h hp (hkind.symm.trans hk) t
    refine ⟨fun t hk => ?_, fun hk => ?_, fun hk => ?_, fun hk => ?_, fun t hk => ?_, fun t hk => ?_, fun hk => ?_, fun hk => ?_,
      fun hk => ?_, fun hk => ?_, fun hk => ?_, fun hk => ?_, fun hk => ?_, fun hk => ?_, fun hk => ?_, fun hk => ?_, fun hk => ?_,
      fun t => ?_⟩
    · exact (arrives hk t).trans (by simp [State.deliver, hk])
    · exact (arrives hk 0).trans (by simp [State.deliver, hk])
    · exact (arrives hk 0).trans (by simp [State.deliver, hk])
    · exact (arrives hk 0).trans (by simp [State.deliver, hk])
    · exact (arrives hk t).trans (by simp [State.deliver, hk])
    · exact (arrives hk t).trans (by simp [State.deliver, hk])
    · exact (arrives hk 0).trans (by simp [State.deliver, hk])
    · exact (arrives hk 0).trans (by simp [State.deliver, hk])
    · exact (arrives hk 0).trans (by simp [State.deliver, hk])
    · exact (arrives hk 0).trans (by simp [State.deliver, hk])
    · exact (arrives hk 0).trans (by simp [State.deliver, hk])
    · exact (arrives hk 0).trans (by simp [State.deliver, hk])
    · exact (arrives hk 0).trans (by simp [State.deliver, hk])
    · exact (arrives hk 0).trans (by simp [State.deliver, hk])
    · exact (arrives hk 0).trans (by simp [State.deliver, hk])
    · exact (arrives hk 0).trans (by simp [State.deliver, hk])
    · exact (arrives hk 0).trans (by simp [State.deliver, hk])
    · change execFabricFrame p b false t s = _
      rw [execFabricFrame, if_pos hp, State.frameIn_of_received h]
  · have arrives {k : Nat} (hmsg : leAt b 28 1 = k) (t : TW64) := State.timeIn_of_received h hp hf hk hmsg t
    exact ⟨fun hm => arrives hm t, fun hm => arrives hm t, fun hm => arrives hm t, fun hm => arrives hm t, fun hm => arrives hm 0⟩

end Sys2Proof.Machine

/-! What frames of a pair do, and what the pair does in time and on command (chapter 15). -/

namespace Sys2Proof.Machine

/-! ### Frames of the pair (R391, R393, R401) -/

section
variable {s : State} {p : Nat} {b : Bytes} {f : FabMsg} {m : Mach}

theorem State.deliver_of_pairKind (hk : 0x60 ≤ f.kind) (t : TW64) : s.deliver p t f = s.onPairFrame p f := by
  unfold State.deliver
  dsimp only
  iterate 18 rw [if_neg (by omega)]
  rw [if_pos hk]

/-- A pair frame that passes the checks on the cross-link port in use reaches its pair handling. -/
theorem State.pairIn_of_received (hp : s.m.xlinkPort = some p) (h : s.m.receiveFrame p b false = (some f, m)) (hkind : f.kind = frameKind b)
    {k : Nat} (hk : f.kind = k) (hpair : 0x60 ≤ k) (t : TW64) : s.pairIn k b t = .next ({ s with m := m }.onPairFrame p f) := by
  simp only [State.pairIn, hp, if_pos (hkind.symm.trans hk), State.frameIn_of_received h, State.deliver_of_pairKind (hk ▸ hpair)]

/-- A pair frame that arrives outside the pair has no effect. -/
theorem State.onPairFrame_of_outside (h : s.m.paired = false ∨ s.m.rd E.MODULE_STATE < 4 ∨ p ∉ s.m.xlinkPorts) : s.onPairFrame p f = s :=
  if_pos (by simpa using h)

/-- Within the pair, the frame is heard and then looked at. -/
theorem State.onPairFrame_of_inside (hpair : s.m.paired = true) (hst : 4 ≤ s.m.rd E.MODULE_STATE) (hport : p ∈ s.m.xlinkPorts) :
    s.onPairFrame p f =
      let s := { s with m := s.m.heardPair }
      if f.kind ≠ 0x60 ∧ s.m.flagOn 8 then s
      else if f.tc = 2 ∧ f.kind ≠ 0x6A then
        let r := s.m.pairSeen f.fseq
        let s := { s with m := r.2 }
        let s := if r.1 then s else s.pairKind p f
        { s with m := s.m.sendAck }
      else s.pairKind p f :=
  if_neg (by simp [hpair, hst, hport])

end

/-- Settles O43: a pair frame is handed to the pair, whose checks are taken in their order. -/
theorem pairFrameCommands : Obligations.PairFrameCommands := by
  refine ⟨fun s p b f m t hp h hkind => ?_, fun s p f => ⟨State.onPairFrame_of_outside, fun hpair hst hport => ?_⟩⟩
  · have reaches {k : Nat} (hk : f.kind = k) (hpair : 0x60 ≤ k) (t : TW64) := State.pairIn_of_received hp h hkind hk hpair t
    exact ⟨fun hk => reaches hk (by decide) t, fun hk => reaches hk (by decide) 0, fun hk => reaches hk (by decide) 0,
      fun hk => reaches hk (by decide) 0, fun hk => reaches hk (by decide) 0, fun hk => reaches hk (by decide) 0,
      fun hk => reaches hk (by decide) 0, fun hk => reaches hk (by decide) 0, fun hk => reaches hk (by decide) 0,
      fun hk => reaches hk (by decide) 0, fun hk => reaches hk (by decide) 0⟩
  · intro m r
    have inside := State.onPairFrame_of_inside (f := f) hpair hst hport
    have looked (h : f.kind = 0x60 ∨ m.flagOn 8 = false) : ¬(f.kind ≠ 0x60 ∧ m.flagOn 8 = true) := by
      rintro ⟨hk, hflag⟩
      exact h.elim hk fun h => by simp [h] at hflag
    refine ⟨fun hk hflag => inside.trans (if_pos ⟨hk, hflag⟩), fun h htc => inside.trans ((if_neg (looked h)).trans (if_neg fun c => htc c.1)),
      fun h htc hk hr => inside.trans ((if_neg (looked h)).trans ((if_pos ⟨htc, hk⟩).trans ?_)),
      fun h htc hk hr => inside.trans ((if_neg (looked h)).trans ((if_pos ⟨htc, hk⟩).trans ?_))⟩
    · dsimp only; rw [if_pos hr]
    · dsimp only; rw [if_neg fun h => Bool.noConfusion (hr.symm.trans h)]

/-! ### The oldest unit (R406) -/

theorem oldestUnit_cons_cons (a b : Nat × Unit) (l : List (Nat × Unit)) :
    oldestUnit (a :: b :: l) = oldestUnit ((if b.2.readyAt < a.2.readyAt then b else a) :: l) := by
  split
  · next h => exact congrArg (fun r => List.foldl _ r l) (if_pos h)
  · next h => exact congrArg (fun r => List.foldl _ r l) (if_neg h)

/-- Among units there is an oldest one, and it is answered. -/
theorem oldestUnit_cons (a : Nat × Unit) (l : List (Nat × Unit)) :
    ∃ k, oldestUnit (a :: l) = some k ∧ k ∈ a :: l ∧ ∀ j ∈ a :: l, k.2.readyAt ≤ j.2.readyAt := by
  induction l generalizing a with
  | nil => exact ⟨a, rfl, by simp, by simp⟩
  | cons b l ih =>
    rw [oldestUnit_cons_cons]
    obtain ⟨k, hk, hmem, hle⟩ := ih (if b.2.readyAt < a.2.readyAt then b else a)
    refine ⟨k, hk, ?_, ?_⟩
    · split at hmem <;> simp only [List.mem_cons] at hmem ⊢ <;> tauto
    · have hfirst := hle _ (List.mem_cons_self ..)
      intro j hj
      rcases List.mem_cons.1 hj with rfl | hj
      · split at hfirst <;> omega
      · rcases List.mem_cons.1 hj with rfl | hj
        · split at hfirst <;> omega
        · exact hle j (List.mem_cons_of_mem _ hj)

/-! ### The pair in time and on command (R396 to R420) -/

/-- Queueing frames takes no time. -/
theorem Mach.queueFrames_ns (p : Nat) (l : List (Nat × FabMsg)) (m : Mach) :
    (l.foldl (fun (m : Mach) (u : Nat × FabMsg) => m.queueFrame p u.2) m).ns = m.ns := by
  induction l generalizing m with
  | nil => rfl
  | cons u l ih => exact ih _

/-- Settles O44: each command finds the pair as its guard asks. -/
theorem pairCommands : Obligations.PairCommands := by
  refine ⟨fun s => ⟨fun present own hpair hst => ?_, fun hl => ?_, fun k f l d hk hd hown hpart hold => ?_, fun k f l hk => ?_,
    fun p hp => ?_, fun c u hf hu hold => ?_, fun t hst hfl => ?_, fun t hst hfl hg hover hrole => ?_,
    fun t hst hfl hg hover hrole hmay hfresh => ?_, fun hst hfl => ?_, fun hcl => ?_, ?_, ?_, fun cause hc h1 => ?_,
    fun hup hbit hmay => ?_, fun hpos hmay => ?_, fun hfed hmay => ?_, fun path hw hrole hfl hpart => ?_, fun path hw hrole hst => ?_,
    fun path hw hrole hfl => ?_, fun hpair hfl hsil => ?_, fun h => ?_, fun hrole hst => ?_⟩, fun l => ⟨?_, fun k hk => ?_⟩⟩
  · exact completesWith_when (execPairStateSend present own) rfl rfl rfl (by simp [hpair, hst]) rfl
  · exact completesWith_when execCommitMarkSend rfl rfl rfl hl rfl
  · have late : (d.own.isSome && d.partner.isNone && decide (d.at_ + 2000000 ≤ s.m.ns)) = true := by
      simp [Option.isSome_iff_ne_none, hown, hpart, hold]
    exact completesWith_run (execDigestWaitTimeout k f l) rfl rfl (decide_eq_true hk) (by simp only [hd, late, Mach.when_true])
  · exact completesWith_run (execPosStampTimeout k f l) rfl rfl (decide_eq_true hk) rfl
  · exact completesWith_run execPairResend rfl rfl rfl (by simp only [hp, Mach.queueFrames_ns])
  · exact completesWith_when execUnitExpiry rfl rfl rfl hf (by simp [hu, hold])
  · exact completesWith_when (execPartnerOwnFall t) rfl rfl rfl (by simp [hst, hfl]) rfl
  · exact completesWith_when (execOwnGuardExpiry t) rfl rfl rfl (by simp [hst, hfl, hg, hover])
      (congrArg Mach.tryOwn (if_neg fun h => hrole h.1))
  · exact completesWith_when (execOwnGuardExpiry t) rfl rfl rfl (by simp [hst, hfl, hg, hover])
      (congrArg Mach.tryOwn (if_pos ⟨hrole, hst, hmay, hfresh⟩))
  · exact completesWith_when execPartnerOwnRise rfl rfl rfl (by simp [hst, hfl]) rfl
  · exact completesWith_when execOwnRetry rfl rfl rfl hcl rfl
  · exact completesWith_run execKeepaliveExpiry rfl rfl rfl rfl
  · exact completesWith_run (execOwnDropFault 1) rfl rfl rfl (by simp)
  · have hsup : decide (cause < 2) = decide (cause = 0) := by rw [decide_eq_decide]; omega
    exact completesWith_run (execOwnDropFault cause) rfl rfl (decide_eq_true hc) (by simp only [hsup, if_neg h1])
  · exact completesWith_when execHostGraceExpiry rfl rfl rfl (by simp [hup, hbit, hmay]) rfl
  · exact completesWith_run (execUplinkGraceExpiry true) rfl rfl rfl (by simp [hpos, hmay])
  · exact completesWith_run (execUplinkGraceExpiry false) rfl rfl rfl (by simp [hfed, hmay])
  · exact completesWith_command (execPairCmdSwitch path) rfl rfl hw decide_eq_true (by simp [hrole, hfl, hpart]) rfl
  · exact completesWith_command (execPairCmdClearBar path) rfl rfl hw decide_eq_true (by simp [hrole, hst]) rfl
  · exact completesWith_command (execPairCmdForceAlone path) rfl rfl hw decide_eq_true (by simp [hrole, hfl]) rfl
  · exact completesWith_when execXlinkTimeout rfl rfl rfl (by simp [hpair, hfl, hsil]) rfl
  · exact completesWith_run execSyncingTimeout rfl rfl rfl (if_neg h)
  · exact completesWith_run execSyncingTimeout rfl rfl rfl (if_pos ⟨hrole, hst⟩)
  · cases l with
    | nil => simp [oldestUnit]
    | cons a l =>
      obtain ⟨k, hk, -⟩ := oldestUnit_cons a l
      simp [hk]
  · cases l with
    | nil => simp [oldestUnit] at hk
    | cons a l =>
      obtain ⟨k', hk', hmem, hle⟩ := oldestUnit_cons a l
      cases hk.symm.trans hk'
      exact ⟨hmem, hle⟩

end Sys2Proof.Machine

/-! What the life of a module, its islands, its Almanac and its firmware complete with (chapter 18). -/

namespace Sys2Proof.Machine

/-! ### Power, seating and MODULE_CMD -/

section
variable {m : Mach}

/-- An Almanac record leaves the records of the module's life. -/
theorem Mach.record_life (kind : Nat) (args : List Nat) : (m.record kind args).life = m.life := rfl

theorem Mach.moduleCmd_wake (path : Nat) :
    m.moduleCmd path 1 = m.command path 0x6C00 0x02 [1] (m.rd E.MODULE_STATE == 2) fun m => m.wakeFor 2 := by
  rw [Mach.moduleCmd, if_pos rfl]

theorem Mach.moduleCmd_dormant (path : Nat) :
    m.moduleCmd path 2 = m.command path 0x6C00 0x02 [2] (m.rd E.MODULE_STATE == 4 || m.rd E.MODULE_STATE == 5 || m.rd E.MODULE_STATE == 6 ||
      m.rd E.MODULE_STATE == 9) Mach.beginDrain := by
  rw [Mach.moduleCmd, if_neg (by decide), if_pos rfl]

theorem Mach.moduleCmd_warmRestart (path : Nat) :
    m.moduleCmd path 3 = m.command path 0x6C00 0x02 [3] (decide (3 ≤ m.rd E.MODULE_STATE)) fun m => m.warmRestart 3 := by
  rw [Mach.moduleCmd, if_neg (by decide), if_neg (by decide)]

theorem Mach.wakeFor_of_dormant (h : m.rd E.MODULE_STATE = 2) (cause : Nat) : m.wakeFor cause = (m.wr E.WAKE_SOURCE 0 cause).wake :=
  if_pos (beq_iff_eq.2 h)

end

/-! ### What a removal leaves alone: the era and the slot that its Almanac record names -/

/-- The era, whether a pair is set up, and the slot of a module stay. -/
def Mach.sameSeat (m n : Mach) : Prop := (∀ e ∈ [E.ERA, E.PAIR_ENABLE], n.rd e = m.rd e) ∧ n.slotId = m.slotId

section
variable {m n : Mach}

theorem Mach.sameSeat.refl (m : Mach) : m.sameSeat m := ⟨fun _ _ => rfl, rfl⟩

theorem Mach.sameSeat.trans {l : Mach} (h : m.sameSeat n) (h' : n.sameSeat l) : m.sameSeat l :=
  ⟨fun e he => (h'.1 e he).trans (h.1 e he), h'.2.trans h.2⟩

theorem Mach.wr_sameSeat (m : Mach) {e : Entry} {k : Nat} (h : ∀ x ∈ [E.ERA, E.PAIR_ENABLE], x.key 0 ≠ e.key k) (v : Nat) :
    m.sameSeat (m.wr e k v) := ⟨fun x hx => Mach.wr_rd_other _ _ _ _ (h x hx), rfl⟩

theorem Mach.record_sameSeat (m : Mach) (kind : Nat) (args : List Nat) : m.sameSeat (m.record kind args) :=
  Mach.wr_sameSeat _ (by decide) _

theorem Mach.sameSeat.foldl {α : Type} {f : Mach → α → Mach} (hf : ∀ (k : Mach) (x : α), k.sameSeat (f k x)) (l : List α) :
    m.sameSeat (l.foldl f m) := by
  induction l generalizing m with
  | nil => exact .refl m
  | cons x l ih => exact (hf m x).trans ih

theorem Mach.sameSeat.each {f : Nat → Mach → Mach} (hf : ∀ (j : Nat) (k : Mach), k.sameSeat (f j k)) (l : List Nat) (m : Mach) :
    m.sameSeat (m.each l f) := .foldl (fun k j => hf j k) l

theorem Mach.setModState_sameSeat (m : Mach) (st : Nat) : m.sameSeat (m.setModState st) := by
  have recorded := (m.wr_sameSeat (e := E.MODULE_STATE) (k := 0) (by decide) st).trans (Mach.record_sameSeat _ 6 [st])
  unfold Mach.setModState Mach.trialReached
  dsimp only
  generalize (m.wr E.MODULE_STATE 0 st).record 6 [st] = n at recorded ⊢
  split
  · exact .refl m
  · split <;> split <;> exact recorded

theorem Mach.markHead_sameSeat (m : Mach) (c : Nat) : m.sameSeat (m.markHead c) := by
  unfold Mach.markHead
  split
  · exact .refl m
  · split <;> exact .refl m

theorem Mach.setChan_sameSeat (m : Mach) (c : Nat) (x : Chan) : m.sameSeat (m.setChan c x) := .refl m

theorem Mach.discardWrites_sameSeat (m : Mach) : m.sameSeat m.discardWrites.2 := by
  have moved (x : Endpoint) : m.sameSeat { m with ep := x } := .refl m
  unfold Mach.discardWrites
  dsimp only
  exact (moved _).trans (.each (fun c k => (k.setChan_sameSeat c _).trans (Mach.markHead_sameSeat _ c)) _ _)

theorem Mach.holdChannels_sameSeat (m : Mach) : m.sameSeat m.holdChannels := by
  refine .each (fun c k => ?_) _ m
  dsimp only
  split <;> exact .refl k

theorem Mach.endRecovery_sameSeat (m : Mach) : m.sameSeat m.endRecovery := by
  have ended (k : Mach) : k.sameSeat ({ k with engine := {} }.wr E.ENGINE_STATE 0 0) := Mach.wr_sameSeat { k with engine := {} } (by decide) 0
  unfold Mach.endRecovery
  split
  · exact .refl m
  · exact (Mach.sameSeat.each (fun c k => k.setChan_sameSeat c _) _ m).trans (ended _)

theorem Mach.barTriggers_sameSeat (m : Mach) (p : Nat) : m.sameSeat (m.barTriggers p) := by
  refine Mach.sameSeat.foldl (m := m.setPort p _) (fun k g => ?_) _
  unfold Mach.holdTrig
  dsimp only
  split <;> exact .refl k

/-- What falls with authority names no era and no slot. -/
theorem Mach.authLost_sameSeat (m : Mach) : m.sameSeat m.authLost := by
  have apart (v : Nat) : ∀ x ∈ [E.ERA, E.PAIR_ENABLE], x.key 0 ≠ E.VP_STATE.key v := by
    simp [Entry.key, E.ERA, E.PAIR_ENABLE, E.VP_STATE]; omega
  have discarded := (Mach.discardWrites_sameSeat m).trans
    (Mach.wr_sameSeat (e := E.RELEASE_DISCARDS) (k := 0) _ (by decide) (m.discardWrites.2.rd E.RELEASE_DISCARDS + m.discardWrites.1))
  have held := (discarded.trans (Mach.holdChannels_sameSeat _)).trans (Mach.endRecovery_sameSeat _)
  unfold Mach.authLost
  dsimp only
  have still (k : Mach) (j : Nat) (x : PosChan) : k.sameSeat (k.setPosc j x) := .refl k
  refine .trans (.trans (.trans held (.each (fun j k => ?_) _ _)) (.each (fun p k => ?_) _ _)) (.each (fun v k => ?_) _ _)
  · exact still k j _
  · exact Mach.barTriggers_sameSeat k p
  · exact Mach.wr_sameSeat k (apart v) _

/-- A module of a pair that does not claim OWN has no authority (R395). -/
theorem Mach.auth_of_flag_down (hpair : m.paired = true) : (m.flag 2 false).auth = false := by
  have enabled : (m.flag 2 false).rd E.PAIR_ENABLE = 1 := (Mach.wr_rd_other _ _ _ _ (by decide)).trans (beq_iff_eq.1 hpair)
  have down : bitOf ((m.flag 2 false).rd E.PAIR_FLAGS) 2 = false := by
    have low (n : Nat) : bitOf (putBit n 2 false % 65536) 2 = false := by
      simp only [bitOf, putBit]
      grind
    exact (congrArg (bitOf · 2) (Mach.wr_rd _ _ _ _)).trans (low _)
  simp [Mach.auth, enabled, down]

theorem Mach.emit_sameSeat (m : Mach) (o : Out) : m.sameSeat (m.emit o) := .refl m

theorem Mach.driveOwn_down_sameSeat (hpair : m.paired = true) : m.sameSeat (m.driveOwn false) := by
  have flagged : m.sameSeat (m.flag 2 false) := Mach.wr_sameSeat m (by decide) _
  unfold Mach.driveOwn Mach.underGate
  dsimp only
  rw [Mach.auth_of_flag_down hpair]
  split
  · exact .refl m
  · split
    · exact (flagged.trans (Mach.authLost_sameSeat _)).trans (Mach.emit_sameSeat _ _)
    · rw [if_neg fun h => Bool.noConfusion h.2]
      exact flagged.trans (Mach.emit_sameSeat _ _)

theorem Mach.publish_sameSeat (m : Mach) (e : Event) : m.sameSeat (m.publish e) := by
  unfold Mach.publish
  split
  · exact .refl m
  · split
    · exact Mach.wr_sameSeat m (by decide) _
    · exact .refl m

/-- A release for a reason, in which the role stays. -/
theorem Mach.release_sameSeat (hpair : m.paired = true) (reason : Nat) : m.sameSeat (m.release reason 0) := by
  have counted : m.sameSeat (((m.wr E.LAST_SWITCH_REASON 0 reason).inc E.RELEASES 0).inc E.SWITCHOVERS 0) :=
    ((Mach.wr_sameSeat m (by decide) _).trans (Mach.wr_sameSeat _ (by decide) _)).trans (Mach.wr_sameSeat _ (by decide) _)
  have told (k : Mach) (code arg : Nat) : k.sameSeat (k.pairEvent code arg) := Mach.publish_sameSeat (k.take 16).2 _
  have heard := counted.trans (told _ 2 reason)
  have paired := (congrArg (· == 1) (heard.1 E.PAIR_ENABLE (by decide))).trans hpair
  unfold Mach.release
  dsimp only
  rw [if_pos rfl]
  generalize Mach.pairEvent _ 2 reason = n at heard paired ⊢
  have dropped : n.sameSeat ({ n with pair.want := false }.driveOwn false) :=
    Mach.driveOwn_down_sameSeat (m := { n with pair.want := false }) paired
  exact (heard.trans dropped).trans (Mach.record_sameSeat _ _ _)

end

/-- Settles O51: each event finds the module in the state in which it acts. -/
theorem lifeCommands : Obligations.LifeCommands := by
  intro s
  refine ⟨fun slot hslot hst hpow => ?_, fun hst hpow hout => ?_, fun hst hsense => ?_, fun t ht hst hns hout hboot => ?_,
    fun hst => ?_, fun path hw hst => ?_, fun path hw hst => ?_, fun path hw hst => ?_, fun path data hw hb => ?_,
    fun failed present hst => ?_, fun hst hto hwr hch => ?_, fun hst hrun hend => ?_, fun hpow => ?_, ?_, rfl, fun hpow => ?_,
    fun above hpow => ?_⟩
  · exact completesWith_when (execPowerOn slot) rfl rfl (decide_eq_true hslot) (by simp [hst, hpow]) rfl
  · exact completesWith_when execSenseLoopClosed rfl rfl rfl (by simp [hst, hpow, hout]) rfl
  · refine completesWith_when execSenseLoopBreak rfl rfl rfl (by simp [hst, hsense]) ?_
    have left : s.m.sameSeat ({ s.m with life.sense := false, life.removal := some s.m.ns }.setModState 8) :=
      Mach.setModState_sameSeat { s.m with life := _ } 8
    dsimp only
    generalize { s.m with life.sense := false, life.removal := some s.m.ns }.setModState 8 = n at left ⊢
    have released : s.m.sameSeat (if n.paired = true ∧ n.flagOn 2 = true then n.release 8 0 else n) := by
      split
      · next h => exact left.trans (Mach.release_sameSeat h.1 8)
      · exact left
    rw [released.1 E.ERA (by decide), released.2]
  · refine completesWith_run execSenseLoopRestore rfl rfl rfl ?_
    simp only [ht]
    refine (if_pos (Bool.and_eq_true_iff.2 ⟨Bool.and_eq_true_iff.2 ⟨beq_iff_eq.2 hst, decide_eq_true hns⟩, by rw [hout]; rfl⟩)).trans (if_neg ?_)
    rw [Mach.record_life]
    exact Bool.not_eq_true _ ▸ hboot
  · exact completesWith_run execWakeN rfl rfl rfl (Mach.wakeFor_of_dormant hst 1)
  · exact completesWith_command (execModuleCmdWake path) rfl
      (congrArg (s.onMach _) (funext fun _ => Mach.moduleCmd_wake path)) hw decide_eq_true (beq_iff_eq.2 hst) rfl
  · exact completesWith_command (execModuleCmdDormant path) rfl
      (congrArg (s.onMach _) (funext fun _ => Mach.moduleCmd_dormant path)) hw decide_eq_true (by rcases hst with h | h | h | h <;> simp [h]) rfl
  · exact completesWith_command (execModuleCmdWarmRestart path) rfl
      (congrArg (s.onMach _) (funext fun _ => Mach.moduleCmd_warmRestart path)) hw decide_eq_true (decide_eq_true hst) rfl
  · exact completesWith_entry (execBootPolicy path data) rfl rfl hw (by decide) hb decide_eq_true fun m => rfl
  · exact congrArg Host.Outcome.next (if_pos hst)
  · refine completesWith_when execDrainComplete rfl rfl rfl ?_ rfl
    simp only [Mach.draining, hst, hto, hwr, beq_self_eq_true, List.isEmpty_nil, Bool.and_self, Bool.true_and, List.all_eq_true]
    intro x hx
    obtain ⟨hq, hi, hr⟩ := hch x hx
    simp [hq, hi, hr]
  · exact completesWith_when execBenchIdleStop rfl rfl rfl (Bool.and_eq_true_iff.2 ⟨Bool.and_eq_true_iff.2 ⟨beq_iff_eq.2 hst, by rw [hrun]; rfl⟩, decide_eq_true hend⟩) rfl
  · exact completesWith_when execSupplyOutOfRange rfl rfl rfl hpow rfl
  · exact completesWith_run execSupplyInRange rfl rfl rfl rfl
  · exact congrArg Host.Outcome.next (by dsimp only; rw [if_pos hpow])
  · exact completesWith_when (execJunctionOperatingLimit above) rfl rfl rfl hpow rfl

/-! ### Islands, the Bench watchdog and the Almanac -/

/-- Settles O52: each event finds its island, or the module, in the state in which it acts. -/
theorem islandAndAlmanacCommands : Obligations.IslandAndAlmanacCommands := by
  refine ⟨fun s i hi => ?_, fun s => ?_⟩
  · have ok := decide_eq_true hi
    have fails (m : Mach) (h : i ≠ 0x31) : m.hostFails i = m := if_neg h
    refine ⟨fun hb hne => ?_, fun hb hne storage hnot => ?_, fun hb => ⟨?_, fun storage => ?_⟩, fun hb hlo hhi hpair hown => ?_,
      fun hst hne => ?_, fun hst hup => ?_, fun hpow hst => ?_⟩
    · exact completesWith_when (execHeartbeatMiss i) rfl rfl ok hb (by rw [fails _ hne])
    · refine completesWith_when (execIslandFault i storage) rfl rfl ok hb ?_
      have closed : ¬(storage = true ∧ 0x28 ≤ i ∧ i < 0x30 ∧ s.m.paired = true ∧ s.m.flagOn 2 = true) := by
        rintro ⟨hs, hlo, hhi, hp, hf⟩
        rcases hnot with h | h | h | h | h
        · exact Bool.noConfusion (hs.symm.trans h)
        · omega
        · omega
        · exact Bool.noConfusion (hp.symm.trans h)
        · exact Bool.noConfusion (hf.symm.trans h)
      dsimp only
      rw [if_neg closed, fails _ hne]
    · exact completesWith_when (execHeartbeatMiss 0x31) rfl rfl rfl hb rfl
    · refine completesWith_when (execIslandFault 0x31 storage) rfl rfl rfl hb ?_
      have closed : ¬(storage = true ∧ 0x28 ≤ 0x31 ∧ 0x31 < 0x30 ∧ s.m.paired = true ∧ s.m.flagOn 2 = true) := fun h => by omega
      dsimp only
      rw [if_neg closed]
      rfl
    · refine completesWith_when (execIslandFault i true) rfl rfl ok hb ?_
      dsimp only
      rw [if_pos ⟨rfl, hlo, hhi, hpair, hown⟩, fails _ (by omega)]
    · exact completesWith_when (execIslandRecovered i) rfl rfl ok (by simp [hst, hne]) (if_neg hne)
    · exact completesWith_when (execIslandRecovered 0x31) rfl rfl rfl (by simp [hst, hup]) rfl
    · exact completesWith_when execBenchWatchdog rfl rfl rfl (by rcases hst with h | h <;> simp [hpow, h]) rfl
  · refine ⟨fun path data hw hv => ?_, fun temps _ hst => ?_, fun hst => ⟨?_, rfl⟩, fun stack channel hs hc hst => ?_⟩
    · exact completesWith_keyed (execCalCmd path data) (b := fun _ => true) rfl rfl hw hv decide_eq_true rfl rfl
    · exact completesWith_when (execAlmanacSample temps) rfl rfl rfl (bne_iff_ne.2 hst) rfl
    · exact completesWith_when execAlmanacHour rfl rfl rfl (bne_iff_ne.2 hst) rfl
    · exact completesWith_when (execHbmCorrectedError stack channel) rfl rfl (decide_eq_true ⟨hs, hc⟩) (bne_iff_ne.2 hst) rfl

/-! ### Firmware -/

section
variable {m : Mach} {path : Nat} {data : Bytes}

/-- FUSE_CMD is written on the host's or the Bench's own path by a sender that may write it. -/
theorem Mach.fuse_open (hpath : path = 0 ∨ path = 3) (hperm : m.permitted path 0x7050 0x01 0 = true) :
    ¬((path ≠ 0 ∧ path ≠ 3) ∨ m.permitted path 0x7050 0x01 0 = false) := by
  simp only [hperm, Bool.true_eq_false, or_false]
  omega

theorem Mach.writeFuse_first (hpath : path = 0 ∨ path = 3) (hs : m.serves path = true) (hperm : m.permitted path 0x7050 0x01 0 = true)
    (hv : writtenInt E.FUSE_CMD.ty data = fuseFirst) : m.writeFuse path data = { m with life.fuse := some (path, m.ns) } :=
  (if_neg (by simp [hs])).trans ((if_neg (Mach.fuse_open hpath hperm)).trans (if_pos hv))

theorem Mach.writeFuse_second (hpath : path = 0 ∨ path = 3) (hs : m.serves path = true) (hperm : m.permitted path 0x7050 0x01 0 = true)
    (hv : writtenInt E.FUSE_CMD.ty data = fuseSecond) {t : Nat} (hf : m.life.fuse = some (path, t)) (hns : m.ns ≤ t + 10 ^ 9) :
    m.writeFuse path data = { m with life.fuse := none, life.blowing := true } := by
  unfold Mach.writeFuse
  dsimp only
  rw [if_neg (by simp [hs]), if_neg (Mach.fuse_open hpath hperm), hv, if_neg (by simp [fuseFirst, fuseSecond]), if_pos rfl, hf]
  exact if_pos ⟨rfl, hns⟩

end

/-- Settles O53: each command finds the load, the trial or the fuse in the state in which it acts. -/
theorem firmwareCommands : Obligations.FirmwareCommands := by
  intro s
  refine ⟨fun path data hw hb => ?_, fun path data hw hst hlen => ?_, fun path hw => ?_, fun path hw hst => ?_, fun path hw => ?_,
    fun path hw hst => ?_, fun t ht hns hup => ?_, fun t ht hup hns => ?_, fun path data hpath hs hperm hv => ?_,
    fun path data t hpath hs hperm hv hf hns => ?_, fun hb => ?_⟩
  · exact completesWith_entry (execFwSize path data) rfl rfl hw (by decide) hb decide_eq_true fun m => rfl
  · refine completesWith_command (execFwData path data) rfl rfl hw decide_eq_true (beq_iff_eq.2 hst) (funext fun m => ?_)
    dsimp only
    rw [if_neg (Nat.not_lt.2 hlen), List.take_of_length_le hlen]
  · exact completesWith_command (execFwCmdVerify path) (b := fun _ => true) rfl rfl hw decide_eq_true rfl rfl
  · exact completesWith_command (execFwCmdActivate path) rfl rfl hw decide_eq_true (beq_iff_eq.2 hst) rfl
  · exact completesWith_command (execFwCmdRestart path) (b := fun _ => true) rfl rfl hw decide_eq_true rfl rfl
  · exact completesWith_command (execFwCmdAbandon path) rfl rfl hw decide_eq_true (bne_iff_ne.2 hst) rfl
  · exact completesWith_when execTrialDeadline rfl rfl rfl (Bool.and_eq_true_iff.2 ⟨by rw [hup]; rfl, (Option.any_eq_true ..).2 ⟨t, ht, decide_eq_true hns⟩⟩) rfl
  · exact completesWith_when execTrialEnd rfl rfl rfl (Bool.and_eq_true_iff.2 ⟨ht, (Option.any_eq_true ..).2 ⟨t, hup, decide_eq_true hns⟩⟩) rfl
  · exact completesWith_run (execFuseCmd path data) rfl rfl (by rcases hpath with rfl | rfl <;> rfl)
      (Mach.writeFuse_first hpath hs hperm hv)
  · exact completesWith_run (execFuseCmd path data) rfl rfl (by rcases hpath with rfl | rfl <;> rfl)
      (Mach.writeFuse_second hpath hs hperm hv hf hns)
  · exact completesWith_when execFuseBlown rfl rfl rfl hb rfl

end Sys2Proof.Machine

/-! What the two-wire target and the two-wire controller complete with (chapter 17). -/

namespace Sys2Proof.Machine

/-! ### The target (R449 to R456) -/

section
variable {s : State}

/-- A byte written to a target that takes one is not held, and its transfer is one to it. -/
theorem State.twi_taking {mode : Nat} (hm : mode = 1 ∨ mode = 2) (hw : s.m.twi.waking = false) (ht : s.m.twi.mode = mode) :
    ¬(s.m.twi.waking = true ∨ (s.m.twi.mode ≠ 1 ∧ s.m.twi.mode ≠ 2)) := by
  rw [hw, ht]
  rintro (h | ⟨h1, h2⟩)
  · exact Bool.noConfusion h
  · exact hm.elim h1 h2

/-- The first byte written is the pointer. -/
theorem State.twiWrite_pointer {v : Nat} (hv : v < 256) (hr : s.m.benchRuns = true) (hw : s.m.twi.waking = false)
    (hf : s.m.twi.refusing = false) (ht : s.m.twi.mode = 1) :
    s.twiWrite v = { s with m := { s.m.wr E.TWI_POINTER 0 v with twi.mode := 2 }.emit (.twiAck true) } := by
  unfold State.twiWrite
  dsimp only
  rw [if_neg (State.twi_taking (.inl rfl) hw ht), if_neg (by rw [hf]; exact Bool.false_ne_true), if_neg (by rw [hr]; exact Bool.noConfusion),
    if_pos ht, Nat.mod_eq_of_lt hv]

/-- A byte after the pointer is stored, and the pointer rises. -/
theorem State.twiWrite_store {v : Nat} (hr : s.m.benchRuns = true) (hw : s.m.twi.waking = false) (hf : s.m.twi.refusing = false)
    (ht : s.m.twi.mode = 2) :
    s.twiWrite v =
      let t := s.pointerStore (s.m.rd E.TWI_POINTER) (BitVec.ofNat 8 v)
      { t with m := t.m.pointerUp.emit (.twiAck true) } := by
  unfold State.twiWrite
  dsimp only
  rw [if_neg (State.twi_taking (.inr rfl) hw ht), if_neg (by rw [hf]; exact Bool.false_ne_true), if_neg (by rw [hr]; exact Bool.noConfusion),
    if_neg (by rw [ht]; decide)]

end

/-- Settles O49: each event finds the target in the mode in which it acts. -/
theorem targetCommands : Obligations.TargetCommands := by
  intro s
  refine ⟨fun read hst hw => ?_, fun a read hst hw ha => ?_, fun v hv hr hw hf hm => ?_, fun v hv hr hw hf hm => ?_,
    fun acked hr hw hm hrel hf => ?_, fun hst hm hw => ⟨?_, ?_⟩, fun hst => ⟨?_, ?_⟩, fun hst haw hm hw hf => ?_, fun ns hs hw => ?_,
    fun ns hs hw => ?_, fun hw => ?_, fun path data hw => ?_, fun tag h => ?_, fun tag h => ?_, fun tag h => ?_, fun hr => ?_⟩
  · exact completesWith_when (execTwiAddress (s.m.rd E.TWI_ADDRESS) read) rfl rfl rfl (by simp [hst, hw]) (if_pos rfl)
  · exact completesWith_when (execTwiAddress a read) rfl rfl rfl (by simp [hst, hw]) (if_neg ha)
  · exact congrArg Host.Outcome.next (State.twiWrite_pointer hv hr hw hf hm)
  · exact congrArg Host.Outcome.next (State.twiWrite_store hr hw hf hm)
  · refine completesWith_run (execTwiReadByte acked) rfl rfl rfl ?_
    exact (if_neg (by simp [hw, hm, hrel])).trans ((if_neg (by simp [hf])).trans (if_pos hr))
  · exact completesWith_when (execTwiStartAbort true) rfl rfl rfl (by simp [hst, hm, hw]) (if_pos rfl)
  · exact completesWith_when (execTwiStartAbort false) rfl rfl rfl (by simp [hst, hm, hw]) (if_neg Bool.false_ne_true)
  · exact completesWith_when (execTwiLineTimeout true) rfl rfl rfl (bne_iff_ne.2 hst) (if_pos rfl)
  · exact completesWith_when (execTwiLineTimeout false) rfl rfl rfl (bne_iff_ne.2 hst) (if_neg Bool.false_ne_true)
  · exact completesWith_when execTwiWake rfl rfl rfl (by simp [hst, haw, hm, hw, hf]) rfl
  · exact completesWith_when (execTwiWakeDone ns) rfl rfl rfl hs (if_pos hw)
  · exact completesWith_when (execTwiWakeDone ns) rfl rfl rfl hs (if_neg (by rw [hw]; exact Bool.false_ne_true))
  · exact completesWith_when execTwiWakeTimeout rfl rfl rfl hw rfl
  · exact completesWith_command (execTwiFlagClear path data) (b := fun _ => true) rfl rfl hw decide_eq_true rfl rfl
  · exact congrArg Host.Outcome.next (if_pos h)
  · exact congrArg Host.Outcome.next (if_pos h)
  · exact congrArg Host.Outcome.next (if_pos h)
  · exact completesWith_when execHealthSummaryRefresh rfl rfl rfl hr rfl

/-! ### The controller (R458 to R461) -/

theorem clockLoop_eq_min (lows left : Nat) : clockLoop lows left = Nat.min lows left := by
  induction lows generalizing left with
  | zero => simp [clockLoop]
  | succ lows ih =>
    cases left with
    | zero => simp [clockLoop]
    | succ left => simp [clockLoop, ih]

section
variable {m : Mach}

theorem Mach.twcTake_of_busy (h : m.twc.now.isSome = true) : m.twcTake = m := by
  obtain ⟨t, ht⟩ := Option.isSome_iff_exists.1 h
  simp [Mach.twcTake, ht]

/-- SDA lets go within nine clocks: the bus is free. -/
theorem Mach.twcRecover_of_le {lows : Nat} (h : lows ≤ 9) :
    m.twcRecover lows = ((m.emit (.twc 3 lows)).emit (.twc 2 0)).inc E.BUS_RECOVERIES 0 := by
  have clocks : clockLoop lows 9 = lows := (clockLoop_eq_min _ _).trans (Nat.min_eq_left h)
  rw [Mach.twcRecover, clocks]
  exact if_pos (Nat.le_refl _)

/-- SDA is low after nine clocks: the bus is stuck. -/
theorem Mach.twcRecover_of_gt {lows : Nat} (h : 9 < lows) :
    m.twcRecover lows = ((m.emit (.twc 3 9)).twcFlag 1).inc E.BUS_STUCK 0 := by
  have clocks : clockLoop lows 9 = 9 := (clockLoop_eq_min _ _).trans (Nat.min_eq_right (Nat.le_of_lt h))
  rw [Mach.twcRecover, clocks]
  exact if_neg (Nat.not_le.2 h)

end

/-- TWC_BUS_CHECK of a controller that holds a transfer before its START. -/
theorem completesWith_twcBusCheck {s : State} {scl sda : Bool} {lows : Nat} {m : Mach} (hr : s.m.benchRuns = true)
    (hn : s.m.twc.now.isSome = true) (hp : s.m.twc.phase = 0 ∨ s.m.twc.phase = 4)
    (hm : (if scl then { (s.m.twcFlag 2).inc E.BUS_STUCK 0 with twc.phase := 4 }
      else
        let n := if sda then s.m.twcRecover lows else s.m
        if sda ∧ 9 < lows then n.twcAgain 4
        else { (n.emit (.twc 1 n.twcAddr)).emit (.twcWrite n.twcPointer) with twc.phase := 1 }) = m) :
    completesWith (.twcBusCheck scl sda lows) s m := by
  refine completesWith_when (execTwcBusCheck scl sda lows) rfl rfl rfl hr ?_
  dsimp only
  rw [Mach.twcTake_of_busy hn]
  exact (if_pos (by rcases hp with h | h <;> simp [hn, h])).trans hm

/-- Settles O50: each event finds the controller in the phase in which it acts. -/
theorem controllerCommands : Obligations.ControllerCommands := by
  intro s hr
  refine ⟨fun k hk ha hn hq => ?_, fun data k hp hn => ?_, fun data hp hn => ?_,
    fun hn hp => ⟨fun sda lows => ?_, fun lows => ?_, fun lows hl => ?_, fun lows hl => ?_⟩,
    fun hn hp => ⟨?_, ?_, ?_, fun lows hl => ?_, fun lows hl => ?_⟩, fun hn hp => ?_, fun hn hp => ?_⟩
  · exact completesWith_when (execTwcPoll k) rfl rfl (decide_eq_true hk) (by simp [hr, ha, hn, hq]) rfl
  · exact completesWith_when (execTwcTransferDone data) rfl rfl rfl (by simp [hr, hp]) (by simp only [hn])
  · exact completesWith_when (execTwcTransferDone data) rfl rfl rfl (by simp [hr, hp]) (by simp only [hn])
  · exact completesWith_twcBusCheck hr hn hp (if_pos rfl)
  · exact completesWith_twcBusCheck hr hn hp rfl
  · refine completesWith_twcBusCheck hr hn hp ?_
    rw [if_neg Bool.false_ne_true, if_pos rfl, Mach.twcRecover_of_le hl]
    exact if_neg fun h => Nat.not_lt.2 hl h.2
  · refine completesWith_twcBusCheck hr hn hp ?_
    rw [if_neg Bool.false_ne_true, if_pos rfl, Mach.twcRecover_of_gt hl]
    exact if_pos ⟨rfl, hl⟩
  · exact completesWith_when (execTwcArbLoss true) rfl rfl rfl (by simp [hr, hn, hp]) rfl
  · exact completesWith_when (execTwcArbLoss false) rfl rfl rfl (by simp [hr, hn, hp]) rfl
  · exact completesWith_when execTwcNack rfl rfl rfl (by simp [hr, hn, hp]) rfl
  · exact completesWith_when (execTwcSdaLowTimeout lows) rfl rfl rfl (by simp [hr, hn, hp])
      (by rw [Mach.twcRecover_of_le hl, if_neg (Nat.not_lt.2 hl)])
  · exact completesWith_when (execTwcSdaLowTimeout lows) rfl rfl rfl (by simp [hr, hn, hp])
      (by rw [Mach.twcRecover_of_gt hl, if_pos hl])
  · exact completesWith_when execTwcBusFree rfl rfl rfl (by simp [hr, hn, hp]) rfl
  · exact completesWith_when execTwcRetry rfl rfl rfl (by simp [hr, hn, hp]) rfl

end Sys2Proof.Machine

/-! Writes of the object dictionary, and what the store, the mailbox, requests to other nodes and CAN FD complete with (chapter 16). -/

namespace Sys2Proof.Machine

/-! ### The row that a found entry comes from (R423) -/

/-- An entry of a row with one subindex is found at its own index and subindex. -/
theorem findEntry_eq_some {e : Entry} {index sub k : Nat} (h : findEntry index sub = some (e, k)) (hs : e.subs = 1) :
    index = e.base + k ∧ k < e.count ∧ sub = e.sub := by
  rw [findEntry_eq_findSome?] at h
  obtain ⟨e', -, hfound⟩ := List.exists_of_findSome?_eq_some h
  unfold Entry.found at hfound
  have he : e' = e := by split at hfound <;> split at hfound <;> simp_all
  subst he
  rw [if_pos hs] at hfound
  split at hfound
  · next hrow =>
    obtain ⟨hlo, hhi, hsub⟩ := hrow
    simp only [Option.some.injEq, Prod.mk.injEq, true_and] at hfound
    omega
  · exact absurd hfound (Option.some_ne_none _).symm

/-! ### Plain entries -/

/-- The entries of the Bench, of lanes and ports, and of the I/O island whose write has a further effect. -/
def benchActs : List Entry :=
  [E.RESTORE_DEFAULTS, E.CAN_ENABLE, E.MODULE_CMD, E.BOOT_POLICY, E.FW_SIZE, E.FW_DATA, E.FW_CMD, E.FUSE_CMD, E.CAL_CMD, E.ADVICE_DAYS,
   E.HBM_CE_LIMIT]

/-- See `benchActs`. -/
def laneActs : List Entry :=
  [E.SLIP, E.SEARCH_MODE, E.REF_POLICY, E.SPREAD_DEPTH, E.REG_CMD, E.QUAD_ROLE, E.QUAD_PORTS, E.TX_FIR, E.RX_EQ, E.RX_DFE, E.LANE_FLAGS,
   E.LOOP_MODE]

/-- See `benchActs`. -/
def ioActs : List Entry :=
  [E.POS_MODE, E.POS_CMD, E.MG_CMD, E.MG_TARGET_POS, E.MG_TARGET_TIME, E.MG_COUNT, E.VP_ENABLE, E.TIME_CMD, E.PTM_ENABLE, E.TIME_SOURCE,
   E.TIME_PRIORITY, E.MG_PIN, E.MG_POLARITY, E.SW_PUBLISH, E.TASK_KIND, E.TASK_PARAM, E.TASK_ENABLE, E.SLOT0, E.SLOT1]

theorem Mach.writeBench_of_not_mem {e : Entry} (h : e ∉ benchActs) (m : Mach) (path k : Nat) (data : Bytes) :
    m.writeBench path e k data = m.writePlain path e k data := by
  simp only [benchActs, List.mem_cons, List.not_mem_nil, or_false, not_or] at h
  simp [Mach.writeBench, h]

theorem Mach.writeLanes_of_not_mem {e : Entry} (h : e ∉ laneActs) (m : Mach) (path k : Nat) (data : Bytes) :
    m.writeLanes path e k data = m.writePlain path e k data := by
  simp only [laneActs, List.mem_cons, List.not_mem_nil, or_false, not_or] at h
  simp [Mach.writeLanes, h]

theorem State.writeIo_of_not_mem {e : Entry} (h : e ∉ ioActs) (s : State) (path k : Nat) (data : Bytes) :
    s.writeIo path e k data = { s with m := s.m.writePlain path e k data } := by
  simp only [ioActs, List.mem_cons, List.not_mem_nil, or_false, not_or] at h
  simp [State.writeIo, loopEntries, h]

/-- One plain entry of each group of subjects. -/
def plainEntries : List Entry :=
  [E.HEARTBEAT_TIME, E.REG_ADDR, E.AMP_DWELL, E.MG_PITCH, E.UPDATE_PERIOD, E.MAX_ON, E.LOCK_LIMIT, E.SENSOR_ADDR]

theorem plainEntries_row : ∀ e ∈ plainEntries, e.subs = 1 ∧ e.sub < 256 ∧ e.acc = .rw := by decide

/-- A plain entry stands among the subjects of one group, and its write has no further effect. -/
theorem plainEntries_group : ∀ e ∈ plainEntries,
    (e.base + e.count ≤ 0x2000 ∧ e ∉ benchActs) ∨ (0x2000 ≤ e.base ∧ e.base + e.count ≤ 0x3000 ∧ e ∉ laneActs) ∨
    (0x4400 ≤ e.base ∧ e.base + e.count ≤ 0x5800 ∧ e ∉ ioActs) ∨ (0x5800 ≤ e.base ∧ e.base + e.count ≤ 0x6C00 ∧ e ∉ linkActs) := by decide

theorem State.write_of_plain {s : State} {path index sub : Nat} (hs : s.m.serves path = true) {e : Entry} {k : Nat}
    (hf : findEntry index sub = some (e, k)) (he : e ∈ plainEntries) (data : Bytes) :
    s.write path index sub data = { s with m := s.m.writePlain path e k data } := by
  obtain ⟨hsubs, -, hacc⟩ := plainEntries_row e he
  obtain ⟨rfl, hk, -⟩ := findEntry_eq_some hf hsubs
  have hro : ¬(e.acc = .ro ∨ e.acc = .const) := by simp [hacc]
  simp only [State.write, hs, hf, if_neg hro, Bool.true_eq_false, if_false]
  rcases plainEntries_group e he with ⟨hhi, hn⟩ | ⟨hlo, hhi, hn⟩ | ⟨hlo, hhi, hn⟩ | ⟨hlo, hhi, hn⟩
  · rw [if_pos (by omega), Mach.writeBench_of_not_mem hn]
  · rw [if_neg (by omega), if_pos (by omega), Mach.writeLanes_of_not_mem hn]
  · rw [if_neg (by omega), if_neg (by omega), if_neg (by omega), if_pos (by omega), State.writeIo_of_not_mem hn]
  · rw [if_neg (by omega), if_neg (by omega), if_neg (by omega), if_neg (by omega), State.writeLinks_of_not_mem hn]

/-- Settles O45: the gate is `Mach.command`, and a write by index and subindex passes it once the row is known. -/
theorem dictionaryWrites : Obligations.DictionaryWrites := by
  refine ⟨fun m path index sub data ok f => ⟨fun hs => Mach.command_unserved hs index sub data ok f, fun hs hk => ?_, fun hs hk hp => ?_,
    fun hs hk hp => ⟨fun hown => ?_, fun hw hx hpath hslot => ?_, fun hw hx hpath hslot => ?_⟩⟩,
    fun s path index sub data hpath => ⟨fun hs => ?_, fun e k hs hf hro => ?_, fun hs hf hsub => ?_, fun e k hs hf he hb hp => ?_⟩⟩
  · rw [hk, Mach.command_wrongState hs]
  · rw [hk, Mach.command_barred hs hp]
  · rw [Mach.command_open hs hk hp, Mach.wide_own hown]
  · rw [Mach.command_open hs hk hp]
    simp [Mach.wide, Mach.isWide, hw, hx, hpath, hslot]
  · rw [Mach.command_open hs hk hp]
    simp [Mach.wide, Mach.isWide, hw, hx, hpath, hslot]
  · rw [exec_dictWrite hpath, State.write, if_pos hs]
  · rw [completesWith, exec_dictWrite hpath]
    simp [State.write, hs, hf, hro]
  · rw [completesWith, exec_dictWrite hpath]
    simp [State.write, hs, hf, hsub]
  · obtain ⟨-, -, hacc⟩ := plainEntries_row e he
    rw [completesWith, exec_dictWrite hpath, State.write_of_plain hs hf he, Mach.writePlain,
      Mach.writeEntry_open hs (by simp [hacc]) hb hp]

/-! ### The mailbox and what ends its transactions (R403, R439) -/

section
variable {m : Mach}

/-- A cause of the endpoint changes the endpoint alone (R320, R323). -/
theorem Mach.cause_eq (m : Mach) (b : Nat) : ∃ x : Endpoint, m.cause b = { m with ep := x } := by
  have raised (k : Mach) (v : Nat) : ∃ x : Endpoint, k.raise v = { k with ep := x } := by
    unfold Mach.raise
    split
    · exact ⟨_, rfl⟩
    · split
      · exact ⟨_, rfl⟩
      · split <;> exact ⟨_, rfl⟩
  unfold Mach.cause
  dsimp only
  split
  · exact ⟨_, rfl⟩
  · split
    · obtain ⟨x, hx⟩ := raised { m with ep.intCause := putBit m.ep.intCause b true } m.ep.intVector
      exact ⟨x, hx⟩
    · exact ⟨_, rfl⟩

/-- A transaction's end changes the mailbox and the endpoint alone. -/
theorem Mach.mbEnd_eq (m : Mach) (tag result : Nat) : ∃ (x : Endpoint) (y : Mailbox), m.mbEnd tag result = { m with ep := x, mb := y } := by
  unfold Mach.mbEnd
  split
  · split
    · obtain ⟨x, hx⟩ := Mach.cause_eq { m with mb.run := none, mb.status := 2 + result * 2 ^ 8 + tag * 2 ^ 16 } 5
      exact ⟨x, _, hx⟩
    · exact ⟨_, _, rfl⟩
  · exact ⟨_, _, rfl⟩

/-- A transaction that ends runs no longer. -/
theorem Mach.mbEnd_run {r : DictReq} (hr : m.mb.run = some r) (result : Nat) : (m.mbEnd r.tag result).mb.run = none := by
  obtain ⟨x, hx⟩ := Mach.cause_eq { m with mb.run := none, mb.status := 2 + result * 2 ^ 8 + r.tag * 2 ^ 16 } 5
  simp only [Mach.mbEnd, hr, if_true, hx]

/-- A mailbox write that is done leaves the gateway, CAN FD and the fabric's requests. -/
theorem Mach.mbWritten_keeps (m : Mach) (r : DictReq) :
    (m.mbWritten r).gw = m.gw ∧ (m.mbWritten r).can = m.can ∧ (m.mbWritten r).server = m.server := by
  have shown (i : Option Info) : (m.mbShow i).gw = m.gw ∧ (m.mbShow i).can = m.can ∧ (m.mbShow i).server = m.server := by
    unfold Mach.mbShow
    split <;> exact ⟨rfl, rfl, rfl⟩
  obtain ⟨x, y, h⟩ := Mach.mbEnd_eq (m.mbShow (m.infoOf r.index r.sub)) r.tag 0
  rw [Mach.mbWritten, h]
  exact shown _

/-- What `Mach.answerWides` does on the paths other than the mailbox's. -/
def Mach.answerOthers (m : Mach) : Mach :=
  let m := match m.gw.run with | some r => if r.wait.any m.wideOver then m.gwWritten r else m | none => m
  let done := m.can.waits.filter fun w => m.wideOver w.2.2
  let m := done.foldl (fun (m : Mach) w => m.usdoAnswer 1 w.1 w.2.1 []) { m with can.waits := m.can.waits.filter fun w => !m.wideOver w.2.2 }
  let done := m.server.waiting.filter fun w => m.wideOver w.num
  done.foldl (fun (m : Mach) w => m.respond w.node w.id (responsePayload w.id 0 ((m.infoOf w.index w.sub).getD {}) []))
    { m with server.waiting := m.server.waiting.filter fun w => !m.wideOver w.num }

theorem Mach.answerWides_eq (m : Mach) : m.answerWides =
    (match m.mb.run with | some r => if r.wait.any m.wideOver then m.mbWritten r else m | none => m).answerOthers := rfl

/-- Nothing is answered where nothing waits. -/
theorem Mach.answerOthers_of_quiet (hg : m.gw.run = none) (hc : m.can.waits = []) (hs : m.server.waiting = []) : m.answerOthers = m := by
  have can : { m.can with waits := [] } = m.can := by rw [← hc]
  have server : { m.server with waiting := [] } = m.server := by rw [← hs]
  simp only [Mach.answerOthers, hg, hc, hs, List.filter_nil, List.foldl_nil, can, server]

/-- With a pair-wide write of the mailbox alone under way, only it can be answered. -/
theorem Mach.answerWides_of_mailbox {r : DictReq} {n : Nat} (hr : m.mb.run = some r) (hw : r.wait = some n) (hg : m.gw.run = none)
    (hc : m.can.waits = []) (hs : m.server.waiting = []) :
    m.answerWides = if m.wideOver n = true then m.mbWritten r else m := by
  obtain ⟨kgw, kcan, kserver⟩ := Mach.mbWritten_keeps m r
  simp only [Mach.answerWides_eq, hr, hw, Option.any_some]
  split
  · exact Mach.answerOthers_of_quiet (by rw [kgw, hg]) (by rw [kcan, hc]) (by rw [kserver, hs])
  · exact Mach.answerOthers_of_quiet hg hc hs

theorem State.mbGo_of_idle {s : State} {op : Nat} (hb : s.m.bar0 = true) (hst : s.m.mb.status % 4 ≠ 1) (h1 : op ≠ 1) (h2 : op ≠ 2) (tag : Nat) :
    (s.mbGo op tag).m.mb.run = none := by
  have free : ¬(op = 1 ∨ op = 2) := fun h => h.elim h1 h2
  unfold State.mbGo
  dsimp only
  rw [if_neg (by rw [hb]; exact Bool.noConfusion), if_neg hst, if_neg free]
  exact Mach.mbEnd_run (m := { s.m with mb.run := some _, mb.status := _, server.own := none }) rfl 0

end

/-- Settles O47: each command finds the store, the mailbox or the transfer in the state in which it acts. -/
theorem dictionaryCommands : Obligations.DictionaryCommands := by
  refine ⟨fun s => ⟨fun path data hw hv => ?_, fun hp => ?_, fun tag h => ?_, fun tag h => ?_, fun tag h => ?_, fun q r hq hr hlt => ?_,
    fun q r hq hr hle => ?_, fun r n hr hw hg hc hs => Mach.answerWides_of_mailbox hr hw hg hc hs, fun b hb hns hlt => ?_,
    fun b hb hns hle => ?_⟩, fun s op tag => ⟨fun hb => if_pos hb, fun hb hst => ?_, fun hb hst h1 h2 => State.mbGo_of_idle hb hst h1 h2 tag⟩⟩
  · exact completesWith_keyed (execRestoreDefaults path data) (b := fun _ => true) rfl rfl hw hv decide_eq_true rfl rfl
  · exact completesWith_when execStoreWrite rfl rfl rfl (beq_iff_eq.2 hp) rfl
  · exact congrArg Host.Outcome.next (if_pos h)
  · exact congrArg Host.Outcome.next (if_pos h)
  · exact congrArg Host.Outcome.next (if_pos h)
  · exact completesWith_run execDictRequestTimeout rfl rfl rfl (by simp only [hq, hr, if_pos hlt])
  · exact completesWith_run execDictRequestTimeout rfl rfl rfl (by simp only [hq, hr, if_neg (Nat.not_lt.2 hle)])
  · exact completesWith_run execBulkAckTimeout rfl rfl rfl (by
      simp only [hb]
      exact (if_pos (decide_eq_true hns)).trans (if_neg (Nat.not_le.2 hlt)))
  · exact completesWith_run execBulkAckTimeout rfl rfl rfl (by
      simp only [hb]
      exact (if_pos (decide_eq_true hns)).trans (if_pos hle))
  · exact (if_neg (by rw [hb]; exact Bool.noConfusion)).trans (if_pos hst)

/-! ### CAN FD (R442, R443) -/

section
variable {s : State}

theorem Mach.canLive_of {m : Mach} (hon : m.can.on = true) (hst : m.rd E.CAN_STATE ≠ 2) : m.canLive = true := by
  simp [Mach.canLive, hon, hst]

/-- The CAN FD path serves requests of a node that takes part. -/
theorem Mach.can_open {m : Mach} (hlive : m.canLive = true) (hs : m.serves 1 = true) : ¬(m.canLive = false ∨ m.serves 1 = false) := by
  simp [hlive, hs]

/-- An NMT command that names the node, or all nodes. -/
theorem Mach.nmt_of_named {m : Mach} (hlive : m.canLive = true) {node : Nat} (hn : node = 0 ∨ node = m.rd E.CAN_NODE_ID) (f : Mach → Mach) :
    m.nmt node f = f m :=
  if_pos (by simpa [hlive] using hn)

/-- A segment of a transfer that stands. -/
theorem exec_usdoSegment {u : Usdo} (hu : s.m.can.usdo = some u) (hlive : s.m.canLive = true) (hs : s.m.serves 1 = true)
    (hl : u.lost = false) (data : Bytes) (last : Bool) :
    exec (.usdoSegment data last) s = .next (if u.upload then { s with m := s.m.usdoNext u }
      else if last then s.usdoWrite u.index u.sub ((u.data ++ data).take u.size)
      else { s with m := { s.m with can.usdo := some { u with data := u.data ++ data } } }) := by
  change execUsdoSegment data last s = _
  simp [execUsdoSegment, hu, hlive, hs, hl]

/-- EMERGENCY where a message may be sent. -/
theorem completesWith_emergency {m : Mach} (hlive : s.m.canLive = true) (hat : s.m.can.emcyAt = none)
    (hid : bitOf (s.m.rd E.EMCY_COBID) 31 = false)
    (hm : (match s.m.causesNow.find? fun c => !(s.m.can.causes.filter s.m.causesNow.contains).contains c with
      | some c => { s.m with can.causes := s.m.can.causes.filter s.m.causesNow.contains ++ [c] }.emergency c.1 c.2
      | none => if s.m.causesNow.isEmpty ∧ !s.m.can.causes.isEmpty then { s.m with can.causes := [] }.emergency 0 0x100100
        else { s.m with can.causes := s.m.can.causes.filter s.m.causesNow.contains }) = m) : completesWith .emergency s m := by
  refine completesWith_run execEmergency rfl rfl rfl ?_
  simp only [hat, hid, hlive]
  exact hm

end

/-- Settles O48: each command finds the node in the network, and the transfer in the state in which it acts. -/
theorem canCommands : Obligations.CanCommands := by
  refine ⟨fun s hon hst => ?_, fun s => ⟨fun hon hst => ?_, fun path data hw hb => ?_⟩⟩
  · have live := Mach.canLive_of hon hst
    refine ⟨fun index sub data size hs => ⟨fun expedited => ?_, ?_, ?_⟩, fun index sub hs h1 => ?_, fun index sub hs h1 => ⟨fun hle => ?_, fun hgt => ?_⟩,
      fun index sub hs => ?_, fun u data last hu hs hl => ?_, fun u data last hu hs hl hup => ?_, fun u data hu hs hl hup => ⟨?_, ?_⟩, fun u hu => ?_,
      fun node hn => ⟨?_, ?_, ?_, ?_, ?_⟩, fun ht => ?_, fun c hat hid hnow hc => ?_, fun hat hid hnow hc => ?_, ?_, ?_, ?_⟩
    · exact congrArg Host.Outcome.next ((if_neg (Mach.can_open live hs)).trans (if_pos rfl))
    · exact congrArg Host.Outcome.next ((if_neg (Mach.can_open live hs)).trans ((if_neg Bool.false_ne_true).trans (if_pos rfl)))
    · exact congrArg Host.Outcome.next ((if_neg (Mach.can_open live hs)).trans ((if_neg Bool.false_ne_true).trans (if_neg Bool.false_ne_true)))
    · exact completesWith_when (execUsdoUpload index sub false) rfl rfl rfl (by simp [live, hs])
        ((if_neg Bool.false_ne_true).trans (if_pos h1))
    · exact completesWith_when (execUsdoUpload index sub false) rfl rfl rfl (by simp [live, hs])
        ((if_neg Bool.false_ne_true).trans ((if_neg h1).trans (if_pos hle)))
    · exact completesWith_when (execUsdoUpload index sub false) rfl rfl rfl (by simp [live, hs])
        ((if_neg Bool.false_ne_true).trans ((if_neg h1).trans (if_neg (Nat.not_le.2 hgt))))
    · exact completesWith_when (execUsdoUpload index sub true) rfl rfl rfl (by simp [live, hs]) (if_pos rfl)
    · change execUsdoSegment data last s = _
      simp [execUsdoSegment, hu, hl]
    · exact (exec_usdoSegment hu live hs hl data last).trans (congrArg Host.Outcome.next (if_pos hup))
    · exact (exec_usdoSegment hu live hs hl data false).trans (by simp [hup])
    · exact (exec_usdoSegment hu live hs hl data true).trans (by simp [hup])
    · exact completesWith_run execUsdoTimeout rfl rfl rfl (by simp only [hu]; exact if_pos live)
    · exact completesWith_run (execNmtStart node) rfl rfl rfl (Mach.nmt_of_named live hn _)
    · exact completesWith_run (execNmtStop node) rfl rfl rfl (Mach.nmt_of_named live hn _)
    · exact completesWith_run (execNmtEnterPreoperational node) rfl rfl rfl (Mach.nmt_of_named live hn _)
    · exact completesWith_run (execNmtResetCommunication node) rfl rfl rfl (Mach.nmt_of_named live hn _)
    · exact completesWith_run (execNmtResetNode node) rfl rfl rfl (Mach.nmt_of_named live hn _)
    · exact completesWith_when execHeartbeat rfl rfl rfl (by simp [live, ht]) rfl
    · exact completesWith_emergency live hat hid (by simp [hnow, hc])
    · exact completesWith_emergency live hat hid (by simp [hnow, hc])
    · exact completesWith_when execCanBusOff rfl rfl rfl live rfl
    · exact completesWith_when (execCanErrorPassive true) rfl rfl rfl live rfl
    · exact completesWith_when (execCanErrorPassive false) rfl rfl rfl live rfl
  · exact completesWith_when execCanBusOffRecovery rfl rfl rfl (by simp [hon, hst]) rfl
  · exact completesWith_entry (execCanEnable path data) rfl rfl hw (by decide) hb decide_eq_true fun m => rfl

end Sys2Proof.Machine

/-! What a lane's receiver does with levels, codewords and blocks (chapter 02). -/

namespace Sys2Proof.Machine

/-! ### The wire's coding undone (R28, R30, R33) -/

theorem unprecode_precode {y : Nat} {g : List Nat} (hg : ∀ v ∈ g, v < 4) : unprecode y (precode y g).1 = g := by
  induction g generalizing y with
  | nil => rfl
  | cons v g ih =>
    rw [List.forall_mem_cons] at hg
    have first : ((v + 4 - y % 4) % 4 + y) % 4 = v := by omega
    simp only [precode, unprecode, first, ih hg.2]

theorem polarity_polarity (inv : Bool) {g : List Nat} (hg : ∀ v ∈ g, v < 4) : polarity inv (polarity inv g) = g := by
  cases inv with
  | false => rfl
  | true =>
    have twice : ∀ v ∈ g, ((3 - ·) ∘ (3 - ·)) v = v := fun v hv => by
      have hv := hg v hv
      simp only [Function.comp_apply]
      omega
    simp only [polarity, if_true, List.map_map]
    exact (List.map_congr_left twice).trans (List.map_id g)

theorem descramble_scramble (r : BitVec 58) (bits : List Bool) : descramble r (scramble r bits).1 = (bits, (scramble r bits).2) := by
  induction bits generalizing r with
  | nil => rfl
  | cons d t ih => simp [scramble, descramble, descrambleBit, ih]

/-! ### Blocks and codewords -/

section
variable {m : Mach} {l : Nat}

/-- The block that waits longest comes first. -/
theorem Mach.nextBlock_of_waiting {b : RxBlock} {rest : List RxBlock} (hb : (m.lane l).rxBlocks = b :: rest) (h : Bool) (bits : Bytes) :
    m.nextBlock l h bits = (some b, m.setLane l { m.lane l with rxBlocks := rest }) := by
  simp only [Mach.nextBlock, hb]

/-- A valid pair of headers short of the 64th. -/
theorem Mach.judgePair_of_valid {b : RxBlock} (hf : (m.lane l).half = some true) (hh : b.h = false) (hi : idleBlock b.payload = true)
    (hn : (m.lane l).pairs < 63) :
    m.judgePair l b = m.setLane l { m.lane l with half := none, pairs := (m.lane l).pairs + 1 } := by
  have short : ¬64 ≤ (m.lane l).pairs + 1 := by omega
  have more : Nat.min 64 ((m.lane l).pairs + 1) = (m.lane l).pairs + 1 := Nat.min_eq_right (by omega)
  simp only [Mach.judgePair, hf, hh, hi, Bool.true_or, Bool.not_false, Bool.and_self, if_true, if_neg short, more]

/-- A wrong pair of headers. -/
theorem Mach.judgePair_of_wrong {b : RxBlock} {first : Bool} (hf : (m.lane l).half = some first) (h : first = false ∨ b.h = true) :
    m.judgePair l b = (m.setLane l { m.lane l with half := none, pairs := 0 }).wr E.BLK_LOCK l 0 := by
  rcases h with h | h <;> simp [Mach.judgePair, hf, h]

/-- The far-end loop and the transmitter leave what the receiver decodes. -/
theorem Mach.farEnd_decoding (m : Mach) (l : Nat) (g : List Nat) : ((m.farEnd l g).lane l).decoding = (m.lane l).decoding := by
  unfold Mach.farEnd
  split
  · exact (congrArg Lane.decoding (Mach.setLane_same m l _)).trans rfl
  · rfl

/-- A codeword that arrives while the decoder runs goes to it. -/
theorem Mach.codewordIn_of_decoding (h : (m.lane l).decoding = true) (g : List Nat) :
    m.codewordIn l g = (m.setLane l { m.lane l with rxPrev := g.getLastD 0 }).decode l (m.rxCodeword l g) := by
  simp [Mach.codewordIn, h]

end

/-- CODEWORD_RECEIVE of a lane whose decoder runs. -/
theorem completesWith_codewordReceive {s : State} {l : Nat} (hl : l < 96) {levels g : List Nat} (hst : s.m.laneState l ≠ 0)
    (hg : s.m.rxIndices l levels = some g) (hd : (s.m.lane l).decoding = true) :
    completesWith (.codewordReceive l levels) s
      (((s.m.farEnd l g).setLane l { (s.m.farEnd l g).lane l with rxPrev := g.getLastD 0 }).decode l ((s.m.farEnd l g).rxCodeword l g)) := by
  refine completesWith_when (execCodewordReceive l levels) rfl rfl (decide_eq_true hl) (bne_iff_ne.2 hst) ?_
  simp only [hg]
  exact Mach.codewordIn_of_decoding ((Mach.farEnd_decoding s.m l g).trans hd) g

/-- Settles O15: the coding is undone step by step, and a block or a codeword meets the receiver in the state in which it acts. -/
theorem laneReception : Obligations.LaneReception := by
  refine ⟨fun y g _ hg => unprecode_precode hg, fun inv g hg => polarity_polarity inv hg, descramble_scramble, fun s l hl =>
    ⟨fun h bits b rest _ hst hb hp => ?_, fun h bits b n _ hst hn hp => ?_, fun b hf hh hi hn => Mach.judgePair_of_valid hf hh hi hn,
      fun b first hf h => Mach.judgePair_of_wrong hf h, fun levels g _ _ hst hg hd => ⟨fun hc => ?_, fun d n hc => ?_⟩⟩⟩
  · refine completesWith_when (execBlockReceive l h bits) rfl rfl (decide_eq_true hl) (bne_iff_ne.2 hst) ?_
    simp only [Mach.nextBlock_of_waiting hb]
    exact if_neg (by rw [hp]; exact Bool.false_ne_true)
  · refine completesWith_when (execAlignmentMarker l h bits) rfl rfl (decide_eq_true hl) (decide_eq_true hst) ?_
    simp only [hn]
    exact if_pos hp
  · have hdecode := completesWith_codewordReceive hl hst hg hd
    simp only [Mach.decode, hc] at hdecode
    exact hdecode
  · have hdecode := completesWith_codewordReceive hl hst hg hd
    simp only [Mach.decode, hc] at hdecode
    exact hdecode

end Sys2Proof.Machine

/-! What a tick does while no command waits (R41, R286, R306, R318, R403). -/

namespace Sys2Proof.Machine

/-! ### The tick counter, which no part of a tick but its own count moves, and the writes left to this module alone -/

/-- The tick counter, and the pair-wide writes that the loss of the cross-link left to this module alone. -/
def Mach.watch (m : Mach) : BitVec 64 × List Wide := (m.ltc, m.pair.orphans)

section
variable (m : Mach)

theorem Mach.of_watch {m : Mach} {l : BitVec 64} {w : List Wide} (h : m.watch = (l, w)) : m.ltc = l ∧ m.pair.orphans = w := Prod.mk.inj h

theorem Mach.wr_watch (e : Entry) (k n : Nat) : (m.wr e k n).watch = m.watch := by simp only [Mach.watch, Mach.wr_keeps]

theorem Mach.foldl_watch {α : Type} {f : Mach → α → Mach} (hf : ∀ (k : Mach) (x : α), (f k x).watch = k.watch) (l : List α) :
    (l.foldl f m).watch = m.watch := by
  induction l generalizing m with
  | nil => rfl
  | cons x l ih => exact (ih _).trans (hf m x)

theorem Mach.each_watch {f : Nat → Mach → Mach} (hf : ∀ (j : Nat) (k : Mach), (f j k).watch = k.watch) (l : List Nat) :
    (m.each l f).watch = m.watch := Mach.foldl_watch m (fun k j => hf j k) l

/-! #### Frames of the fabric and of the pair -/

@[simp] theorem Mach.nextFseq_watch (tc flow : Nat) : (m.nextFseq tc flow).2.watch = m.watch := by
  unfold Mach.nextFseq
  split <;> rfl

@[simp] theorem Mach.sendTo_watch (dst tc kind argA argB : Nat) (b : Bytes) (flow : Nat) :
    (m.sendTo dst tc kind argA argB b flow).2.watch = m.watch := by
  unfold Mach.sendTo
  split
  · rfl
  · exact m.nextFseq_watch tc flow

@[simp] theorem Mach.pairSend_watch (kind tc argA argB : Nat) (b : Bytes) : (m.pairSend kind tc argA argB b).watch = m.watch := by
  unfold Mach.pairSend
  split
  · rfl
  · dsimp only
    split <;> exact m.nextFseq_watch _ _

/-! #### The Forecast and the routes of a stream (R112) -/

theorem Mach.refillAll_watch : m.refillAll.watch = m.watch := by
  refine m.each_watch (fun c k => ?_) _
  rfl

theorem Mach.publishForecast_watch (k : List Counted) (keep : Bool) : (m.publishForecast k keep).watch = m.watch := by
  simp only [Mach.publishForecast, Mach.wr_watch, Mach.each_watch, Mach.foldl_watch, Mach.refillAll_watch, implies_true]

theorem Mach.showReserved_watch : m.showReserved.watch = m.watch := by
  refine m.each_watch (fun p k => ?_) _
  rfl

theorem Mach.settleHolds_watch (node flow to_ num commit : Nat) : (m.settleHolds node flow to_ num commit).watch = m.watch := by
  have held (l : List Hold) : ({ m with holds := l }).showReserved.watch = m.watch := Mach.showReserved_watch _
  exact held _

theorem Mach.tellHolds_watch (t : Terms) (num commit : Nat) : (m.tellHolds t num commit).watch = m.watch := by
  unfold Mach.tellHolds
  split
  · exact (Mach.sendTo_watch _ _ _ _ _ _ _ _).trans (m.settleHolds_watch _ _ _ _ _)
  · rfl

theorem Mach.freeRoutes_watch (gone keep : List Live) : (m.freeRoutes gone keep).watch = m.watch := by
  refine m.foldl_watch (fun k g => ?_) gone
  split
  · exact k.tellHolds_watch _ _ _
  · split
    · exact k.tellHolds_watch _ _ _
    · split
      · exact k.tellHolds_watch _ _ _
      · rfl

theorem Mach.retire_watch (s : Nat) : (m.retire s).watch = m.watch := by
  have relaxed (x : Stream) (gone keep : List Live) : (((m.setStrm s x).freeRoutes gone keep).relax).watch = m.watch :=
    (Mach.publishForecast_watch _ _ _).trans (Mach.freeRoutes_watch _ _ _)
  have shown (k : Mach) : (k.wr E.CHANGE_STATE s 0).watch = k.watch := rfl
  unfold Mach.retire
  dsimp only
  split
  · split <;> rfl
  · split
    · exact (shown _).trans (relaxed _ _ _)
    · exact relaxed _ _ _

/-! #### Units of the engine's channels (R337 to R347) -/

theorem Mach.markHead_watch (c : Nat) : (m.markHead c).watch = m.watch := by
  unfold Mach.markHead
  split
  · rfl
  · split <;> rfl

theorem Mach.unitEnded_watch (u : Unit) (seq : Nat) (written : Option Bytes) (skipped aborted : Bool) :
    (m.unitEnded u seq written skipped aborted).watch = m.watch := by
  unfold Mach.unitEnded
  split
  · rfl
  · split
    · rfl
    · dsimp only
      split
      · split <;> rfl
      · split
        · refine (Mach.retire_watch _ _).trans ?_
          split <;> rfl
        · split <;> rfl

theorem Mach.takeSeq_watch (c : Nat) (u : Unit) : (m.takeSeq c u).2.watch = m.watch := by
  unfold Mach.takeSeq
  split <;> rfl

theorem Mach.logUnit_watch (c : Nat) (u : Unit) (seq : Nat) (dropped : Bool) (body : Bytes) :
    (m.logUnit c u seq dropped body).watch = m.watch := by
  unfold Mach.logUnit
  split
  · exact m.pairSend_watch _ _ _ _ _
  · rfl

theorem Mach.abortTouched_watch (c seq : Nat) (u : Unit) : (m.abortTouched c seq u).watch = m.watch := by
  unfold Mach.abortTouched
  split <;> rfl

/-- What a dropped unit's log entry, count and waiting time leave behind. -/
def Mach.dropNoted (m : Mach) (c : Nat) (u : Unit) (seq : Nat) (aborted : Bool) : Mach :=
  let m := if u.seq.isNone then m.logUnit c u seq true (if u.kind = 1 ∨ u.kind = 2 then zeros 64 else if u.kind = 7 then u.data else []) else m
  let m := if aborted then m else m.inc E.UNITS_DROPPED c
  match u.headAt with | some h => m.peak E.CH_WAIT_PEAK c (m.ns - h) | none => m

theorem Mach.dropUnit_eq (c : Nat) (u : Unit) (aborted : Bool) :
    m.dropUnit c u aborted =
      let r := m.takeSeq c u
      let k := r.2.dropNoted c u r.1 aborted
      let k := k.setChan c { k.chan c with queue := eraseUnit u (k.chan c).queue }
      let k := if 0 < u.placed then k.abortTouched c r.1 u else k
      ((k.unitEnded u r.1 none false aborted).advance c r.1).markHead c := rfl

theorem Mach.dropNoted_watch (c : Nat) (u : Unit) (seq : Nat) (aborted : Bool) : (m.dropNoted c u seq aborted).watch = m.watch := by
  have logged (b : Bytes) : (if u.seq.isNone then m.logUnit c u seq true b else m).watch = m.watch := by
    split
    · exact m.logUnit_watch _ _ _ _ _
    · rfl
  have counted (k : Mach) : (if aborted then k else k.inc E.UNITS_DROPPED c).watch = k.watch := by split <;> rfl
  have peaked (k : Mach) (n : Nat) : (k.peak E.CH_WAIT_PEAK c n).watch = k.watch := by
    unfold Mach.peak
    split <;> rfl
  cases hu : u.headAt with
  | none =>
    simp only [Mach.dropNoted, hu]
    exact (counted _).trans (logged _)
  | some h =>
    simp only [Mach.dropNoted, hu]
    exact (peaked _ _).trans ((counted _).trans (logged _))

theorem Mach.dropUnit_watch (c : Nat) (u : Unit) (aborted : Bool) : (m.dropUnit c u aborted).watch = m.watch := by
  have noted := (Mach.dropNoted_watch (m.takeSeq c u).2 c u (m.takeSeq c u).1 aborted).trans (m.takeSeq_watch c u)
  have aborts (k : Mach) (seq : Nat) : (if 0 < u.placed then k.abortTouched c seq u else k).watch = k.watch := by
    split
    · exact k.abortTouched_watch _ _ _
    · rfl
  have erased (k : Mach) (x : Chan) : (k.setChan c x).watch = k.watch := rfl
  have advanced (k : Mach) (seq : Nat) : (k.advance c seq).watch = k.watch := rfl
  rw [Mach.dropUnit_eq]
  exact (Mach.markHead_watch _ _).trans ((advanced _ _).trans ((Mach.unitEnded_watch _ _ _ _ _ _).trans
    ((aborts _ _).trans ((erased _ _).trans noted))))

theorem Mach.pointAfter_watch (e : LogUnit) (n : Nat) : (m.pointAfter e n).watch = m.watch := by
  unfold Mach.pointAfter
  split
  · rfl
  · dsimp only
    split <;> rfl

theorem Mach.nameUnit_watch (c : Nat) (u : Unit) (e : LogUnit) : (m.nameUnit c u e).watch = m.watch := by
  unfold Mach.nameUnit
  dsimp only
  split
  · exact (Mach.pointAfter_watch _ _ _).trans (m.unitEnded_watch _ _ _ _ _)
  · rfl

theorem Mach.offerUnit_watch (c : Nat) (u : Unit) : (m.offerUnit c u).watch = m.watch := by
  unfold Mach.offerUnit
  split
  · exact m.unitEnded_watch _ _ _ _ _
  · dsimp only
    split
    · exact Mach.markHead_watch _ _
    · split
      · exact m.nameUnit_watch _ _ _
      · split
        · rfl
        · split
          · exact Mach.dropUnit_watch _ _ _ _
          · exact Mach.markHead_watch _ _

/-! #### Pins and tasks of the event hub (R303 to R311) -/

theorem Mach.drive_watch (i : Nat) (level : Bool) (t : TW64) : (m.drive i level t).watch = m.watch := by
  unfold Mach.drive
  split <;> rfl

theorem Mach.showPulses_watch (i : Nat) (t : TW64) : (m.showPulses i t).watch = m.watch := by
  unfold Mach.showPulses
  split
  · rfl
  · dsimp only
    split
    · split
      · exact m.drive_watch _ _ _
      · exact (Mach.drive_watch _ _ _ _).trans (m.drive_watch _ _ _)
    · exact m.drive_watch _ _ _

theorem Mach.pulse_watch (i who : Nat) (t0 t1 : TW64) : (m.pulse i who t0 t1).watch = m.watch := by
  unfold Mach.pulse
  split
  · rfl
  · dsimp only
    split
    · exact Mach.showPulses_watch _ _ _
    · split <;> rfl

theorem Mach.logEvent_watch (t : Nat) (e : Event) : (m.logEvent t e).watch = m.watch := by
  unfold Mach.logEvent
  dsimp only
  split
  · rfl
  · split <;> rfl

theorem Mach.raise_watch (k : Nat) : (m.raise k).watch = m.watch := by
  unfold Mach.raise
  split
  · rfl
  · split
    · rfl
    · split <;> rfl

theorem Mach.act_watch (t : Nat) (e : Event) : (m.act t e).watch = m.watch := by
  unfold Mach.act
  dsimp only
  split
  · exact m.raise_watch _
  · split <;> rfl
  · split
    · exact m.pulse_watch _ _ _ _
    · rfl
  · exact m.logEvent_watch _ _
  · split
    · exact m.sendTo_watch _ _ _ _ _ _ _
    · rfl
  · rfl

theorem Mach.activate_watch (t : Nat) (e : Event) : (m.activate t e).watch = m.watch := Mach.act_watch _ _ _

theorem Mach.endHoldoff_watch (t : Nat) : (m.endHoldoff t).watch = m.watch := by
  unfold Mach.endHoldoff
  split
  · rfl
  · split
    · rfl
    · exact Mach.activate_watch _ _ _

theorem Mach.reach_watch (t : Nat) (e : Event) : (m.reach t e).watch = m.watch := by
  unfold Mach.reach
  dsimp only
  split
  · exact m.endHoldoff_watch t
  · exact (Mach.activate_watch _ _ _).trans (m.endHoldoff_watch t)

theorem Mach.meetTask_watch (es : List Event) (t : Nat) : (Mach.meetTask es t m).watch = m.watch := by
  unfold Mach.meetTask
  split
  · rfl
  · dsimp only
    split
    · exact Mach.reach_watch _ _ _
    · exact Mach.reach_watch _ _ _
    · exact Mach.reach_watch _ _ _
    · rfl

theorem Mach.hubCycle_watch : m.hubCycle.watch = m.watch := by
  have counted (out : List Event) (f : Mach → Event → Mach) (hf : ∀ (k : Mach) (x : Event), (f k x).watch = k.watch) :
      (out.foldl f { m with hub := [] }).watch = m.watch := Mach.foldl_watch _ hf out
  unfold Mach.hubCycle
  dsimp only
  split
  · refine counted _ _ fun k x => ?_
    rfl
  · refine (Mach.each_watch _ (fun t k => k.meetTask_watch _ t) _).trans (counted _ _ fun k x => ?_)
    rfl

/-! #### Verdicts, cut-off frames, squall and the keepalive timer -/

theorem Mach.beginVerdict_watch : m.beginVerdict.watch = m.watch := by
  unfold Mach.beginVerdict
  split
  · rfl
  · dsimp only
    split
    · exact m.sendTo_watch _ _ _ _ _ _ _
    · rfl

theorem Mach.offerFrameEnds_watch : m.offerFrameEnds.watch = m.watch := by
  refine m.each_watch (fun s k => ?_) _
  refine (Mach.foldl_watch (k.setStrm s _) (fun k f => ?_) _).trans rfl
  exact (Mach.offerUnit_watch _ _ _).trans rfl

theorem Mach.portFollow_watch (p : Nat) : (m.portFollow p).watch = m.watch := by
  unfold Mach.portFollow
  dsimp only
  split <;> rfl

theorem Mach.calmFwds_watch : m.calmFwds.watch = m.watch := by
  refine m.foldl_watch (fun k x => ?_) _
  exact Mach.portFollow_watch _ _

theorem Mach.rearm_watch : m.rearm.watch = m.watch := by
  unfold Mach.rearm
  split <;> rfl

theorem Mach.followMsb_watch : m.followMsb.watch = m.watch := by
  unfold Mach.followMsb
  split <;> rfl

/-- LTC counts. -/
theorem Mach.countTick_watch : m.countTick.watch = (m.ltc + 1, m.pair.orphans) := by
  have counted : ({ m with ltc := m.ltc + 1 }).followMsb.beginVerdict.offerFrameEnds.calmFwds.rearm.watch = (m.ltc + 1, m.pair.orphans) := by
    rw [Mach.rearm_watch, Mach.calmFwds_watch, Mach.offerFrameEnds_watch, Mach.beginVerdict_watch, Mach.followMsb_watch]
    rfl
  unfold Mach.countTick
  dsimp only
  split
  · exact (Mach.hubCycle_watch _).trans counted
  · exact counted

/-! #### What leaves, and what is answered -/

/-- What a posted write that leaves changes: the endpoint, the channels and the outputs. -/
theorem Mach.sendOldest_eq : ∃ (x : Endpoint) (y : SMap Chan) (z : List Out), m.sendOldest = { m with ep := x, chans := y, out := z } := by
  unfold Mach.sendOldest
  split
  · exact ⟨_, _, _, rfl⟩
  · split
    · dsimp only
      split
      · split <;> exact ⟨_, _, _, rfl⟩
      · split
        · exact ⟨_, _, _, rfl⟩
        · split
          · exact ⟨_, _, _, rfl⟩
          · split
            · exact ⟨_, _, _, rfl⟩
            · split <;> exact ⟨_, _, _, rfl⟩
    · exact ⟨_, _, _, rfl⟩

/-- What a transmitter changes: its own state and the outputs. -/
def Mach.sends (m n : Mach) : Prop :=
  ∃ (x : SMap PortTx) (y : SMap LaneTx) (z : List Out), n = { m with txPorts := x, txLanes := y, out := z }

theorem Mach.sends.refl (m : Mach) : m.sends m := ⟨_, _, _, rfl⟩

theorem Mach.sends.trans {m n l : Mach} (h : m.sends n) (h' : n.sends l) : m.sends l := by
  obtain ⟨x, y, z, rfl⟩ := h
  obtain ⟨x', y', z', rfl⟩ := h'
  exact ⟨x', y', z', rfl⟩

theorem Mach.sends.each {f : Nat → Mach → Mach} (hf : ∀ (j : Nat) (k : Mach), k.sends (f j k)) (l : List Nat) (m : Mach) :
    m.sends (m.each l f) := by
  unfold Mach.each
  induction l generalizing m with
  | nil => exact .refl m
  | cons j l ih => exact (hf j m).trans (ih _)

theorem Mach.sendCodeword_sends (l : Nat) (b : List TxBlock) : m.sends (m.sendCodeword l b) := by
  unfold Mach.sendCodeword
  dsimp only
  split <;> exact ⟨_, _, _, rfl⟩

theorem Mach.sendPort_sends (p : Nat) : m.sends (Mach.sendPort p m) := by
  have counted (x : PortTx) : m.sends (m.setTxPort p x) := ⟨_, _, _, rfl⟩
  unfold Mach.sendPort
  dsimp only
  split
  · exact .refl m
  · exact (counted _).trans (.each (fun i k => k.sendCodeword_sends _ _) _ _)

theorem Mach.transmit_sends : m.sends m.transmit := by
  unfold Mach.transmit
  split
  · exact .each (fun p k => k.sendPort_sends p) _ m
  · exact .refl m

theorem Mach.mbWritten_watch (r : DictReq) : (m.mbWritten r).watch = m.watch := by
  have shown (i : Option Info) : (m.mbShow i).watch = m.watch := by
    unfold Mach.mbShow Mach.watch
    split <;> rfl
  obtain ⟨x, y, h⟩ := Mach.mbEnd_eq (m.mbShow (m.infoOf r.index r.sub)) r.tag 0
  have kept (k : Mach) : ({ k with ep := x, mb := y }).watch = k.watch := rfl
  rw [Mach.mbWritten, h]
  exact (kept _).trans (shown _)

theorem Mach.gwWritten_watch (r : DictReq) : (m.gwWritten r).watch = m.watch := by
  have shown (i : Option Info) : (m.gwShow i).watch = m.watch := by
    unfold Mach.gwShow Mach.watch
    split <;> rfl
  exact shown _

theorem Mach.respond_watch (node id : Nat) (b : Bytes) : (m.respond node id b).watch = m.watch := Mach.sendTo_watch _ _ _ _ _ _ _ _

theorem Mach.answerOthers_watch : m.answerOthers.watch = m.watch := by
  have gateway : (match m.gw.run with | some r => if r.wait.any m.wideOver then m.gwWritten r else m | none => m).watch = m.watch := by
    split
    · split
      · exact m.gwWritten_watch _
      · rfl
    · rfl
  unfold Mach.answerOthers
  refine (Mach.foldl_watch _ (fun k w => ?_) _).trans ((Mach.foldl_watch _ (fun k w => ?_) _).trans gateway)
  · exact k.respond_watch _ _ _
  · rfl

theorem Mach.answerWides_watch : m.answerWides.watch = m.watch := by
  rw [Mach.answerWides_eq, Mach.answerOthers_watch]
  split
  · split
    · exact m.mbWritten_watch _
    · rfl
  · rfl

end

/-! ### A tick for which nothing waits -/

section
variable {m : Mach}

theorem Mach.hubCycle_of_quiet (h : m.hub = []) : m.hubCycle = m := by
  have same : { m with hub := [] } = m := by rw [← h]
  simp [Mach.hubCycle, h, channelsOf, same]

/-- The tick counter and the time base are all that a tick moves for which nothing waits. -/
theorem Mach.countTick_of_quiet (hub : m.hub = []) (hv : m.verdicts = []) (hc : ∀ x ∈ m.streams, x.2.cutFrames = [])
    (hf : ∀ x ∈ m.fwds, x.2.rx.squall = false) (hp : m.pair.expired = false) :
    ∃ (l : BitVec 64) (x : TimeBase), m.countTick = { m with ltc := l, time := x } := by
  have cut (k : Mach) (h : k.streams = m.streams) : k.offerFrameEnds = k := by
    have none : (k.streams.filter fun x => !x.2.cutFrames.isEmpty) = [] := List.filter_eq_nil_iff.2 fun x hx => by simp [hc x (h ▸ hx)]
    rw [Mach.offerFrameEnds, none]
    rfl
  have calm (k : Mach) (h : k.fwds = m.fwds) : k.calmFwds = k := by
    have none : (k.fwds.filter fun x => x.2.rx.squall && decide (x.2.refusedAt + k.rd E.SQUALL_CALM * 1000 ≤ k.ns)) = [] :=
      List.filter_eq_nil_iff.2 fun x hx => by simp [hf x (h ▸ hx)]
    rw [Mach.calmFwds, none]
    rfl
  have verdict (k : Mach) (h : k.verdicts = []) : k.beginVerdict = k := by simp only [Mach.beginVerdict, h]
  have armed (k : Mach) (h : k.pair.expired = false) : k.rearm = k := if_neg fun c => Bool.noConfusion (h.symm.trans c.1)
  have timed : ∃ x : TimeBase, { m with ltc := m.ltc + 1 }.followMsb = { m with ltc := m.ltc + 1, time := x } := by
    unfold Mach.followMsb
    split <;> exact ⟨_, rfl⟩
  obtain ⟨x, hx⟩ := timed
  have still (k : Mach) (hk : k = { m with ltc := m.ltc + 1, time := x }) : k.beginVerdict.offerFrameEnds.calmFwds.rearm = k := by
    rw [verdict k (by rw [hk]; exact hv), cut k (by rw [hk]), calm k (by rw [hk]), armed k (by rw [hk]; exact hp)]
  refine ⟨m.ltc + 1, x, ?_⟩
  unfold Mach.countTick
  dsimp only
  rw [still _ hx]
  split
  · exact (Mach.hubCycle_of_quiet (by rw [hx]; exact hub)).trans hx
  · exact hx

/-- Nothing is answered where no request of any path waits. -/
theorem Mach.answerWides_of_quiet (hr : m.mb.run = none) (hg : m.gw.run = none) (hc : m.can.waits = []) (hs : m.server.waiting = []) :
    m.answerWides = m := by
  simp only [Mach.answerWides_eq, hr]
  exact Mach.answerOthers_of_quiet hg hc hs

/-- What leaves at a tick changes the endpoint, the channels, the transmitters and the outputs. -/
theorem Mach.sendOldest_transmit_eq (m : Mach) :
    ∃ (a : Endpoint) (b : SMap Chan) (x : SMap PortTx) (y : SMap LaneTx) (z : List Out),
      m.sendOldest.transmit = { m with ep := a, chans := b, txPorts := x, txLanes := y, out := z } := by
  obtain ⟨a, b, o, hsent⟩ := Mach.sendOldest_eq m
  obtain ⟨x, y, z, h⟩ := Mach.transmit_sends m.sendOldest
  exact ⟨a, b, x, y, z, by rw [h, hsent]⟩

theorem Mach.tick_watch (m : Mach) : m.tick.watch = (m.ltc + 1, m.pair.orphans) := by
  obtain ⟨a, b, x, y, z, hn⟩ := m.sendOldest_transmit_eq
  rw [Mach.tick, Mach.countTick_watch, hn]

theorem Mach.tick_of_quiet (hub : m.hub = []) (hv : m.verdicts = []) (hc : ∀ x ∈ m.streams, x.2.cutFrames = [])
    (hf : ∀ x ∈ m.fwds, x.2.rx.squall = false) (hp : m.pair.expired = false) :
    ∃ (a : Endpoint) (b : SMap Chan) (x : SMap PortTx) (y : SMap LaneTx) (z : List Out) (l : BitVec 64) (u : TimeBase),
      m.tick = { m with ep := a, chans := b, txPorts := x, txLanes := y, out := z, ltc := l, time := u } := by
  obtain ⟨a, b, x, y, z, hn⟩ := m.sendOldest_transmit_eq
  obtain ⟨l, u, hcount⟩ := Mach.countTick_of_quiet (m := m.sendOldest.transmit) (by rw [hn]; exact hub) (by rw [hn]; exact hv)
    (by rw [hn]; exact hc) (by rw [hn]; exact hf) (by rw [hn]; exact hp)
  exact ⟨a, b, x, y, z, l, u, by rw [Mach.tick, hcount, hn]⟩

end

/-- Settles O2: with no write left to this module alone a tick is `Mach.tick`, and each of its parts leaves what it does not name. -/
theorem emptyQueueIsATick : Obligations.EmptyQueueIsATick := by
  refine fun s hq => ⟨fun hoff => ?_, fun hon horphans => ⟨s.m.tick.answerWides, ?_, rfl, ?_, fun hub hv hc hf hp hr hg hcan hs => ?_⟩⟩
  · rw [step_of_idle hq, State.idle, if_neg (by rw [hoff]; exact Bool.false_ne_true)]
  · have none : s.m.tick.pair.orphans.isEmpty = true := by rw [(Mach.of_watch s.m.tick_watch).2, horphans]; rfl
    rw [step_of_idle hq, State.idle, if_pos hon, State.settleWides]
    exact congrArg Host.Outcome.next (by dsimp only; rw [if_pos none])
  · exact (Mach.of_watch ((Mach.answerWides_watch _).trans s.m.tick_watch)).1
  · obtain ⟨a, b, x, y, z, l, u, h⟩ := Mach.tick_of_quiet hub hv hc hf hp
    have quiet : s.m.tick.answerWides = s.m.tick :=
      Mach.answerWides_of_quiet (by rw [h]; exact hr) (by rw [h]; exact hg) (by rw [h]; exact hcan) (by rw [h]; exact hs)
    rw [quiet, h]
    exact ⟨rfl, rfl, rfl, rfl, rfl, rfl, rfl⟩

end Sys2Proof.Machine

/-! What commands leave alone: each changes the records of its frame, and of the entries those listed. -/

namespace Sys2Proof.Machine

/-! ### Frames -/

/-- Every entry but those listed stands in the dictionary `b` as in `a`. -/
def entriesStay (l : List (Entry × Nat)) (a b : SMap Val) : Prop :=
  ∀ (d : Val) (j : Nat), j ∉ l.map (fun x => x.1.key x.2) → SMap.get d b j = SMap.get d a j

theorem entriesStay.refl (l : List (Entry × Nat)) (a : SMap Val) : entriesStay l a a := fun _ _ _ => rfl

/-- The records, beside the entries, that a command may change: `upd m n` is `m` with those of `n` and with its entries. -/
structure Frame where
  upd : Mach → Mach → Mach
  self : ∀ m, upd m m = m
  twice : ∀ m n k, upd (upd m n) k = upd m k
  dict : ∀ (m : Mach) (d : SMap Val), { m with dict := d } = upd m { m with dict := d }

/-- `n` is `m` but for the records of the frame, and every entry but those listed stands in it as in `m`; with none listed, so does the
dictionary. -/
def Frame.keeps (F : Frame) (l : List (Entry × Nat)) (m n : Mach) : Prop :=
  n = F.upd m n ∧ entriesStay l m.dict n.dict ∧ (l = [] → n.dict = m.dict)

section
variable {F : Frame} {l : List (Entry × Nat)} {m n : Mach}

theorem Frame.keeps.refl (m : Mach) : F.keeps l m m := ⟨(F.self m).symm, .refl _ _, fun _ => rfl⟩

theorem Frame.keeps.trans {k : Mach} (h : F.keeps l m n) (h' : F.keeps l n k) : F.keeps l m k := by
  obtain ⟨hrec, hstay, hdict⟩ := h
  obtain ⟨hrec', hstay', hdict'⟩ := h'
  refine ⟨?_, fun d j hj => (hstay' d j hj).trans (hstay d j hj), fun hl => (hdict' hl).trans (hdict hl)⟩
  exact hrec'.trans ((congrArg (fun x => F.upd x k) hrec).trans (F.twice m n k))

/-- A change of records of the frame. -/
theorem Frame.keeps.next {k : Mach} (h : F.keeps l m n) (hk : k = F.upd n k) (hd : k.dict = n.dict) : F.keeps l m k :=
  h.trans ⟨hk, hd ▸ .refl _ _, fun _ => hd⟩

theorem Frame.keeps.ite {p : Prop} [Decidable p] {a b : Mach} (ha : F.keeps l m a) (hb : F.keeps l m b) : F.keeps l m (if p then a else b) := by
  split
  · exact ha
  · exact hb

theorem Frame.keeps.when {b : Bool} {f : Mach → Mach} (h : F.keeps l m (f m)) : F.keeps l m (m.when b f) := .ite h (.refl m)

theorem Frame.keeps.foldl {α : Type} {f : Mach → α → Mach} (xs : List α) (hf : ∀ k, ∀ x ∈ xs, F.keeps l k (f k x)) (m : Mach) :
    F.keeps l m (xs.foldl f m) := by
  induction xs generalizing m with
  | nil => exact .refl m
  | cons x xs ih => exact (hf m x List.mem_cons_self).trans (ih (fun k y hy => hf k y (List.mem_cons_of_mem x hy)) _)

theorem Frame.keeps.each {f : Nat → Mach → Mach} {xs : List Nat} (hf : ∀ j ∈ xs, ∀ k, F.keeps l k (f j k)) (m : Mach) :
    F.keeps l m (m.each xs f) := .foldl xs (fun k j hj => hf j hj k) m

section
variable {e : Entry} {k : Nat}

/-- A listed entry may be put. -/
theorem Frame.keeps.setVal (h : F.keeps l m n) {v : Val} (hm : (e, k) ∈ l) :
    F.keeps l m (n.setVal e k v) :=
  h.trans ⟨F.dict n _, fun d _ hj => SMap.get_set_other d _ _ (fun c => hj (List.mem_map.2 ⟨(e, k), hm, c.symm⟩)) _,
    fun hl => absurd (hl ▸ hm) List.not_mem_nil⟩

theorem Frame.keeps.wr (h : F.keeps l m n) {v : Nat} (hm : (e, k) ∈ l) :
    F.keeps l m (n.wr e k v) := h.setVal hm

theorem Frame.keeps.inc (h : F.keeps l m n) {v : Nat} (hm : (e, k) ∈ l) :
    F.keeps l m (n.inc e k v) := h.setVal hm

theorem Frame.keeps.wrI (h : F.keeps l m n) {v : Int} (hm : (e, k) ∈ l) :
    F.keeps l m (n.wrI e k v) := h.setVal hm

theorem Frame.keeps.wrB (h : F.keeps l m n) {v : Bytes} (hm : (e, k) ∈ l) :
    F.keeps l m (n.wrB e k v) := h.setVal hm

theorem Frame.keeps.peak (h : F.keeps l m n) {v : Nat} (hm : (e, k) ∈ l) :
    F.keeps l m (n.peak e k v) := by
  unfold Mach.peak
  split
  · exact h.wr hm
  · exact h

end

theorem Frame.keeps.emit (h : F.keeps l m n) {o : Out} (hF : ∀ (n : Mach) (o : Out), n.emit o = F.upd n (n.emit o)) :
    F.keeps l m (n.emit o) := h.next (hF n o) rfl

theorem Frame.keeps.almanac (h : F.keeps l m n) {a : Almanac}
    (hA : ∀ (n : Mach) (a : Almanac), { n with almanac := a } = F.upd n { n with almanac := a }) :
    F.keeps l m { n with almanac := a } := h.next (hA n a) rfl

theorem Frame.keeps.record (h : F.keeps l m n) {kind : Nat} {args : List Nat} (hm : (E.LOG_USED, 0) ∈ l)
   
    (hA : ∀ (n : Mach) (a : Almanac), { n with almanac := a } = F.upd n { n with almanac := a }) :
    F.keeps l m (n.record kind args) := (h.almanac hA).wr hm

theorem Frame.keeps.advise (h : F.keeps l m n) {k : Nat} (hm : (E.PART_ADVICE, k) ∈ l)
    : F.keeps l m (n.advise k) := by
  unfold Mach.advise
  exact .ite h (.ite (h.wr hm) (.ite (h.wr hm) (.ite (h.wr hm) h)))

theorem Frame.keeps.setLane (h : F.keeps l m n) {j : Nat} {x : Lane}
    (hF : ∀ (n : Mach) (x : Lane), n.setLane j x = F.upd n (n.setLane j x)) : F.keeps l m (n.setLane j x) :=
  h.next (hF n x) rfl

theorem Frame.keeps.setPort (h : F.keeps l m n) {j : Nat} {x : Port}
    (hF : ∀ (n : Mach) (x : Port), n.setPort j x = F.upd n (n.setPort j x)) : F.keeps l m (n.setPort j x) :=
  h.next (hF n x) rfl

theorem Frame.keeps.setStrm (h : F.keeps l m n) {j : Nat} {x : Stream}
    (hF : ∀ (n : Mach) (x : Stream), n.setStrm j x = F.upd n (n.setStrm j x)) : F.keeps l m (n.setStrm j x) :=
  h.next (hF n x) rfl

theorem Frame.keeps.setPlaner (h : F.keeps l m n) {j : Nat} {x : Planer}
    (hF : ∀ (n : Mach) (x : Planer), n.setPlaner j x = F.upd n (n.setPlaner j x)) :
    F.keeps l m (n.setPlaner j x) := h.next (hF n x) rfl

theorem Frame.keeps.setPosc (h : F.keeps l m n) {j : Nat} {x : PosChan}
    (hF : ∀ (n : Mach) (x : PosChan), n.setPosc j x = F.upd n (n.setPosc j x)) : F.keeps l m (n.setPosc j x) :=
  h.next (hF n x) rfl

end

/-- What a command on the module leaves alone. -/
theorem framed (F : Frame) {l : List (Entry × Nat)} {c : Instr} {s t : State} (e : State → Host.Outcome State Fault Refusal) {ok : Bool}
    {f : Mach → Mach} (hc : exec c s = e s) (he : e s = s.onMach ok f) (h : exec c s = .next t) (hf : F.keeps l s.m (f s.m)) :
    t = { s with m := F.upd s.m t.m } ∧ s.m.entriesKept t.m l := by
  rw [hc, he] at h
  obtain ⟨-, rfl⟩ := State.onMach_next h
  obtain ⟨hrec, hstay, -⟩ := hf
  exact ⟨congrArg (fun m => { s with m := m }) hrec, hstay⟩

/-- A command that puts no entry leaves the dictionary alone too. -/
theorem framedBare (F : Frame) {c : Instr} {s t : State} (e : State → Host.Outcome State Fault Refusal) {ok : Bool}
    {f : Mach → Mach} (hc : exec c s = e s) (he : e s = s.onMach ok f) (h : exec c s = .next t) (hf : F.keeps [] s.m (f s.m)) :
    t = { s with m := { F.upd s.m t.m with dict := s.m.dict } } := by
  rw [hc, he] at h
  obtain ⟨-, rfl⟩ := State.onMach_next h
  obtain ⟨hrec, -, hdict⟩ := hf
  have hm : f s.m = { F.upd s.m (f s.m) with dict := s.m.dict } := by rw [← hrec, ← hdict rfl]
  exact congrArg (fun m => { s with m := m }) hm

/-! ### The frames of the families -/

/-- The entries alone. -/
def Frame.entries : Frame := ⟨fun m n => { m with dict := n.dict }, fun _ => rfl, fun _ _ _ => rfl, fun _ _ => rfl⟩

/-- Quads, lanes, transmitters and free values. -/
def Frame.quads : Frame :=
  ⟨fun m n => { m with quads := n.quads, lanes := n.lanes, txLanes := n.txLanes, txPorts := n.txPorts, free := n.free, dict := n.dict },
    fun _ => rfl, fun _ _ _ => rfl, fun _ _ => rfl⟩

/-- Lanes. -/
def Frame.lanes : Frame := ⟨fun m n => { m with lanes := n.lanes, dict := n.dict }, fun _ => rfl, fun _ _ _ => rfl, fun _ _ => rfl⟩

/-- What a codeword reaches: lanes, the transmitters' loops, outputs and entries. -/
def Frame.codewords : Frame :=
  ⟨fun m n => { m with lanes := n.lanes, txLanes := n.txLanes, out := n.out, dict := n.dict },
    fun _ => rfl, fun _ _ _ => rfl, fun _ _ => rfl⟩

/-- What a measurement of an eye reaches: lanes, the Almanac and entries. -/
def Frame.eyes : Frame :=
  ⟨fun m n => { m with lanes := n.lanes, almanac := n.almanac, dict := n.dict }, fun _ => rfl, fun _ _ _ => rfl, fun _ _ => rfl⟩

/-- What a centred FIFO reaches: lanes, free values and entries. -/
def Frame.fifos : Frame :=
  ⟨fun m n => { m with lanes := n.lanes, free := n.free, dict := n.dict }, fun _ => rfl, fun _ _ _ => rfl, fun _ _ => rfl⟩

/-- What a camera port's acknowledgements reach: ports, held triggers and entries. -/
def Frame.ports : Frame := ⟨fun m n => { m with ports := n.ports, dict := n.dict }, fun _ => rfl, fun _ _ _ => rfl, fun _ _ => rfl⟩

/-- See `Frame.ports`. -/
def Frame.triggers : Frame :=
  ⟨fun m n => { m with ports := n.ports, held := n.held, dict := n.dict }, fun _ => rfl, fun _ _ _ => rfl, fun _ _ => rfl⟩

/-- Streams. -/
def Frame.streams : Frame := ⟨fun m n => { m with streams := n.streams, dict := n.dict }, fun _ => rfl, fun _ _ _ => rfl, fun _ _ => rfl⟩

/-- Planers. -/
def Frame.planers : Frame := ⟨fun m n => { m with planers := n.planers, dict := n.dict }, fun _ => rfl, fun _ _ _ => rfl, fun _ _ => rfl⟩

/-- Position channels, outputs and entries. -/
def Frame.polls : Frame :=
  ⟨fun m n => { m with pos := n.pos, out := n.out, dict := n.dict }, fun _ => rfl, fun _ _ _ => rfl, fun _ _ => rfl⟩

/-- Position channels. -/
def Frame.positions : Frame := ⟨fun m n => { m with pos := n.pos, dict := n.dict }, fun _ => rfl, fun _ _ _ => rfl, fun _ _ => rfl⟩

/-- Pins. -/
def Frame.pins : Frame := ⟨fun m n => { m with pins := n.pins, dict := n.dict }, fun _ => rfl, fun _ _ _ => rfl, fun _ _ => rfl⟩

/-- The time base and outputs. -/
def Frame.times : Frame :=
  ⟨fun m n => { m with time := n.time, out := n.out, dict := n.dict }, fun _ => rfl, fun _ _ _ => rfl, fun _ _ => rfl⟩

/-- The endpoint and outputs. -/
def Frame.endpoint : Frame :=
  ⟨fun m n => { m with ep := n.ep, out := n.out, dict := n.dict }, fun _ => rfl, fun _ _ _ => rfl, fun _ _ => rfl⟩

/-! ### The reference, quads and lanes -/

theorem refFrame {s t : State} {c : Instr} (hc : c ∈ [Instr.refSwitchover, .refHoldover, .refValidReturn true true, .refValidReturn true false,
      .refValidReturn false true, .refValidReturn false false]) (h : exec c s = .next t) :
    t = { s with m := { s.m with dict := t.m.dict } } ∧
      s.m.entriesKept t.m [(E.REF_VALID, 0), (E.REF_SELECTED, 0), (E.REF_SWITCHES, 0), (E.REF_HOLDOVER, 0)] := by
  have returns (a b : Bool) (h : exec (.refValidReturn a b) s = .next t) := framed .entries
    (l := [(E.REF_VALID, 0), (E.REF_SELECTED, 0), (E.REF_SWITCHES, 0), (E.REF_HOLDOVER, 0)]) (execRefValidReturn a b) rfl rfl h (by
    dsimp only
    split
    · exact .wr (.refl _) (by simp)
    · split
      · exact .wr (.wr (.inc (.wr (.refl _) (by simp)) (by simp)) (by simp)) (by simp)
      · exact .wr (.wr (.wr (.refl _) (by simp)) (by simp)) (by simp))
  simp only [List.mem_cons, List.not_mem_nil, or_false] at hc
  rcases hc with rfl | rfl | rfl | rfl | rfl | rfl
  · refine framed .entries execRefSwitchover rfl rfl h (.when ?_)
    exact .inc (.wr (.wr (.refl _) (by simp)) (by simp)) (by simp)
  · refine framed .entries execRefHoldover rfl rfl h ?_
    exact .wr (.wr (.wr (.refl _) (by simp)) (by simp)) (by simp)
  · exact returns true true h
  · exact returns true false h
  · exact returns false true h
  · exact returns false false h

theorem Mach.startLoop_keeps (m : Mach) (l : Nat) : Frame.quads.keeps [] m (m.startLoop l) := by
  have sent (x : LaneTx) : Frame.quads.keeps [] m (m.setTxLane l x) := .next (.refl m) rfl rfl
  have lane (x : LaneTx) (y : Lane) : Frame.quads.keeps [] m ((m.setTxLane l x).setLane l y) := .setLane (sent x) (fun _ _ => rfl)
  have taken (k : Mach) (w : Nat) : Frame.quads.keeps [] k (k.take w).2 := .next (.refl k) rfl rfl
  unfold Mach.startLoop Mach.centreFifo
  dsimp only
  split
  · exact lane _ _
  · exact .setLane ((lane _ _).trans (taken _ _)) (fun _ _ => rfl)
  · exact .setLane ((lane _ _).trans (taken _ _)) (fun _ _ => rfl)

theorem quadFrame {s t : State} {q : Nat} (h : exec (.quadPllLock q) s = .next t) :
    t = { s with m := { s.m with quads := t.m.quads, lanes := t.m.lanes, txLanes := t.m.txLanes, txPorts := t.m.txPorts, free := t.m.free } } := by
  refine framedBare .quads (execQuadPllLock q) rfl rfl h (.when ?_)
  have locked (k : Mach) (x : Quad) : Frame.quads.keeps [] k (k.setQuad q x) := .next (.refl k) rfl rfl
  have started (k : Mach) (l : Nat) (x : PortTx) (y : LaneTx) : Frame.quads.keeps [] k ((k.setTxPort l x).setTxLane l y) := .next (.refl k) rfl rfl
  exact (locked _ _).trans (.each (fun l _ k => (started k l {} {}).trans (Mach.startLoop_keeps _ l)) _)

theorem laneFrame {s t : State} {l : Nat} (h : exec (.searchPassWait l) s = .next t ∨ exec (.eyeMeasure l) s = .next t) :
    t = { s with m := { s.m with lanes := t.m.lanes } } := by
  rcases h with h | h
  · exact framedBare .lanes (execSearchPassWait l) rfl rfl h (.when (.setLane (.refl _) (fun _ _ => rfl)))
  · exact framedBare .lanes (execEyeMeasure l) rfl rfl h (.when (.setLane (.refl _) (fun _ _ => rfl)))

/-- The entries in which a lane's decoder counts. -/
def decoderEntries (l : Nat) : List (Entry × Nat) := [(E.CW_CORRECTED, l), (E.SYM_CORRECTED, l), (E.CW_UNCORRECTABLE, l)]

theorem Mach.decode_keeps (m : Mach) (l : Nat) (c : List Nat) : Frame.codewords.keeps (decoderEntries l) m (m.decode l c) := by
  have passed (damaged : Bool) (msg : List Nat) : Frame.codewords.keeps (decoderEntries l) m (m.passBlocks l damaged msg) :=
    .setLane (.refl m) (fun _ _ => rfl)
  unfold Mach.decode
  split
  · refine .ite (.setLane (passed _ _) (fun _ _ => rfl)) ?_
    exact .inc (.inc (.setLane (passed _ _) (fun _ _ => rfl)) (by simp [decoderEntries])) (by simp [decoderEntries])
  · exact .inc (.setLane (passed _ _) (fun _ _ => rfl)) (by simp [decoderEntries])

theorem Mach.codewordIn_keeps (m : Mach) (l : Nat) (g : List Nat) : Frame.codewords.keeps (decoderEntries l) m (m.codewordIn l g) := by
  unfold Mach.codewordIn
  dsimp only
  refine .ite ?_ (.ite ?_ ?_)
  · exact .trans (.setLane (.refl m) (fun _ _ => rfl)) (Mach.decode_keeps _ l _)
  · exact .setLane (.setLane (.refl m) (fun _ _ => rfl)) (fun _ _ => rfl)
  · exact .trans (.setLane (.refl m) (fun _ _ => rfl)) (.setLane (.refl _) (fun _ _ => rfl))

theorem codewordFrame {s t : State} {l : Nat} {levels : List Nat} (h : exec (.codewordReceive l levels) s = .next t) :
    t = { s with m := { s.m with lanes := t.m.lanes, txLanes := t.m.txLanes, out := t.m.out, dict := t.m.dict } } ∧
      s.m.entriesKept t.m (decoderEntries l) := by
  refine framed .codewords (execCodewordReceive l levels) rfl rfl h (.when ?_)
  split
  · refine .trans ?_ (Mach.codewordIn_keeps _ l _)
    exact .ite (.emit (.setLane (.refl _) (fun _ _ => rfl)) (fun _ _ => rfl)) (.next (.refl _) rfl rfl)
  · exact .refl _

theorem eyeFrame {s t : State} {l up mid low width : Nat} (h : exec (.eyeMeasureDone l up mid low width) s = .next t) :
    t = { s with m := { s.m with lanes := t.m.lanes, almanac := t.m.almanac, dict := t.m.dict } } ∧
      s.m.entriesKept t.m [(E.EYE_LAST, l), (E.LOG_USED, 0), (E.PART_ADVICE, l / 4)] := by
  refine framed .eyes (execEyeMeasureDone l up mid low width) rfl rfl h (.when ?_)
  exact .advise (.almanac (.record (.wr (.setLane (.refl _) (fun _ _ => rfl)) (by simp)) (by simp) (fun _ _ => rfl)) (fun _ _ => rfl)) (by simp)

theorem fifoFrame {s t : State} {l : Nat} (h : exec (.loopFifoRecentre l) s = .next t) :
    t = { s with m := { s.m with lanes := t.m.lanes, free := t.m.free, dict := t.m.dict } } ∧ s.m.entriesKept t.m [(E.LOCK_LOSSES, l)] := by
  refine framed .fifos (execLoopFifoRecentre l) rfl rfl h (.when ?_)
  have taken (k : Mach) (w : Nat) : Frame.fifos.keeps [(E.LOCK_LOSSES, l)] k (k.take w).2 := .next (.refl k) rfl rfl
  exact .inc (.setLane (taken _ _) (fun _ _ => rfl)) (by simp)

/-! ### Camera ports and streams -/

theorem beaconFrame {s t : State} {p bid : Nat} (h : exec (.beaconAckTimeout p bid) s = .next t) :
    t = { s with m := { s.m with ports := t.m.ports, dict := t.m.dict } } ∧ s.m.entriesKept t.m [(E.BEACON_MISSES, p)] := by
  refine framed .ports (execBeaconAckTimeout p bid) rfl rfl h ?_
  dsimp only
  split
  · exact .refl _
  · have missed (x : Port) : Frame.ports.keeps [(E.BEACON_MISSES, p)] s.m ((s.m.inc E.BEACON_MISSES p).setPort p x) :=
      .setPort (.inc (.refl _) (by simp)) (fun _ _ => rfl)
    exact .when (.ite (.setPort (.setPort (missed _) (fun _ _ => rfl)) (fun _ _ => rfl)) (missed _))

theorem triggerFrame {s t : State} {p tid : Nat} (h : exec (.triggerAckTimeout p tid) s = .next t) :
    t = { s with m := { s.m with ports := t.m.ports, held := t.m.held, dict := t.m.dict } } ∧
      s.m.entriesKept t.m ((E.TRIG_RESENDS, p) :: (List.range 32).map fun k => (E.TRIG_LOST, k)) := by
  refine framed .triggers (execTriggerAckTimeout p tid) rfl rfl h ?_
  dsimp only
  split
  · exact .refl _
  · next g _ =>
    have held (k : Mach) (x : Port) (y : List HeldTrig) : Frame.triggers.keeps ((E.TRIG_RESENDS, p) :: (List.range 32).map fun k => (E.TRIG_LOST, k))
      k { k.setPort p x with held := y } := .next (.refl k) rfl rfl
    refine .ite (.ite (.setPort (.refl _) (fun _ _ => rfl)) (held _ _ _)) (.ite ?_ ?_)
    · exact .setPort (.inc (.setPort (.refl _) (fun _ _ => rfl)) (by simp)) (fun _ _ => rfl)
    · split
      · next hg =>
        exact .inc (.setPort (.refl _) (fun _ _ => rfl)) (List.mem_cons_of_mem _ (List.mem_map.2 ⟨g.mg, List.mem_range.2 hg, rfl⟩))
      · exact .setPort (.refl _) (fun _ _ => rfl)

theorem absentFrame {s t : State} {k : Nat} (h : exec (.streamAbsent k) s = .next t) :
    t = { s with m := { s.m with streams := t.m.streams, dict := t.m.dict } } ∧ s.m.entriesKept t.m [(E.POLICE_STATE, k)] := by
  refine framed .streams (execStreamAbsent k) rfl rfl h (.when ?_)
  exact .wr (.setStrm (.refl _) (fun _ _ => rfl)) (by simp)

theorem stampFrame {s t : State} {k f l : Nat} (h : exec (.posStampTimeout k f l) s = .next t) :
    t = { s with m := { s.m with streams := t.m.streams } } := by
  refine framedBare .streams (execPosStampTimeout k f l) rfl rfl h ?_
  exact .setStrm (.refl _) (fun _ _ => rfl)

theorem digestFrame {s t : State} {k f l : Nat} (h : exec (.digestWaitTimeout k f l) s = .next t) :
    t = { s with m := { s.m with streams := t.m.streams, dict := t.m.dict } } ∧ s.m.entriesKept t.m [(E.NOT_COMPARED, 0)] := by
  refine framed .streams (execDigestWaitTimeout k f l) rfl rfl h ?_
  split
  · exact .refl _
  · exact .when (.inc (.setStrm (.refl _) (fun _ _ => rfl)) (by simp))

/-! ### Planers, position channels and pins -/

theorem replayFrame {s t : State} {n : Nat} (h : exec (.replayWindow n) s = .next t ∨ exec (.replaySliceEnd n) s = .next t) :
    t = { s with m := { s.m with planers := t.m.planers, dict := t.m.dict } } ∧
      s.m.entriesKept t.m [(E.PLANER_STATE, n), (E.SLICES_TAKEN, n)] := by
  rcases h with h | h
  · refine framed .planers (execReplayWindow n) rfl rfl h (.when ?_)
    exact .inc (.wr (.setPlaner (.refl _) (fun _ _ => rfl)) (by simp)) (by simp)
  · refine framed .planers (execReplaySliceEnd n) rfl rfl h (.when ?_)
    exact .wr (.setPlaner (.refl _) (fun _ _ => rfl)) (by simp)

theorem clockGateFrame {s t : State} {n : Nat} (h : exec (.planerClockGate n) s = .next t) :
    t = { s with m := { s.m with planers := t.m.planers } } := by
  refine framedBare .planers (execPlanerClockGate n) rfl rfl h (.when ?_)
  exact .setPlaner (.refl _) (fun _ _ => rfl)

theorem ssiPollFrame {s t : State} {n : Nat} {u : TW64} (h : exec (.ssiPoll n u) s = .next t) :
    t = { s with m := { s.m with pos := t.m.pos, out := t.m.out, dict := t.m.dict } } ∧
      s.m.entriesKept t.m [(E.POS_STATUS, n), (E.SSI_ERRORS, n)] := by
  refine framed .polls (execSsiPoll n u) rfl rfl h (.when ?_)
  have rejected (k : Mach) (jump : Bool) : Frame.polls.keeps [(E.POS_STATUS, n), (E.SSI_ERRORS, n)] k (k.ssiReject n jump) :=
    .setPosc (.wr (.inc (.refl k) (by simp)) (by simp)) (fun _ _ => rfl)
  dsimp only
  refine .trans (.setPosc (.when (rejected _ _)) (fun _ _ => rfl)) (.when ?_)
  exact .emit (.refl _) (fun _ _ => rfl)

theorem positionFrame {s t : State} {n : Nat}
    (h : exec (.ssiLost n) s = .next t ∨ exec (.gateEnd n) s = .next t ∨ exec (.standstill n) s = .next t) :
    t = { s with m := { s.m with pos := t.m.pos, dict := t.m.dict } } ∧ s.m.entriesKept t.m [(E.POS_STATUS, n), (E.SPEED, n)] := by
  rcases h with h | h | h
  · refine framed .positions (execSsiLost n) rfl rfl h (.when ?_)
    exact .wrI (.wr (.refl _) (by simp)) (by simp)
  · refine framed .positions (execGateEnd n) rfl rfl h (.when ?_)
    dsimp only
    have begun (x : PosChan) : Frame.positions.keeps [(E.POS_STATUS, n), (E.SPEED, n)] s.m (s.m.setPosc n x) := .setPosc (.refl _) (fun _ _ => rfl)
    refine .ite (.ite (.setPosc (begun _) (fun _ _ => rfl)) (.ite ?_ (.wrI (begun _) (by simp)))) (.ite ?_ (begun _))
    · exact .wr (.wrI (begun _) (by simp)) (by simp)
    · exact .setPosc (.wr (begun _) (by simp)) (fun _ _ => rfl)
  · refine framed .positions (execStandstill n) rfl rfl h (.when ?_)
    dsimp only
    refine .setPosc (.ite ?_ (.wrI (.wr (.refl _) (by simp)) (by simp))) (fun _ _ => rfl)
    exact .wr (.wrI (.wr (.refl _) (by simp)) (by simp)) (by simp)

theorem pinFrame {s t : State} {i : Nat} (h : exec (.pinGenWindowEnd i) s = .next t) : t = { s with m := { s.m with pins := t.m.pins } } := by
  have marked (k : Mach) (x : Pin) : Frame.pins.keeps [] k (k.setPin i x) := .next (.refl k) rfl rfl
  exact framedBare .pins (execPinGenWindowEnd i) rfl rfl h (marked _ _)

/-! ### Time and the host link -/

theorem timeFrame {s t : State} {c : Instr} (hc : c ∈ [Instr.ppsOutRise, .ppsOutFall, .ptmDialog]) (h : exec c s = .next t) :
    t = { s with m := { s.m with time := t.m.time, out := t.m.out } } := by
  have told (k : Mach) (x : TimeBase) (o : Out) : Frame.times.keeps [] k ({ k with time := x }.emit o) := .next (.refl k) rfl rfl
  simp only [List.mem_cons, List.not_mem_nil, or_false] at hc
  rcases hc with rfl | rfl | rfl
  · exact framedBare .times execPpsOutRise rfl rfl h (.when (told _ _ _))
  · exact framedBare .times execPpsOutFall rfl rfl h (.when (told _ _ _))
  · exact framedBare .times execPtmDialog rfl rfl h (.when (told _ _ _))

end Sys2Proof.Machine

/-! What the commands of the host endpoint, the fabric, CAN FD, the two-wire buses and the module's life leave alone, and writes of plain
entries. -/

namespace Sys2Proof.Machine

/-! ### The frames of the families -/

/-- What a credit frame reaches: fabric ports and the next frame number. -/
def Frame.credits : Frame :=
  ⟨fun m n => { m with fports := n.fports, fseq := n.fseq, dict := n.dict }, fun _ => rfl, fun _ _ _ => rfl, fun _ _ => rfl⟩

/-- What the end of a hold reaches: holds, forwarded streams and entries. -/
def Frame.holds : Frame :=
  ⟨fun m n => { m with holds := n.holds, fwds := n.fwds, dict := n.dict }, fun _ => rfl, fun _ _ _ => rfl, fun _ _ => rfl⟩

/-- Outputs. -/
def Frame.outs : Frame := ⟨fun m n => { m with out := n.out, dict := n.dict }, fun _ => rfl, fun _ _ _ => rfl, fun _ _ => rfl⟩

/-- The CAN FD node and outputs. -/
def Frame.cans : Frame := ⟨fun m n => { m with can := n.can, out := n.out, dict := n.dict }, fun _ => rfl, fun _ _ _ => rfl, fun _ _ => rfl⟩

/-- The two-wire target, outputs and entries. -/
def Frame.targets : Frame :=
  ⟨fun m n => { m with twi := n.twi, out := n.out, dict := n.dict }, fun _ => rfl, fun _ _ _ => rfl, fun _ _ => rfl⟩

/-- The two-wire controller, outputs and entries. -/
def Frame.controllers : Frame :=
  ⟨fun m n => { m with twc := n.twc, out := n.out, dict := n.dict }, fun _ => rfl, fun _ _ _ => rfl, fun _ _ => rfl⟩

/-- The two-wire target. -/
def Frame.summaries : Frame := ⟨fun m n => { m with twi := n.twi, dict := n.dict }, fun _ => rfl, fun _ _ _ => rfl, fun _ _ => rfl⟩

/-- The module's life. -/
def Frame.lives : Frame := ⟨fun m n => { m with life := n.life, dict := n.dict }, fun _ => rfl, fun _ _ _ => rfl, fun _ _ => rfl⟩

/-- The module's life, the Almanac and entries. -/
def Frame.fuses : Frame :=
  ⟨fun m n => { m with life := n.life, almanac := n.almanac, dict := n.dict }, fun _ => rfl, fun _ _ _ => rfl, fun _ _ => rfl⟩

/-- The Almanac. -/
def Frame.corrections : Frame :=
  ⟨fun m n => { m with almanac := n.almanac, dict := n.dict }, fun _ => rfl, fun _ _ _ => rfl, fun _ _ => rfl⟩

/-! ### The host link -/

section
variable (m : Mach)

theorem Mach.setEndpoint_keeps (x : Endpoint) : Frame.endpoint.keeps [] m { m with ep := x } := .next (.refl m) rfl rfl

theorem Mach.cause_keeps (b : Nat) : Frame.endpoint.keeps [] m (m.cause b) := by
  obtain ⟨x, hx⟩ := m.cause_eq b
  rw [hx]
  exact m.setEndpoint_keeps x

theorem Mach.report_keeps (code : Nat) (advisory : Bool) : Frame.endpoint.keeps [] m (m.report code advisory) :=
  .ite (.emit (m.setEndpoint_keeps _) (fun _ _ => rfl)) (m.setEndpoint_keeps _)

theorem Mach.unsupported_keeps : Frame.endpoint.keeps [] m m.unsupported := .when (m.report_keeps _ _)

theorem Mach.barWrite_keeps {f : Mach → Mach} (hf : Frame.endpoint.keeps [] m (f m)) : Frame.endpoint.keeps [] m (m.barWrite f) :=
  .ite hf m.unsupported_keeps

theorem Mach.barRead_keeps {f : Mach → Mach} (hf : Frame.endpoint.keeps [] m (f m)) : Frame.endpoint.keeps [] m (m.barRead f) :=
  .ite hf (.when (.trans (.emit (.refl m) (fun _ _ => rfl)) (Mach.report_keeps _ _ _)))

theorem Mach.barLatch_keeps (o : Nat) : Frame.endpoint.keeps [] m (m.barLatch o) :=
  .ite (m.setEndpoint_keeps _) (.ite (m.setEndpoint_keeps _) (.refl m))

theorem Mach.barLoad_keeps (offset length : Nat) : Frame.endpoint.keeps [] m (m.barLoad offset length) :=
  .ite (.emit (.trans (m.barLatch_keeps _) (Mach.barLatch_keeps _ _)) (fun _ _ => rfl)) (.emit (m.barLatch_keeps _) (fun _ _ => rfl))

theorem Mach.flushMsix_keeps : Frame.endpoint.keeps [] m m.flushMsix :=
  .ite (.each (fun _ _ k => .ite (.refl k) (k.setEndpoint_keeps _)) m) (.refl m)

theorem Mach.msixControl_keeps (enable fmask : Bool) : Frame.endpoint.keeps [] m (m.msixControl enable fmask) :=
  .ite (m.setEndpoint_keeps _) (.trans (m.setEndpoint_keeps _) (Mach.flushMsix_keeps _))

end

theorem endpointFrame {s t : State} {v k a n : Nat} {e f w c : Bool}
    (h : exec (.intCause v) s = .next t ∨ exec .tw64Lo s = .next t ∨ exec (.headLo k) s = .next t ∨ exec (.apertureHi v) s = .next t ∨
      exec (.apertureRead a n) s = .next t ∨ exec (.apertureWrite w a n) s = .next t ∨ exec (.bar0InvalidAccess c w a n) s = .next t ∨
      exec (.msixEnableWrite e f) s = .next t ∨ exec (.msixPendingSend v) s = .next t) :
    t = { s with m := { s.m with ep := t.m.ep, out := t.m.out } } := by
  rcases h with h | h | h | h | h | h | h | h | h
  · exact framedBare .endpoint (execIntCause v) rfl rfl h (Mach.barWrite_keeps _ (Mach.setEndpoint_keeps _ _))
  · exact framedBare .endpoint execTw64Lo rfl rfl h (Mach.barRead_keeps _ (.emit (Mach.setEndpoint_keeps _ _) (fun _ _ => rfl)))
  · exact framedBare .endpoint (execHeadLo k) rfl rfl h (Mach.barRead_keeps _ (.emit (Mach.setEndpoint_keeps _ _) (fun _ _ => rfl)))
  · exact framedBare .endpoint (execApertureHi v) rfl rfl h (Mach.barWrite_keeps _ (Mach.setEndpoint_keeps _ _))
  · have answered (k : Mach) (x : List Bytes) : Frame.endpoint.keeps [] k (x.foldl (fun (m : Mach) b => m.emit (.readDone b)) k) :=
      .foldl x (fun k _ _ => .emit (.refl k) (fun _ _ => rfl)) k
    have counted : Frame.endpoint.keeps [] s.m { s.m with ep.apReads := (s.m.ep.apReads + 1) % 2 ^ 32 } := s.m.setEndpoint_keeps _
    exact framedBare .endpoint (execApertureRead a n) rfl rfl h (Mach.barRead_keeps _ (counted.trans (answered _ _)))
  · refine framedBare .endpoint (execApertureWrite w a n) rfl rfl h (Mach.barWrite_keeps _ ?_)
    have poisoned (k : Mach) : Frame.endpoint.keeps [] k k.poisoned := (k.report_keeps _ _).trans (Mach.cause_keeps _ _)
    exact .trans (.trans (.ite (poisoned _) (.refl _)) (Mach.setEndpoint_keeps _ _)) (Mach.cause_keeps _ _)
  · refine framedBare .endpoint (execBar0InvalidAccess c w a n) rfl rfl h ?_
    have told (k : Mach) (o : Out) : Frame.endpoint.keeps [] k (k.emit o) := .emit (.refl k) (fun _ _ => rfl)
    refine .ite (.ite (told _ _) (.when (told _ _))) (.ite (.when (Mach.unsupported_keeps _)) (Mach.barRead_keeps _ ?_))
    exact .ite (Mach.barLoad_keeps _ _ _) ((told _ _).trans (Mach.report_keeps _ _ _))
  · exact framedBare .endpoint (execMsixEnableWrite e f) rfl rfl h (.when (Mach.msixControl_keeps _ _ _))
  · exact framedBare .endpoint (execMsixPendingSend v) rfl rfl h (.when (Mach.setEndpoint_keeps _ _))

/-! ### The fabric -/

theorem creditFrame {s t : State} {p : Nat} (h : exec (.creditSend p) s = .next t) :
    t = { s with m := { s.m with fports := t.m.fports, fseq := t.m.fseq } } := by
  have told (k : Mach) (x : FPort) : Frame.credits.keeps [] k (k.setFport p x) := .next (.refl k) rfl rfl
  have numbered (k : Mach) (v : Nat) : Frame.credits.keeps [] k { k with fseq := v } := .next (.refl k) rfl rfl
  exact framedBare .credits (execCreditSend p) rfl rfl h (.when (.trans (told _ _) (.trans (numbered _ _) (told _ _))))

/-- The entries that the end of a hold may change, where `fwds` are the forwarded streams. -/
def holdEntries (fwds : SMap Fwd) : List (Entry × Nat) :=
  ((List.range 96).map fun q => (E.TC2_RESERVED, q)) ++ ((List.range 96).map fun q => (E.PORT_STATE, q)) ++
    fwds.flatMap fun x => [(E.FWD_STATE, x.1), (E.FWD_FLOW, x.1), (E.PORT_STATE, x.2.port)]

theorem SMap.del_subset {α : Type} (k : Nat) (x : SMap α) : SMap.del k x ⊆ x := by
  induction x with
  | nil => exact List.Subset.refl _
  | cons a x ih =>
    rw [SMap.del]
    split
    · exact List.subset_cons_of_subset _ ih
    · exact List.cons_subset_cons _ ih

/-- What a map answers is a value of its, or the default. -/
theorem SMap.get_mem_or {α : Type} (d : α) (x : SMap α) (k : Nat) : (k, SMap.get d x k) ∈ x ∨ SMap.get d x k = d := by
  induction x with
  | nil => exact .inr rfl
  | cons a x ih =>
    rw [SMap.get]
    split
    · next hk => exact .inl (hk ▸ List.mem_cons_self)
    · exact ih.imp_left (List.mem_cons_of_mem a)

theorem port_mem_holdEntries {fwds x : SMap Fwd} (h : x ⊆ fwds) (k : Nat) : (E.PORT_STATE, (SMap.get {} x k).port) ∈ holdEntries fwds := by
  rcases SMap.get_mem_or {} x k with hk | hk
  · exact List.mem_append_right _ (List.mem_flatMap.2 ⟨_, h hk, by simp⟩)
  · rw [hk]
    exact List.mem_append_left _ (List.mem_append_right _ (List.mem_map.2 ⟨0, by simp, rfl⟩))

section
variable {F : Frame} {l : List (Entry × Nat)} {m n : Mach}

theorem Mach.showReserved_keeps (hl : ∀ q ∈ List.range 96, (E.TC2_RESERVED, q) ∈ l) : F.keeps l m m.showReserved := by
  unfold Mach.showReserved
  exact .each (fun q hq k => .wr (.refl k) (hl q hq)) m

theorem Mach.portFollow_keeps {p : Nat} (hp : (E.PORT_STATE, p) ∈ l) : F.keeps l m (m.portFollow p) :=
  .ite (.wr (.refl m) hp) (.refl m)

theorem Frame.keeps.fwds (h : Frame.entries.keeps l m n) : n.fwds = m.fwds := (congrArg Mach.fwds h.1).trans rfl

end

theorem Mach.portFollow_fwds (m : Mach) (p : Nat) : (m.portFollow p).fwds = m.fwds :=
  (Mach.portFollow_keeps (l := [(E.PORT_STATE, p)]) List.mem_cons_self).fwds

theorem Mach.dropFwd_fwds (m : Mach) (k : Nat) : (m.dropFwd k).fwds = SMap.del k m.fwds := by
  unfold Mach.dropFwd
  dsimp only
  rw [Mach.portFollow_fwds]
  rfl

theorem Mach.dropFwd_keeps {fwds : SMap Fwd} {m : Mach} (hm : m.fwds ⊆ fwds) {x : Nat × Fwd} (hx : x ∈ fwds) :
    Frame.holds.keeps (holdEntries fwds) m (m.dropFwd x.1) := by
  have dropped (k : Mach) (v : SMap Fwd) : Frame.holds.keeps (holdEntries fwds) k { k with fwds := v } := .next (.refl k) rfl rfl
  have listed {y : Entry × Nat} (hy : y ∈ [(E.FWD_STATE, x.1), (E.FWD_FLOW, x.1), (E.PORT_STATE, x.2.port)]) : y ∈ holdEntries fwds :=
    List.mem_append_right _ (List.mem_flatMap.2 ⟨x, hx, hy⟩)
  exact .trans (.wr (.wr (dropped m _) (listed (by simp))) (listed (by simp)))
    (Mach.portFollow_keeps (port_mem_holdEntries hm x.1))

/-- By induction on the streams to drop: each leaves a part of the forwarded streams. -/
theorem Mach.dropFwds_keeps {fwds : SMap Fwd} (xs : SMap Fwd) (hxs : xs ⊆ fwds) (m : Mach) (hm : m.fwds ⊆ fwds) :
    Frame.holds.keeps (holdEntries fwds) m (xs.foldl (fun m x => m.dropFwd x.1) m) := by
  induction xs generalizing m with
  | nil => exact .refl m
  | cons x xs ih =>
    obtain ⟨hx, hxs⟩ := List.cons_subset.1 hxs
    refine (Mach.dropFwd_keeps hm hx).trans (ih hxs _ ?_)
    rw [Mach.dropFwd_fwds]
    exact List.Subset.trans (SMap.del_subset _ _) hm

theorem holdFrame {s t : State} {p f n : Nat} (h : exec (.holdExpiry p f n) s = .next t) :
    t = { s with m := { s.m with holds := t.m.holds, fwds := t.m.fwds, dict := t.m.dict } } ∧ s.m.entriesKept t.m (holdEntries s.m.fwds) := by
  refine framed .holds (execHoldExpiry p f n) rfl rfl h (.when ?_)
  have reserved (q : Nat) (hq : q ∈ List.range 96) : (E.TC2_RESERVED, q) ∈ holdEntries s.m.fwds :=
    List.mem_append_left _ (List.mem_append_left _ (List.mem_map.2 ⟨q, hq, rfl⟩))
  have ended (k : Mach) (v : List Hold) : Frame.holds.keeps (holdEntries s.m.fwds) k { k with holds := v } := .next (.refl k) rfl rfl
  have freed (v : List Hold) : Frame.holds.keeps (holdEntries s.m.fwds) s.m { s.m with holds := v }.showReserved :=
    (ended s.m v).trans (Mach.showReserved_keeps reserved)
  have fwds (v : List Hold) : { s.m with holds := v }.showReserved.fwds = s.m.fwds :=
    (Mach.showReserved_keeps (l := holdEntries s.m.fwds) reserved).fwds
  dsimp only
  refine .ite ((freed _).trans (Mach.dropFwds_keeps _ ?_ _ ?_)) (freed _)
  · rw [fwds]
    exact List.filter_subset_self _
  · rw [fwds]
    exact List.Subset.refl _

/-! ### CAN FD and the two-wire buses -/

theorem nmtFrame {s t : State} {n : Nat}
    (h : exec (.nmtStart n) s = .next t ∨ exec (.nmtStop n) s = .next t ∨ exec (.nmtEnterPreoperational n) s = .next t) :
    t = { s with m := { s.m with dict := t.m.dict } } ∧ s.m.entriesKept t.m [(E.NMT_STATE, 0)] := by
  rcases h with h | h | h
  · exact framed .entries (execNmtStart n) rfl rfl h (.when (.wr (.refl _) (by simp)))
  · exact framed .entries (execNmtStop n) rfl rfl h (.when (.wr (.refl _) (by simp)))
  · exact framed .entries (execNmtEnterPreoperational n) rfl rfl h (.when (.wr (.refl _) (by simp)))

theorem canFrame {s t : State} {b : Bool}
    (h : exec .canBusOff s = .next t ∨ exec .canBusOffRecovery s = .next t ∨ exec (.canErrorPassive b) s = .next t) :
    t = { s with m := { s.m with dict := t.m.dict } } ∧ s.m.entriesKept t.m [(E.CAN_STATE, 0), (E.CAN_BUS_OFFS, 0)] := by
  rcases h with h | h | h
  · exact framed .entries execCanBusOff rfl rfl h (.when (.inc (.wr (.refl _) (by simp)) (by simp)))
  · exact framed .entries execCanBusOffRecovery rfl rfl h (.when (.wr (.refl _) (by simp)))
  · exact framed .entries (execCanErrorPassive b) rfl rfl h (.when (.wr (.refl _) (by simp)))

theorem heartbeatFrame {s t : State} (h : exec .heartbeat s = .next t) : t = { s with m := { s.m with out := t.m.out } } :=
  framedBare .outs execHeartbeat rfl rfl h (.when (.emit (.refl _) (fun _ _ => rfl)))

theorem emergencyFrame {s t : State} (h : exec .emergency s = .next t) : t = { s with m := { s.m with can := t.m.can, out := t.m.out } } := by
  have told (k : Mach) (x : CanNode) : Frame.cans.keeps [] k { k with can := x } := .next (.refl k) rfl rfl
  have sent (k : Mach) (code entry : Nat) : Frame.cans.keeps [] k (k.emergency code entry) := .emit (told k _) (fun _ _ => rfl)
  refine framedBare .cans execEmergency rfl rfl h (.when ?_)
  dsimp only
  split
  · exact (told _ _).trans (sent _ _ _)
  · exact .ite ((told _ _).trans (sent _ _ _)) (told _ _)

/-- The entries that the two-wire target may change. -/
def targetEntries : List (Entry × Nat) :=
  [(E.TWI_TRANSFERS, 0), (E.TWI_POINTER, 0), (E.ACK_ABORTS, 0), (E.SDA_TIMEOUTS, 0), (E.SCL_TIMEOUTS, 0), (E.TWI_FLAGS, 0), (E.WAKES, 0),
    (E.WAKE_FAILS, 0), (E.WAKE_STRETCH_MAX, 0)]

theorem Mach.setTarget_keeps (m : Mach) (x : TwiTarget) : Frame.targets.keeps targetEntries m { m with twi := x } := .next (.refl m) rfl rfl

theorem Mach.twiIdle_keeps (m : Mach) : Frame.targets.keeps targetEntries m m.twiIdle :=
  .trans (.ite (.emit (.refl m) (fun _ _ => rfl)) (.refl m)) (Mach.setTarget_keeps _ _)

theorem targetFrame {s t : State} {a : Nat} {r b : Bool}
    (h : exec (.twiAddress a r) s = .next t ∨ exec (.twiReadByte b) s = .next t ∨ exec (.twiStartAbort b) s = .next t ∨
      exec (.twiLineTimeout b) s = .next t ∨ exec .twiWake s = .next t ∨ exec .twiWakeTimeout s = .next t) :
    t = { s with m := { s.m with twi := t.m.twi, out := t.m.out, dict := t.m.dict } } ∧ s.m.entriesKept t.m targetEntries := by
  rcases h with h | h | h | h | h | h
  · refine framed .targets (execTwiAddress a r) rfl rfl h (.when ?_)
    exact .ite (.emit (.inc (Mach.setTarget_keeps _ _) (by simp [targetEntries])) (fun _ _ => rfl)) (Mach.setTarget_keeps _ _)
  · refine framed .targets (execTwiReadByte b) rfl rfl h ?_
    have pointed (k : Mach) : Frame.targets.keeps targetEntries k k.pointerUp := .wr (.refl k) (by simp [targetEntries])
    have sent (k : Mach) (o : Out) : Frame.targets.keeps targetEntries k (k.emit o) := .emit (.refl k) (fun _ _ => rfl)
    refine .ite (.refl _) (.ite ((sent _ _).trans (Mach.setTarget_keeps _ _)) (.when ?_))
    exact ((sent _ _).trans (pointed _)).trans (Mach.setTarget_keeps _ _)
  · refine framed .targets (execTwiStartAbort b) rfl rfl h (.when ?_)
    exact .ite (.wr (.inc s.m.twiIdle_keeps (by simp [targetEntries])) (by simp [targetEntries])) s.m.twiIdle_keeps
  · refine framed .targets (execTwiLineTimeout b) rfl rfl h (.when ?_)
    exact .ite (.wr (.inc s.m.twiIdle_keeps (by simp [targetEntries])) (by simp [targetEntries]))
      (.wr (.inc s.m.twiIdle_keeps (by simp [targetEntries])) (by simp [targetEntries]))
  · refine framed .targets execTwiWake rfl rfl h (.when ?_)
    exact .emit (.inc (Mach.setTarget_keeps _ _) (by simp [targetEntries])) (fun _ _ => rfl)
  · refine framed .targets execTwiWakeTimeout rfl rfl h (.when ?_)
    exact .emit (.peak (.inc (Mach.setTarget_keeps _ _) (by simp [targetEntries])) (by simp [targetEntries])) (fun _ _ => rfl)

/-- The entries that a failed transfer of the two-wire controller may change. -/
def controllerEntries : List (Entry × Nat) := [(E.TWC_FLAGS, 0), (E.ARB_LOSSES, 0), (E.TWC_NACKS, 0)]

theorem controllerFrame {s t : State} {b : Bool} (h : exec (.twcArbLoss b) s = .next t ∨ exec .twcNack s = .next t) :
    t = { s with m := { s.m with twc := t.m.twc, out := t.m.out, dict := t.m.dict } } ∧ s.m.entriesKept t.m controllerEntries := by
  have ended (k : Mach) (x : TwcCtl) : Frame.controllers.keeps controllerEntries k { k with twc := x } := .next (.refl k) rfl rfl
  have flagged (k : Mach) (c : Nat) : Frame.controllers.keeps controllerEntries k (k.twcFlag c) :=
    .wr (.refl k) (by simp [controllerEntries])
  rcases h with h | h
  · refine framed .controllers (execTwcArbLoss b) rfl rfl h (.when ?_)
    exact .trans (.ite (flagged _ _) (.inc (flagged _ _) (by simp [controllerEntries]))) (ended _ _)
  · refine framed .controllers execTwcNack rfl rfl h (.when ?_)
    exact .trans (.inc (.trans (.emit (.refl _) (fun _ _ => rfl)) (flagged _ _)) (by simp [controllerEntries])) (ended _ _)

theorem summaryFrame {s t : State} (h : exec .healthSummaryRefresh s = .next t) : t = { s with m := { s.m with twi := t.m.twi } } := by
  have told (k : Mach) (x : TwiTarget) : Frame.summaries.keeps [] k { k with twi := x } := .next (.refl k) rfl rfl
  exact framedBare .summaries execHealthSummaryRefresh rfl rfl h (.when (told _ _))

/-! ### The module's life -/

theorem lifeFrame {s t : State} {b : Bool}
    (h : exec .supplyInRange s = .next t ∨ exec (.junctionOperatingLimit b) s = .next t ∨ exec .benchIdleStop s = .next t) :
    t = { s with m := { s.m with life := t.m.life } } := by
  have lived (k : Mach) (x : Life) : Frame.lives.keeps [] k { k with life := x } := .next (.refl k) rfl rfl
  rcases h with h | h | h
  · exact framedBare .lives execSupplyInRange rfl rfl h (lived _ _)
  · exact framedBare .lives (execJunctionOperatingLimit b) rfl rfl h (.when (lived _ _))
  · exact framedBare .lives execBenchIdleStop rfl rfl h (.when (lived _ _))

theorem storeFrame {s t : State} (h : exec .storeWrite s = .next t) :
    t = { s with m := { s.m with life := t.m.life, dict := t.m.dict } } ∧
      s.m.entriesKept t.m [(E.STORE_GEN, 0), (E.STORE_WRITES, 0), (E.STORE_PENDING, 0)] := by
  have lived (k : Mach) (x : Life) : Frame.lives.keeps [(E.STORE_GEN, 0), (E.STORE_WRITES, 0), (E.STORE_PENDING, 0)] k { k with life := x } :=
    .next (.refl k) rfl rfl
  exact framed .lives execStoreWrite rfl rfl h (.when (.wr (.inc (.wr (lived _ _) (by simp)) (by simp)) (by simp)))

theorem fuseFrame {s t : State} (h : exec .fuseBlown s = .next t) :
    t = { s with m := { s.m with life := t.m.life, almanac := t.m.almanac, dict := t.m.dict } } ∧
      s.m.entriesKept t.m [(E.FUSE_STATE, 0), (E.LOG_USED, 0)] := by
  have lived (k : Mach) (x : Life) : Frame.fuses.keeps [(E.FUSE_STATE, 0), (E.LOG_USED, 0)] k { k with life := x } := .next (.refl k) rfl rfl
  exact framed .fuses execFuseBlown rfl rfl h (.when (.record (.wr (lived _ _) (by simp)) (by simp) (fun _ _ => rfl)))

theorem correctionFrame {s t : State} {i c : Nat} (h : exec (.hbmCorrectedError i c) s = .next t) :
    t = { s with m := { s.m with almanac := t.m.almanac, dict := t.m.dict } } ∧
      s.m.entriesKept t.m [(E.HBM_CE, i), (E.LOG_USED, 0), (E.PART_ADVICE, 0x36 + i)] := by
  refine framed .corrections (execHbmCorrectedError i c) rfl rfl h (.when ?_)
  dsimp only
  refine .trans (.advise (.wrB (.almanac (.refl _) (fun _ _ => rfl)) (by simp)) (by simp)) (.ite ?_ (.refl _))
  exact .record (.refl _) (by simp) (fun _ _ => rfl)

/-! ### Writes of plain entries (R426 to R428, R431) -/

/-- The entries that tell of a write, beside the one written. -/
def writeEntries : List (Entry × Nat) :=
  [(E.CLAMP_TALLY, 0), (E.LAST_CLAMPED, 0), (E.LAST_CLAMP_KIND, 0), (E.LAST_CLAMP_TIME, 0), (E.LAST_WRITTEN, 0), (E.TALLY_BY_PATH, 0),
    (E.STORE_PENDING, 0), (E.CONFIG_EPOCH, 0)]

section
variable (x : Entry × Nat) (m : Mach) (path : Nat) (data : Bytes)

theorem Mach.tally_keeps (index sub kind : Nat) : Frame.entries.keeps (x :: writeEntries) m (m.tally path index sub kind data) := by
  unfold Mach.tally
  exact .wrB (.wr (.wr (.wr (.wr (.inc (.refl m) (by simp [writeEntries])) (by simp [writeEntries])) (by simp [writeEntries]))
    (by simp [writeEntries])) (by simp [writeEntries])) (by simp [writeEntries])

theorem Mach.tookEffect_keeps (e : Entry) (k : Nat) : Frame.entries.keeps (x :: writeEntries) m (m.tookEffect e k) := by
  have pending : Frame.entries.keeps (x :: writeEntries) m (m.wr E.STORE_PENDING 0 1) := .wr (.refl m) (by simp [writeEntries])
  exact .ite (.ite (.inc pending (by simp [writeEntries])) pending) (.refl m)

/-- An entry that bounds no other. -/
theorem Mach.putEntry_keeps {e : Entry} {k : Nat} (hb : boundedBy e k = []) :
    Frame.entries.keeps ((e, k) :: writeEntries) m (m.putEntry path e k data) := by
  have told (n : Mach) (kind : Nat) : Frame.entries.keeps ((e, k) :: writeEntries) n (n.tallyIf path (e.at k).1 (e.at k).2 kind data) :=
    .ite (.refl n) (Mach.tally_keeps _ n path data _ _ _)
  have written (v : Val) : Frame.entries.keeps ((e, k) :: writeEntries) m (m.setVal e k v) := .setVal (.refl m) (by simp)
  unfold Mach.putEntry
  rw [hb]
  exact ((written _).trans (told _ _)).trans (Mach.tookEffect_keeps _ _ e k)

theorem Mach.writePlain_keeps {e : Entry} {k : Nat} (hb : boundedBy e k = [])
    (how : pairWide (e.at k).1 (e.at k).2 = false ∨ m.xlinkUp = false ∨ path = 4) :
    Frame.entries.keeps ((e, k) :: writeEntries) m (m.writePlain path e k data) := by
  have told (kind : Nat) : Frame.entries.keeps ((e, k) :: writeEntries) m (m.tally path (e.at k).1 (e.at k).2 kind data) :=
    m.tally_keeps _ path data _ _ kind
  unfold Mach.writePlain Mach.writeEntry Mach.command
  dsimp only
  rw [Mach.wide_own how]
  exact .ite (.refl m) (.ite (told 6) (.ite (.refl m) (.ite (told 8) (.ite (told 9) (m.putEntry_keeps path data hb)))))

end

theorem boundedBy_of_plain {e : Entry} (he : e ∈ plainEntries) (k : Nat) : boundedBy e k = [] := by
  have hn : ∀ e ∈ plainEntries, e ∉ [E.SPEED_UP, E.DIV_M, E.RATE_LIMIT, E.CH_CLASS, E.HOST_SHARE_LIMIT, E.TASK_KIND, E.MG_MODE, E.VP_LENGTH,
    E.VP_CLKDIV, E.BANDS] := by decide
  have he := hn e he
  simp only [List.mem_cons, List.not_mem_nil, or_false, not_or] at he
  simp [boundedBy, he]

theorem plainWriteFrame {s t : State} {path k : Nat} {e : Entry} {data : Bytes} (hpath : path < 5)
    (hf : findEntry (e.at k).1 (e.at k).2 = some (e, k)) (he : e ∈ plainEntries)
    (how : pairWide (e.at k).1 (e.at k).2 = false ∨ s.m.xlinkUp = false ∨ path = 4)
    (h : exec (.dictWrite path (e.at k).1 (e.at k).2 data) s = .next t) :
    t = { s with m := { s.m with dict := t.m.dict } } ∧ s.m.entriesKept t.m ((e, k) :: writeEntries) := by
  rw [exec_dictWrite hpath] at h
  obtain rfl := Host.Outcome.next.inj h
  cases hs : s.m.serves path with
  | false =>
    rw [State.write, if_pos hs]
    exact ⟨rfl, fun _ _ _ => rfl⟩
  | true =>
    rw [State.write_of_plain hs hf he]
    obtain ⟨hm, hd, -⟩ := s.m.writePlain_keeps path data (boundedBy_of_plain he k) how
    exact ⟨congrArg (fun m => { s with m := m }) hm, hd⟩

/-- Settles O60: each clause is the frame of its family. -/
theorem commandFrames : Obligations.CommandFrames := by
  intro s t
  exact ⟨fun _ hc h => refFrame hc h, fun _ h => quadFrame h, fun _ h => laneFrame h, fun _ _ h => codewordFrame h,
    fun _ _ _ _ _ h => eyeFrame h, fun _ h => fifoFrame h, fun _ _ h => beaconFrame h, fun _ _ h => triggerFrame h,
    fun _ h => absentFrame h, fun _ _ _ h => stampFrame h, fun _ _ _ h => digestFrame h, fun _ h => replayFrame h,
    fun _ h => clockGateFrame h, fun _ _ h => ssiPollFrame h, fun _ h => positionFrame h, fun _ h => pinFrame h,
    fun _ hc h => timeFrame hc h, fun _ _ _ _ _ _ _ _ h => endpointFrame h, fun _ h => creditFrame h, fun _ _ _ h => holdFrame h,
    fun _ h => nmtFrame h, fun _ h => canFrame h, heartbeatFrame, emergencyFrame, fun _ _ _ h => targetFrame h,
    fun _ h => controllerFrame h, summaryFrame, fun _ h => lifeFrame h, storeFrame, fuseFrame, fun _ _ h => correctionFrame h,
    fun _ _ _ _ hp hf he hw h => plainWriteFrame hp hf he hw h⟩

end Sys2Proof.Machine
